-- ==== Sys2Proof/Word.lean ====
section
/-! DEFINITION.  The word types of the block: bytes, 32-bit register words, 48-bit physical addresses,
12-bit master identities, and the bounded indices of dies, contexts and ports. -/

namespace Sys2Proof

abbrev Byte := BitVec 8
abbrev Word := BitVec 32
/-- A 48-bit physical address (R619). -/
abbrev Addr := BitVec 48
/-- A 12-bit master identity (R19). -/
abbrev Mid := BitVec 12
/-- A compute die or its base tile, 0 to 3 (R22). -/
abbrev Die := Fin 4
/-- A ring and its context, 0 to 7 (R164). -/
abbrev Ctx := Fin 8
/-- The number of a step in a list (R170). -/
abbrev StepNo := BitVec 16
/-- An event counter of a die, 0 to 15 (R173). -/
abbrev EvtNo := Fin 16
/-- A sequence-table entry, 0 to 255 (R205). -/
abbrev Entry := Fin 256
/-- A 10GBASE-KR port, 0 to 7 (R603). -/
abbrev EthPort := Fin 8
/-- A hub CAN FD port, 0 to 3 (R605). -/
abbrev CanPort := Fin 4
/-- A hart, 0 to 23 (R434). -/
abbrev Hart := Fin 24
/-- A mailbox channel, 0 to 255 (R446). -/
abbrev Chan := Fin 256

end Sys2Proof
end

