-- ==== Sys2Proof/Syntax.lean ====
section
/-! DEFINITION.  The commands the block takes: one constructor per row of the command table, with the
row's operands.  A register-write row carries the writer's master identity and the value written; an
event row carries what the outside world brings with it. -/

namespace Sys2Proof

/-- The units whose snapshot-and-clear command SNAP names (R630). -/
inductive SnapUnit where
  | brd (d : Die) | str (d : Die) | wsp (d : Die)
  deriving DecidableEq, Repr

/-- An access of a hart (R437 to R440): loads and fetches by size, stores by their bytes, atomics by OP and width (8 bytes or 4), the
reservation pair, and the cache-block operations. -/
inductive HartOp where
  | load (n : Fin 65)
  | fetch (n : Fin 65)
  | store (bytes : List (BitVec 8))
  | amo (op : Fin 9) (wide : Bool) (x : BitVec 64)
  | lr (wide : Bool)
  | sc (wide : Bool) (x : BitVec 64)
  | cboZero | cboClean | cboFlush | cboInval
  deriving DecidableEq, Repr

/-- What the residue checkers find in a tile step (R89). -/
inductive Residue where
  | clean | mismatch (q : Fin 4)
  deriving DecidableEq, Repr

/-- What an error-correcting code finds at a read (R239, R268). -/
inductive Ecc where
  | clean | corrected | uncorrectable
  deriving DecidableEq, Repr

/-- What a controller's check of a line finds (R268). -/
inductive LineCheck where
  | clean | corrected | uncorrectable
  /-- the syndrome of a line returned for another address: a command error -/
  | wrongAddress
  deriving DecidableEq, Repr

/-- A request that reaches a memory controller (R272 to R274): its address, port, arbitration rank and
page hint, and for a write its bytes from the address on, none past the line's end. -/
structure McReq where
  pa : BitVec 48
  port : Fin 8
  arank : Fin 8
  ph : Bool
  data : Option (List (BitVec 8))
  deriving DecidableEq, Repr

/-- Cleat A (0) or Cleat B (1). -/
abbrev Cleat2 := Fin 2

/-- A translation unit: compute dies 0 to 3, the hub 4 (R260). -/
abbrev XltUnit := Fin 5

/-- The commands of the table.  The commands without operands stand last: Lean's compiled code can build constructors with operands only up
to number 244. -/
inductive Instr where
  /-- REGISTER_WRITE (R17): A software write to a register that has no row of its own is applied field by field under the field's access class. -/
  | registerWrite (mid : Mid) (a : Addr) (size : Fin 9) (value : BitVec 64)
  /-- SNAP (R630): A snapshot-and-clear command copies every CNT field it clears to the snapshot alias and clears it atomically. -/
  | snap (mid : Mid) (a : Addr)
  /-- LOCK_SET (R627): The steward sets a configuration lock bit, which applies any LCK fields carried in the same write and then freezes them. -/
  | lockSet (mid : Mid) (lock : Fin 6) (value : Word)
  /-- SYNC (R335): A gPTP Sync message on PTPPORT is stamped and used to update the filtered OFFSET, the lock state and the rate discipline. -/
  | sync (port : EthPort) (twoStep : Bool) (seq : BitVec 16) (origin : Nat) (correction : Int)
  /-- FOLLOW_UP (R334): A gPTP Follow_Up supplies the precise origin time of the preceding two-step Sync. -/
  | followUp (port : EthPort) (seq : BitVec 16) (origin : Nat) (correction : Int)
  /-- ANNOUNCE (R334): A gPTP Announce message is processed on PTPPORT for grandmaster selection. -/
  | announce (port : EthPort) (priority : Nat)
  /-- PDELAY_REQ (R334): A peer-delay request on PTPPORT is answered under the peer-delay mechanism. -/
  | pdelayReq (port : EthPort) (seq : BitVec 16)
  /-- PDELAY_RESP (R334): A peer-delay response is received and used in the link delay measurement. -/
  | pdelayResp (port : EthPort) (seq : BitVec 16) (received : Nat)
  /-- PDELAY_RESP_FOLLOW_UP (R334): A peer-delay response follow-up completes one link delay measurement. -/
  | pdelayRespFollowUp (port : EthPort) (seq : BitVec 16) (sent : Nat)
  /-- SCH_DOORBELL (R166): A write of CD_SCH_DB advances the ring's accepted tail, or is refused and sets CMDREF. -/
  | schDoorbell (mid : Mid) (d : Die) (r : Ctx) (value : Word)
  /-- RING_FETCH (R165): An idle context fetches and checks the next ring entry, restoring a restart record for RESUME entries. -/
  | ringFetch (d : Die) (c : Ctx)
  /-- GATE_MET (R168): A GATED context's event counter reaches GATEVAL and the list starts. -/
  | gateMet (d : Die) (c : Ctx)
  /-- STEP_DECODE (R176): A context fetches and decodes a step in its window and enters its read and write sets into the scoreboard. -/
  | stepDecode (d : Die) (c : Ctx)
  /-- MATMUL (R82): A Braid MATMUL tile step runs its row groups, N tiles and passes on the current shape. -/
  | matmul (d : Die) (c : Ctx) (step : StepNo) (residue : Residue)
  /-- CONV (R80): A Braid CONV tile step runs a direct convolution with implicit im2col. -/
  | conv (d : Die) (c : Ctx) (step : StepNo) (residue : Residue)
  /-- WMATMUL (R118): A whipping-engine matrix step runs on the 64 x 16 array. -/
  | wmatmul (d : Die) (c : Ctx) (step : StepNo)
  /-- WCONV (R117): A whipping-engine convolution step runs on the 64 x 16 array. -/
  | wconv (d : Die) (c : Ctx) (step : StepNo)
  /-- SFWD (R125): A spectral step forms input tiles and applies the forward 2-D FFT. -/
  | sfwd (d : Die) (c : Ctx) (step : StepNo)
  /-- SWXF (R125): A spectral step transforms flipped filters into frequency spectra. -/
  | swxf (d : Die) (c : Ctx) (step : StepNo)
  /-- SMAC (R126): A spectral step multiplies input and filter spectra and sums them over input channels canonically. -/
  | smac (d : Die) (c : Ctx) (step : StepNo)
  /-- SINV (R127): A spectral step applies the inverse FFT, crops, adds bias and converts to the output. -/
  | sinv (d : Die) (c : Ctx) (step : StepNo)
  /-- CVT (R105): A strand step converts each element once from its exact value to OFMT. -/
  | cvt (d : Die) (c : Ctx) (step : StepNo)
  /-- ADD (R103): A strand step adds operands A and B elementwise. -/
  | add (d : Die) (c : Ctx) (step : StepNo)
  /-- SUB (R103): A strand step subtracts operand B from A elementwise. -/
  | sub (d : Die) (c : Ctx) (step : StepNo)
  /-- MUL (R103): A strand step multiplies operands A and B elementwise. -/
  | mul (d : Die) (c : Ctx) (step : StepNo)
  /-- MAX (R103): A strand step takes the elementwise maximum of A and B. -/
  | max (d : Die) (c : Ctx) (step : StepNo)
  /-- MIN (R103): A strand step takes the elementwise minimum of A and B. -/
  | min (d : Die) (c : Ctx) (step : StepNo)
  /-- AFFINE (R103): A strand step scales and shifts each element by its column's parameter pair. -/
  | affine (d : Die) (c : Ctx) (step : StepNo)
  /-- CLAMP (R103): A strand step clamps each element between IMM0 and IMM1. -/
  | clamp (d : Die) (c : Ctx) (step : StepNo)
  /-- RELU (R103): A strand step takes the maximum of each element and +0. -/
  | relu (d : Die) (c : Ctx) (step : StepNo)
  /-- EXP (R62): A strand step computes exp_f32 of each element. -/
  | exp (d : Die) (c : Ctx) (step : StepNo)
  /-- RECIP (R64): A strand step computes recip_f32 of each element. -/
  | recip (d : Die) (c : Ctx) (step : StepNo)
  /-- SQRT (R103): A strand step computes the correctly rounded square root of each element. -/
  | sqrt (d : Die) (c : Ctx) (step : StepNo)
  /-- RSQRT (R103): A strand step computes the reciprocal of the square root of each element. -/
  | rsqrt (d : Die) (c : Ctx) (step : StepNo)
  /-- SIGMOID (R103): A strand step computes the defined sigmoid of each element. -/
  | sigmoid (d : Die) (c : Ctx) (step : StepNo)
  /-- SILU (R103): A strand step computes a times sigmoid(a) for each element. -/
  | silu (d : Die) (c : Ctx) (step : StepNo)
  /-- TANH (R103): A strand step computes the defined tanh of each element. -/
  | tanh (d : Die) (c : Ctx) (step : StepNo)
  /-- RSUM (R61): A strand step writes the canonical sum of each row. -/
  | rsum (d : Die) (c : Ctx) (step : StepNo)
  /-- RMEAN (R61): A strand step writes the canonical mean of each row. -/
  | rmean (d : Die) (c : Ctx) (step : StepNo)
  /-- RMAX (R103): A strand step writes the maximum of each row. -/
  | rmax (d : Die) (c : Ctx) (step : StepNo)
  /-- RMIN (R103): A strand step writes the minimum of each row. -/
  | rmin (d : Die) (c : Ctx) (step : StepNo)
  /-- SOFTMAX (R65): A strand step computes softmax_f32 of each row. -/
  | softmax (d : Die) (c : Ctx) (step : StepNo)
  /-- LAYERNORM (R104): A strand step normalises each row by mean and variance with gain and bias. -/
  | layernorm (d : Die) (c : Ctx) (step : StepNo)
  /-- RMSNORM (R104): A strand step normalises each row by its root mean square with gain. -/
  | rmsnorm (d : Die) (c : Ctx) (step : StepNo)
  /-- POOLMAX (R112): A strand step max-pools each window over the positions inside the input. -/
  | poolmax (d : Die) (c : Ctx) (step : StepNo)
  /-- POOLAVG (R112): A strand step average-pools each window with the selected divisor. -/
  | poolavg (d : Die) (c : Ctx) (step : StepNo)
  /-- GATHER (R113): A strand step assembles output rows from indexed source rows, zero-filling taps with index -1. -/
  | gather (d : Die) (c : Ctx) (step : StepNo)
  /-- SCATTER (R114): A strand step checks its index table and writes source rows to indexed destination rows. -/
  | scatter (d : Die) (c : Ctx) (step : StepNo)
  /-- FILL (R103): A strand step writes the immediate code to every output element. -/
  | fill (d : Die) (c : Ctx) (step : StepNo)
  /-- LOAD (R172): A transfer step reads rows from memory into staging. -/
  | load (d : Die) (c : Ctx) (step : StepNo)
  /-- STORE (R172): A transfer step writes rows from staging to memory. -/
  | store (d : Die) (c : Ctx) (step : StepNo)
  /-- SIGNAL (R173): A sync step increments an event counter of a target die once every earlier step has committed. -/
  | signal (d : Die) (c : Ctx) (step : StepNo)
  /-- WAIT (R173): A sync step waits until an own event counter reaches VALUE. -/
  | wait (d : Die) (c : Ctx) (step : StepNo)
  /-- WAIT_COMPLETE (R173): The awaited event counter reaches VALUE, the WAIT commits and later steps may dispatch. -/
  | waitComplete (d : Die) (c : Ctx) (step : StepNo)
  /-- STEP_COMMIT (R174): A step's last output write completes, its commit marker is written, and the engine is granted to the next ready step. -/
  | stepCommit (d : Die) (c : Ctx) (step : StepNo)
  /-- RESTART_RECORD_WRITE (R183): A STOPPING context's in-flight steps have all finished and its restart record is written. -/
  | restartRecordWrite (d : Die) (c : Ctx)
  /-- CTX_SUSPEND (R184): The SUSPEND command moves a running or gated context to STOPPING and then SUSPENDED. -/
  | ctxSuspend (mid : Mid) (d : Die) (c : Ctx)
  /-- CTX_SAVE (R184): The SAVE command writes the partition and the record to the save area. -/
  | ctxSave (mid : Mid) (d : Die) (c : Ctx)
  /-- CTX_RELEASE (R184): The RELEASE command frees the context's partition and returns it to IDLE. -/
  | ctxRelease (mid : Mid) (d : Die) (c : Ctx)
  /-- CTX_RESUME (R184): The RESUME command redecodes the steps from NEXT not marked DONE. -/
  | ctxResume (mid : Mid) (d : Die) (c : Ctx)
  /-- CTX_ABORT (R184): The ABORT command discards the list, frees its record and returns the context to IDLE. -/
  | ctxAbort (mid : Mid) (d : Die) (c : Ctx)
  /-- CTX_CONFIRM (R192): The CONFIRM command sets ADOPTPEND to 0. -/
  | ctxConfirm (mid : Mid) (d : Die) (c : Ctx)
  /-- EVTINC (R173): A write of CD_SCH_EVTINC increments the named event counter by 1. -/
  | evtinc (mid : Mid) (d : Die) (value : Word)
  /-- EVENT_INCREMENT (R456): A MSG entry of KIND 0x1 arrives and increments an event counter of its target die. -/
  | eventIncrement (d : Die) (k : EvtNo)
  /-- INTERRUPT_LEVEL (R456): A MSG entry of KIND 0x2 arrives and sets the level of an APLIC source. -/
  | interruptLevel (source : BitVec 8) (level : Bool)
  /-- RTFENCE_WRITE (R191): A steward write of RTFENCE fences or unfences a die from real-time work. -/
  | rtfenceWrite (mid : Mid) (d : Die) (value : Word)
  /-- RTFENCE_SET (R426): A single die vote has stood for 20 ms, so the hub sets RTFENCE and RT contexts are suspended and saved. -/
  | rtfenceSet (d : Die)
  /-- QFENCE_WRITE (R90): A steward write of QFENCE changes the fenced quadrants from the next tile-step boundary. -/
  | qfenceWrite (mid : Mid) (d : Die) (value : Word)
  /-- QOFF_WRITE (R91): A write of QOFF switches quadrants off for power from the next tile-step boundary. -/
  | qoffWrite (mid : Mid) (d : Die) (value : Word)
  /-- PAIROFF_WRITE (R131): A write of PAIROFF switches strand pairs off from the next strand step boundary. -/
  | pairoffWrite (mid : Mid) (d : Die) (value : Word)
  /-- HOLD_WRITE (R143): A write of HOLD puts a die under floor hold and raises its grants to PHOLD, or releases the hold. -/
  | holdWrite (mid : Mid) (d : Die) (value : Word)
  /-- JOIN (R205): The JOIN command moves a FREE sequence entry to JOIN. -/
  | join (mid : Mid) (d : Die) (e : Entry)
  /-- LEAVE (R205): The LEAVE command moves an ACTIVE sequence entry to LEAVE. -/
  | leave (mid : Mid) (d : Die) (e : Entry)
  /-- FRESH (R209): The FRESH command marks a new observation for a sequence. -/
  | fresh (mid : Mid) (d : Die) (e : Entry)
  /-- ADOPT (R216): The ADOPT command makes an entry ACTIVE and adds 1 to SEQPEND. -/
  | adopt (mid : Mid) (d : Die) (e : Entry)
  /-- SEQ_CONFIRM (R216): The CONFIRM command of the sequence block sets SEQPEND to 0. -/
  | seqConfirm (mid : Mid) (d : Die)
  /-- TAKE (R207): The TAKE command hands round building to the builder at the next tick. -/
  | take (mid : Mid) (d : Die)
  /-- GIVE (R207): The GIVE command hands round building back to the runtime after the round in flight. -/
  | give (mid : Mid) (d : Die)
  /-- KICK (R207): A write of KICK restarts the takeover count. -/
  | kick (mid : Mid) (d : Die) (value : Word)
  /-- TAKEOVER (R207): KICKTO builder ticks pass without a KICK, so MODE becomes builder. -/
  | takeover (d : Die)
  /-- BUILDER_TICK (R209): At a builder tick the builder checks the template, places tokens, writes the round list and certificate, and submits it. -/
  | builderTick (d : Die)
  /-- ENERGY_TICK (R224): At each 1 ms tick every CDn domain apportions its energy to client classes. -/
  | energyTick (energies : List Nat)
  /-- SHELF_INIT_DONE (R238): A powered-up Shelf group finishes zero initialisation and READY sets. -/
  | shelfInitDone (n : Die) (g : Fin 3)
  /-- SHELF_SCRUB (R239): A patrol-scrub read of a Shelf line corrects it or finds it uncorrectable and poisons it. -/
  | shelfScrub (n : Die) (g : Fin 3) (line : BitVec 20) (found : Ecc)
  /-- SCRWAYS_WRITE (R247): A write of SCRWAYS starts growing or shrinking the scratch partition. -/
  | scrwaysWrite (mid : Mid) (value : Word)
  /-- XLT_CTL_WRITE (R263): A write of XLT_CTL enables or disables translation and, while disabled, sets the table size. -/
  | xltCtlWrite (mid : Mid) (u : XltUnit) (value : Word)
  /-- INV_DEVCTX (R255): Invalidation OP 0x1 drops a cached device context and its translations. -/
  | invDevctx (mid : Mid) (u : XltUnit) (ctx : BitVec 16) (bcast : Bool)
  /-- INV_TRANSLATIONS (R255): Invalidation OP 0x2 drops the cached translations of a device context. -/
  | invTranslations (mid : Mid) (u : XltUnit) (ctx : BitVec 16) (bcast : Bool)
  /-- INV_ADDRESS (R255): Invalidation OP 0x3 drops the cached translations covering one address. -/
  | invAddress (mid : Mid) (u : XltUnit) (ctx : BitVec 16) (bcast : Bool)
  /-- INV_ALL (R255): Invalidation OP 0x4 drops every cached translation and device context. -/
  | invAll (mid : Mid) (u : XltUnit) (bcast : Bool)
  /-- INV_ALL_LOCKED (R255): Invalidation OP 0x5 also drops every locked entry. -/
  | invAllLocked (mid : Mid) (u : XltUnit) (bcast : Bool)
  /-- INV_DONE (R255): No access translated through a dropped translation remains in flight and INVBUSY clears. -/
  | invDone (u : XltUnit)
  /-- XLT_LOCK (R254): The LOCK command starts a table walk to install the leaf of an address as a locked entry. -/
  | xltLock (mid : Mid) (u : XltUnit) (ctx : BitVec 16)
  /-- XLT_UNLOCK (R254): The UNLOCK command removes a locked entry. -/
  | xltUnlock (mid : Mid) (u : XltUnit) (ctx : BitVec 16)
  /-- LOCK_WALK_DONE (R254): The walk of a LOCK ends and installs the entry or reports LKERR. -/
  | lockWalkDone (u : XltUnit)
  /-- DMA_DOORBELL (R324): A write of DMA_DB advances a channel's accepted tail, or is refused. -/
  | dmaDoorbell (mid : Mid) (c : Fin 16) (value : Word)
  /-- DMA_DESCRIPTOR (R323): A channel fetches a descriptor and begins its transfer. -/
  | dmaDescriptor (c : Fin 16)
  /-- DMA_COMPLETION (R258): A descriptor's transfer ends and its completion record is written in ring order. -/
  | dmaCompletion (c : Fin 16)
  /-- DMA_RESUME (R324): RESUME makes a halted channel fetch again from HEAD. -/
  | dmaResume (mid : Mid) (c : Fin 16)
  /-- DMA_ABORT (R632): ABORT empties a channel and sets HEAD to DBTAIL. -/
  | dmaAbort (mid : Mid) (c : Fin 16)
  /-- CONTROLLER_ISSUE (R273): A memory controller issues its next queued request by arbitration rank, open row and age, and checks its ECC. -/
  | controllerIssue (m : Fin 9) (arrivals : List McReq) (found : LineCheck)
  /-- CORRECTED_WRITEBACK (R268): A queued write-back of a corrected line is performed at arbitration rank 0. -/
  | correctedWriteback (m : Fin 9) (found : LineCheck)
  /-- POISON_WRITEBACK (R268): A queued write-back stores an uncorrectable line in its poisoned form. -/
  | poisonWriteback (m : Fin 9) (found : LineCheck)
  /-- PAGE_IDLE_CLOSE (R274): An open row sees no access for PGIDLE x 10 ns and is closed. -/
  | pageIdleClose (m : Fin 9) (k : Fin 8) (bank : Fin 16)
  /-- REFRESH_DEBT_TICK (R276): A tREFI interval passes and the rank-channel's refresh debt rises by 1. -/
  | refreshDebtTick (m : Fin 9) (k : Fin 8)
  /-- REFPB (R276): With debt pending, a per-bank refresh is issued to an unused bank. -/
  | refpb (m : Fin 9) (k : Fin 8)
  /-- REFAB (R276): With debt at 8, the request in progress completes and a forced all-bank refresh is issued. -/
  | refab (m : Fin 9) (k : Fin 8)
  /-- MR4_READ (R265): Every 4 ms the controller reads MR4 and applies the reported refresh multiplier. -/
  | mr4Read (m : Fin 9) (mult : Fin 3) (hot : Bool)
  /-- SELF_REFRESH_ENTRY (R277): The idle conditions hold for SRIDLE and the controller enters self-refresh. -/
  | selfRefreshEntry (m : Fin 9) (commit : Bool)
  /-- SELF_REFRESH_EXIT (R277): A request arrives at a controller in self-refresh and it cancels entry or exits. -/
  | selfRefreshExit (m : Fin 9) (req : McReq)
  /-- DRAM_INIT_DONE (R269): A controller finishes zeroing every line after power-on and READY sets. -/
  | dramInitDone (m : Fin 9)
  /-- DRAM_SCRUB (R269): A patrol-scrub read of an LPDDR5X line corrects and writes it back, or poisons it. -/
  | dramScrub (q : Fin 64) (u : BitVec 19) (line : Fin 64) (found : LineCheck)
  /-- MIGRATE (R283): The MIGRATE command starts or queues a preventive migration of a rank-channel. -/
  | migrate (mid : Mid) (q : Fin 64)
  /-- MIGRATION_CHUNK (R285): The migration engine copies or initialises the chunk at PTR on the spare and advances PTR. -/
  | migrationChunk (fixed : List (Fin 64)) (bad : List (Fin 64))
  /-- TRAIN (R305): The TRAIN command starts training of a module from DOWN. -/
  | train (mid : Mid) (e : Fin 5) (k : Fin 18)
  /-- RETRAIN (R307): The RETRAIN command starts drain and retraining of a module. -/
  | retrain (mid : Mid) (e : Fin 5) (k : Fin 18)
  /-- REGULATOR_WINDOW (R316): A 1 us regulator window ends, misses are recorded and USED, OVER and returns restart. -/
  | regulatorWindow (starved : List (Fin 14 × Fin 8 × Bool))
  /-- GUEST_REQUEST (R325): A request from the guest site is checked by the firewall and passed or refused. -/
  | guestRequest (mid : Mid) (pa : Addr) (rank : Fin 8) (len : Fin 4) (data : Option (List Byte))
  /-- CSI2_LONG_PACKET (R338): A CSI-2 long packet is stamped and its line stored into a line-group record. -/
  | csi2LongPacket (port : Fin 16) (vc : Fin 4) (dt : BitVec 8) (data : List Byte) (header : Ecc) (crcOk : Bool)
  /-- FRAME_START (R338): A CSI-2 Frame Start short packet is stamped for the next line group. -/
  | frameStart (port : Fin 16) (vc : Fin 4)
  /-- FRAME_END (R338): A CSI-2 Frame End completes a short line-group record. -/
  | frameEnd (port : Fin 16) (vc : Fin 4)
  /-- LIDAR_FRAME (R339): A matching UDP lidar frame is stamped and converted into a point record. -/
  | lidarFrame (port : EthPort) (ipv6 : Bool) (udpPort : BitVec 16) (checks : Bool) (fragment : Bool) (payload : List Byte)
  /-- IMU_DATA_READY (R340): An IMU data-ready edge is stamped and starts the SPI read, or counts an overrun. -/
  | imuDataReady (port : Fin 2)
  /-- SPI_READ_DONE (R340): The IMU read completes and the converted sample record is written. -/
  | spiReadDone (port : Fin 2) (data : List Byte)
  /-- CAN_FD_FRAME (R341): A received hub CAN FD frame is matched, recorded and its signal passed to the integrator. -/
  | canFdFrame (port : CanPort) (id : BitVec 29) (ide : Bool) (dlc : Fin 16) (data : List Byte)
  /-- ING_ENABLE (R337): Setting EN reads and checks the stream table and starts the streams, or sets CFGERR. -/
  | ingEnable (mid : Mid) (value : Word)
  /-- ING_TAKE (R345): A write of ING_TAKE requests B records, delivered at once or left pending. -/
  | ingTake (mid : Mid) (r : Fin 64) (value : Word)
  /-- TAKE_FLUSH (R345): A pending take's FLUSH timer expires and it delivers the records available. -/
  | takeFlush (r : Fin 64)
  /-- RCONS_WRITE (R343): A write of ING_RCONS releases ring slots, or is refused outside RD to TK. -/
  | rconsWrite (mid : Mid) (r : Fin 64) (value : Word)
  /-- EGO_ENABLE (R348): Setting EGO_CTL EN zeroes the integrator state and starts it. -/
  | egoEnable (mid : Mid) (value : Word)
  /-- BIAS_APPLY (R352): The APPLY command starts reading the bias record. -/
  | biasApply (mid : Mid)
  /-- ALN_DOORBELL (R353): A write of ALN_DB advances the alignment job ring's accepted tail. -/
  | alnDoorbell (mid : Mid) (value : Word)
  /-- ALN_ENABLE (R359): Setting ALN_CTL EN reads the calibration table when the engine holds none. -/
  | alnEnable (mid : Mid) (value : Word)
  /-- ALN_RESUME (R357): RESUME restarts a halted alignment job ring. -/
  | alnResume (mid : Mid)
  /-- ALN_ABORT (R632): ABORT empties the alignment job ring after any job in execution. -/
  | alnAbort (mid : Mid)
  /-- TRJ_ENABLE (R397): Setting TRJ_CTL EN enables the trajectory engine and restarts SEQ at 1. -/
  | trjEnable (mid : Mid) (value : Word)
  /-- START (R374): The START command begins a planning cycle by reading the plan descriptor and tables. -/
  | start (mid : Mid)
  /-- TRJ_ABORT (R394): The ABORT command is treated as STOP at once. -/
  | trjAbort (mid : Mid)
  /-- DELTA_DOORBELL (R387): A write of TRJ_DDB advances the delta ring's accepted tail. -/
  | deltaDoorbell (mid : Mid) (value : Word)
  /-- SUMMARY (R407): A Cleat checks a SUMMARY against its own clock and the notice counts, and updates its time basis. -/
  | summary (c : Cleat2) (ct : Nat) (lseq : Word) (dt : Nat) (gates : BitVec 8) (counts : List Word)
  /-- NOTICE (R418): A Cleat reacts to a NOTICE frame by its KIND. -/
  | notice (c : Cleat2) (ct : Nat) (lseq : Word) (kind : BitVec 16) (unit : BitVec 16) (count : Word) (tstamp : Nat) (arg0 : Nat) (arg1 : Nat)
  /-- GRID_FRAME (R412): A Cleat checks a raw grid record and accepts or refuses it. -/
  | gridFrame (c : Cleat2) (ct : Nat) (lseq : Word) (bytes : List Byte)
  /-- RESULT_FRAME (R410): A Cleat checks a trajectory record and releases or refuses it. -/
  | resultFrame (c : Cleat2) (ct : Nat) (lseq : Word) (bytes : List Byte)
  /-- HB (R415): A Cleat notes a heartbeat frame of a task. -/
  | hb (c : Cleat2) (ct : Nat) (lseq : Word) (task : BitVec 8) (count : Word)
  /-- REQUEST (R417): A Cleat receives a certificate request entry. -/
  | request (c : Cleat2) (ct : Nat) (lseq : Word) (entry : List Byte)
  /-- CERT (R417): A Cleat checks streamed certificate bytes. -/
  | cert (c : Cleat2) (ct : Nat) (lseq : Word) (bytes : List Byte)
  /-- CERTEND (R417): A Cleat ends a certificate stream and writes its admission result. -/
  | certend (c : Cleat2) (ct : Nat) (lseq : Word) (tag : BitVec 16) (status : BitVec 8)
  /-- SPB (R573): A booting Cleat takes a frame of its boot stream and verifies the objects. -/
  | spb (c : Cleat2) (ct : Nat) (lseq : Word) (bytes : List Byte)
  /-- RELEASE (R392): The hub receives a Cleat's release for a trajectory record SEQ. -/
  | release (c : Cleat2) (seq : Word)
  /-- REFUSE (R409): The hub receives a Cleat's refusal of a trajectory record. -/
  | refuse (c : Cleat2) (seq : Word) (code : BitVec 8) (sample : BitVec 8)
  /-- STATUS (R431): The hub rewrites a Cleat's status mirror from a STATUS frame. -/
  | status (c : Cleat2) (image : List Byte)
  /-- VOTE (R426): The hub receives a Cleat's die or module vote or withdrawal. -/
  | vote (c : Cleat2) (scope : BitVec 8) (target : BitVec 8) (cast : BitVec 8) (code : BitVec 8)
  /-- EVENT (R553): The hub receives a Cleat's event-log entry for the steward. -/
  | event (c : Cleat2) (entry : List Byte)
  /-- RELAY (R427): The hub forwards a RELAY frame opaquely toward its destination Cleat. -/
  | relay (src : Fin 4) (dest : Fin 4) (msg : List Byte)
  /-- CLEAT_CAN_FRAME (R408): A Cleat checks a vehicle-state CAN FD frame and updates its pose track. -/
  | cleatCanFrame (c : Cleat2) (ct : Nat) (port : Fin 2) (ide : Bool) (id : BitVec 29) (data : List Byte)
  /-- ENGAGE (R420): An ENGAGE frame moves a READY Cleat to ENGAGED when the conditions hold. -/
  | engage (c : Cleat2) (ct : Nat) (port : Fin 2) (ide : Bool) (id : BitVec 29) (data : List Byte)
  /-- DISENGAGE (R420): A DISENGAGE frame moves an ENGAGED or STOPPING Cleat to READY. -/
  | disengage (c : Cleat2) (ct : Nat) (port : Fin 2) (ide : Bool) (id : BitVec 29) (data : List Byte)
  /-- VEHICLE_STATE_LOST (R408): A vehicle-state signal is missing beyond PERIOD + 5 ms and fault 0x32 is raised. -/
  | vehicleStateLost (c : Cleat2) (ct : Nat)
  /-- HUB_LINK_LOST (R406): No valid SUMMARY for 3 ms and fault 0x33 is raised. -/
  | hubLinkLost (c : Cleat2) (ct : Nat)
  /-- TASK_DUE (R415): A supervised task's due instant passes without its event and the task is in violation. -/
  | taskDue (c : Cleat2) (ct : Nat) (task : Fin 128)
  /-- STOP_RECORD_PUBLISH (R424): A Cleat publishes its stop record on its CAN FD and SGMII ports. -/
  | stopRecordPublish (c : Cleat2) (ct : Nat)
  /-- STANDSTILL (R420): Measured speed stays below 0.1 m/s for 1 s and a STOPPING Cleat returns to READY. -/
  | standstill (c : Cleat2) (ct : Nat)
  /-- GATE_CHANGE (R421): The hub's gate detector sees a Cleat's gate open or closed. -/
  | gateChange (c : Cleat2) (isOpen : Bool)
  /-- CLEAT_SAFE (R401): A lockstep, memory, clock, watchdog, supply or firmware fault puts the Cleat in SAFE. -/
  | cleatSafe (c : Cleat2) (ct : Nat) (lost : Bool)
  /-- CLEAT_THERMAL_TRIP (R401): The Cleat's comparator at 140 C removes its core power. -/
  | cleatThermalTrip (c : Cleat2) (ct : Nat)
  /-- CLEAT_COOLED (R401): A tripped Cleat cools below 125 C and its power returns. -/
  | cleatCooled (c : Cleat2) (ct : Nat)
  /-- CLEAT_RESET_PIN (R559): A Cleat's reset pin held low for 10 us resets it. -/
  | cleatResetPin (c : Cleat2) (ct : Nat)
  /-- CLEAT_SRAM_SCRUB (R400): The Cleat scrubs its SRAM words. -/
  | cleatSramScrub (c : Cleat2) (ct : Nat)
  /-- LATENT_TEST (R429): A Cleat outside ENGAGED and STOPPING runs its comparator fault-injection test. -/
  | latentTest (c : Cleat2) (ct : Nat) (pass : Bool)
  /-- LATENT_OVERDUE (R429): Ten hours pass without a passed test and the Cleat sets LATENT. -/
  | latentOverdue (c : Cleat2) (ct : Nat)
  /-- VOTE_WITHDRAW (R426): A Cleat sees no evidence against a die for 1 s and withdraws its vote. -/
  | voteWithdraw (c : Cleat2) (ct : Nat) (d : Die)
  /-- CLP_DOORBELL (R417): A write of CLP_DB advances the request ring's accepted tail. -/
  | clpDoorbell (mid : Mid) (value : Word)
  /-- CLP_HB (R432): A write of CLP_HB sends a heartbeat frame for a task to both Cleats. -/
  | clpHb (mid : Mid) (value : Word)
  /-- CLP_RESUME (R632): RESUME restarts a halted request ring. -/
  | clpResume (mid : Mid)
  /-- CLP_ABORT (R632): ABORT empties the request ring after any entry in execution. -/
  | clpAbort (mid : Mid)
  /-- HAWSER_LINK_UP (R470): A Hawser port trains and its SAK is installed. -/
  | hawserLinkUp (port : Fin 2)
  /-- HAWSER_LINK_DOWN (R470): A Hawser port's link drops or its retries are exhausted. -/
  | hawserLinkDown (port : Fin 2)
  /-- MIRROR_ENTRY (R475): A received mirror entry is reordered by sequence and written to an RX window. -/
  | mirrorEntry (port : Fin 2) (seq : Nat) (pa : Addr) (bytes : List Byte)
  /-- ROCE_ACK (R470): A RoCE acknowledgement releases sent packets. -/
  | roceAck (port : Fin 2) (psn : Nat)
  /-- ROCE_RETRANSMIT (R470): An acknowledgement timeout makes the port retransmit go-back-N. -/
  | roceRetransmit (port : Fin 2)
  /-- RDMA_WRITE (R494): An RDMA WRITE is translated and written. -/
  | rdmaWrite (port : Fin 2) (q : Fin 64) (va : Nat) (bytes : List Byte)
  /-- RDMA_WRITE_IMMEDIATE (R494): An RDMA WRITE with immediate is written and signals completion. -/
  | rdmaWriteImmediate (port : Fin 2) (q : Fin 64) (va : Nat) (bytes : List Byte) (imm : Word)
  /-- SEND (R494): A RoCE SEND is delivered to its queue pair. -/
  | send (port : Fin 2) (q : Fin 64) (va : Nat) (bytes : List Byte)
  /-- REARM (R477): The REARM command restarts mirror copying. -/
  | rearm (mid : Mid)
  /-- RESYNC (R477): The RESYNC command sends every enabled TX window through the mirror stream. -/
  | resync (mid : Mid)
  /-- HANDOVER (R492): The HANDOVER command sends HANDREQ with HWS_HKEY to all four Cleats. -/
  | handover (mid : Mid)
  /-- ASIDE (R492): The ASIDE command sends ASIDEREQ to the module's own Cleats. -/
  | aside (mid : Mid)
  /-- DIGEST_DOORBELL (R485): A write of HWS_DDB advances the digest ring's accepted tail. -/
  | digestDoorbell (mid : Mid) (value : Word)
  /-- DRESUME (R632): DRESUME restarts a halted digest ring. -/
  | dresume (mid : Mid)
  /-- DABORT (R632): DABORT empties the digest ring after any job in execution. -/
  | dabort (mid : Mid)
  /-- VIN_SAMPLE (R500): Every 10 us the input voltage is measured and classified. -/
  | vinSample (vin : Nat) (vhold : Nat) (pin : Nat)
  /-- PBA_ON (R506): An ON request asks the PBA to power a domain. -/
  | pbaOn (mid : Mid) (dom : BitVec 7)
  /-- PBA_OFF (R506): An OFF request asks the PBA to remove a domain's power. -/
  | pbaOff (mid : Mid) (dom : BitVec 7)
  /-- PBA_GRANT (R508): A GRANT request sets a compute domain's grant. -/
  | pbaGrant (mid : Mid) (dom : BitVec 7) (tokens : BitVec 13)
  /-- PBA_BIST (R513): A BIST request asks for a grant of 1.5 x PMAX for a test. -/
  | pbaBist (mid : Mid) (dom : BitVec 7)
  /-- PBA_BISTEND (R513): BISTEND releases a BIST grant. -/
  | pbaBistend (mid : Mid) (dom : BitVec 7)
  /-- SHED (R523): The SHED command enters the survival envelope. -/
  | shed (mid : Mid)
  /-- UNSHED (R524): The UNSHED command clears the SHED cause of the survival envelope. -/
  | unshed (mid : Mid)
  /-- BUDGET_WRITE (R507): A write of BUDGET changes the power budget under the ramp limits. -/
  | budgetWrite (mid : Mid) (value : Word)
  /-- PBA_TICK (R510): At each 1 ms tick the PBA enforces grants and updates the thermal model and coolant estimates. -/
  | pbaTick (energies : List Nat) (sensors : List (List Int)) (tin : Int) (tout : Int)
  /-- DOMAIN_POWERED (R504): A domain completes its power-on. -/
  | domainPowered (d : Fin 74)
  /-- DOMAIN_OFF (R505): A domain completes its power-off and its grant is released. -/
  | domainOff (d : Fin 74)
  /-- HARD_TRIP (R518): A die's hard-trip comparator opens its power switches and latches the trip. -/
  | hardTrip (x : Fin 9)
  /-- RATE_WINDOW (R142): A 10 us rate-monitor window ends, RATE is published and the governor adjusts the rail. -/
  | rateWindow (u : Fin 8) (count : Nat)
  /-- CAP_MEASURE (R525): The hold-up capacitance is measured by a timed charge step. -/
  | capMeasure (cap : BitVec 16)
  /-- TEST_START (R538): The START command of the test controller begins a test on a unit. -/
  | testStart (mid : Mid) (test : Fin 16) (unit : BitVec 12)
  /-- TEST_ABORT (R543): The ABORT command ends a test with VERDICT 3. -/
  | testAbort (mid : Mid)
  /-- TEST_DONE (R536): A test ends and writes its result record. -/
  | testDone (finds : List (Nat × Nat)) (expect : Word) (observed : Word)
  /-- FIELD_TEST_DUE (R540): A field test's interval elapses and it is scheduled or reported overdue. -/
  | fieldTestDue (test : Fin 8) (unit : Fin 64)
  /-- WEAR_SAMPLE (R549): Every second the steward adds temperature and cycle wear to each die's accumulators. -/
  | wearSample (bumps : List (BitVec 16))
  /-- LOG_READ (R556): A log read request makes the steward copy entries to a buffer. -/
  | logRead (seq : Word) (count : BitVec 13) (buffer : Addr)
  /-- RST_WARM (R559): The RST_CMD WARM command triggers a warm reset. -/
  | rstWarm (mid : Mid)
  /-- RST_MODULE (R559): The RST_CMD MODULE command triggers a module reset. -/
  | rstModule (mid : Mid)
  /-- RST_CLUSTER (R559): The RST_CMD CLUSTER command resets one core cluster. -/
  | rstCluster (mid : Mid) (k : Fin 4)
  /-- RST_DIE (R559): The RST_CMD DIE command resets one compute die. -/
  | rstDie (mid : Mid) (d : Die)
  /-- BOOT_STREAM (R573): The steward sends the boot stream to a Cleat reporting STATE 0. -/
  | bootStream (c : Cleat2)
  /-- STAGE (R575): The STAGE command verifies an object and writes it to the non-running copy. -/
  | stage (mid : Mid)
  /-- ACTIVATE (R575): The ACTIVATE command marks staged copies for the next activation reset. -/
  | activate (mid : Mid)
  /-- COMMIT (R575): The COMMIT command clears TRIAL and advances anti-rollback counters. -/
  | commit (mid : Mid)
  /-- REVERT (R575): The REVERT command flips PREF back for every TYPE in TRIAL. -/
  | revert (mid : Mid)
  /-- LIFECYCLE_TOKEN (R578): A valid lifecycle token advances the lifecycle state in OTP. -/
  | lifecycleToken (bytes : List Byte) (n : Fin 33)
  /-- DBGAUTH (R583): A debug authentication response is verified and opens a session or fails. -/
  | dbgauth (level : Fin 4) (response : List Byte)
  /-- HALT_REQUEST (R586): A debug halt request halts a hart or the steward, deferred past an outstanding hitch. -/
  | haltRequest (target : Fin 25) (hitch : Nat)
  /-- RESUME_REQUEST (R586): A debug resume request resumes a target or cancels a deferred halt. -/
  | resumeRequest (target : Fin 25)
  /-- MBX_STAG (R448): A write of MBX_STAG posts the staged message or is held at a full channel. -/
  | mbxStag (mid : Mid) (ch : Chan) (tag : Word)
  /-- MBX_RPOP (R448): A write of MBX_RPOP takes the head message and may send the sender notice. -/
  | mbxRpop (mid : Mid) (ch : Chan) (value : Word)
  /-- SETEIPNUM (R454): A write of seteipnum sets an interrupt identity pending in a file. -/
  | seteipnum (mid : Mid) (slevel : Bool) (h : Hart) (value : Word)
  /-- CLAIM (R461): A write of mtopei or stopei claims the top pending interrupt. -/
  | claim (h : Hart) (slevel : Bool) (threshold : BitVec 8) (enabled : List (BitVec 8))
  /-- GENMSI (R453): A genmsi write makes the APLIC send an MSI. -/
  | genmsi (mid : Mid) (slevel : Bool) (value : Word)
  /-- SOURCECFG_WRITE (R461): A write of sourcecfg sets a source's mode and re-evaluates its level. -/
  | sourcecfgWrite (mid : Mid) (slevel : Bool) (source : BitVec 8) (value : Word)
  /-- MACHINE_TIMER (R436): Device time reaches a hart's MTIMECMP and the machine timer is raised. -/
  | machineTimer (h : Hart)
  /-- MSI_CAPTURE (R459): An inbound PCIe interrupt write is captured into a hart's S-level file. -/
  | msiCapture (q : Fin 2) (mid : BitVec 8) (ctx : BitVec 16) (bus : Nat) (data : Word)
  /-- INTERRUPT_TAKEN (R462): A hart enters its trap handler for an enabled pending interrupt. -/
  | interruptTaken (h : Hart) (slevel : Bool) (timer : Bool) (masked : Bool) (deliver : Bool) (threshold : BitVec 8) (enabled : List (BitVec 8))
  /-- CAN_DOORBELL (R606): A write of CAN_DB advances a CAN port's accepted tail. -/
  | canDoorbell (mid : Mid) (c : CanPort) (value : Word)
  /-- CAN_LAUNCH (R606): A fetched CAN entry reaches LAUNCH and its frame starts. -/
  | canLaunch (c : CanPort)
  /-- CAN_RESUME (R606): RESUME refetches a halted CAN port's entry at HEAD. -/
  | canResume (mid : Mid) (c : CanPort)
  /-- CAN_ABORT (R606): ABORT marks every pending CAN entry aborted and empties the ring. -/
  | canAbort (mid : Mid) (c : CanPort)
  /-- CLEAT_POWER_UP (R559): A Cleat's own supply returns and the Cleat boots into BOOT. -/
  | cleatPowerUp (c : Cleat2) (ct : Nat)
  /-- SERIAL_FRAME_DISCARDED (R403): A frame on a Cleat serial port with a bad CRC, unknown TYPE, wrong LEN or an LSEQ gap is discarded and counted as a link fault. -/
  | serialFrameDiscarded (toHub : Bool) (c : Cleat2) (ct : Nat)
  /-- HART_MEMORY_ACCESS (R437): A hart's load, store, AMO or cache-block operation is performed, trapping on poison or on a forbidden region. -/
  | hartMemoryAccess (h : Hart) (op : HartOp) (va : BitVec 64) (pa : Addr)
  /-- LOW_WORD_READ (R629): A read of the low word of a 64-bit pair latches the high word for the reader, and a narrow or misaligned read sets ACCERR. -/
  | lowWordRead (mid : Mid) (a : Addr) (size : Fin 9)
  /-- DEBUG_READ (R585): A debug-attributed read returns a live value without side effect, setting NOPEEK or POISON where R585 says. -/
  | debugRead (a : Addr) (size : Fin 9)
  /-- SUPERVISOR_TIMER (R436): Device time reaches a hart's stimecmp and the supervisor timer interrupt is raised. -/
  | supervisorTimer (h : Hart) (cmp : BitVec 64)
  /-- MACSEC_DISCARD (R470): A Hawser frame that fails MACsec verification is discarded and counted in MACDROP. -/
  | macsecDiscard (port : Fin 2)
  /-- LINK_TRAINED (R305): A module finishes training or retraining, sets its width and joins its bundle. -/
  | linkTrained (e : Fin 5) (k : Fin 18) (margins : List (BitVec 6)) (far : List (BitVec 6))
  /-- EYE_MEASUREMENT (R306): A 100 us eye-margin measurement of the lanes completes. -/
  | eyeMeasurement (e : Fin 5) (k : Fin 18) (margins : List (BitVec 6))
  /-- LANE_LOCK_LOSS (R306): A lane loses lock and becomes marginal at once. -/
  | laneLockLoss (e : Fin 5) (k : Fin 18) (lane : Fin 18)
  /-- LINK_DRAINED (R307): Every entry sent on a draining module is acknowledged and retraining starts. -/
  | linkDrained (e : Fin 5) (k : Fin 18)
  /-- RD (R301): A read request entry is received and served at its target. -/
  | rd (e : Fin 5) (k : Fin 18) (entry : BitVec 128)
  /-- WR (R301): A write entry with its data flits is received and applied at its target. -/
  | wr (e : Fin 5) (k : Fin 18) (entry : BitVec 128) (flits : List Byte)
  /-- WRM (R301): A masked write entry with data and mask flits is received and applied. -/
  | wrm (e : Fin 5) (k : Fin 18) (entry : BitVec 128) (flits : List Byte)
  /-- ATOM (R440): A far atomic entry is performed read-modify-write at its target and the old value returned. -/
  | atom (e : Fin 5) (k : Fin 18) (entry : BitVec 128) (flits : List Byte)
  /-- RSP (R301): A read or atomic response entry is received by its requester. -/
  | rsp (e : Fin 5) (k : Fin 18) (entry : BitVec 128) (flits : List Byte)
  /-- ACK (R301): A write completion entry with its status is received by its requester. -/
  | ack (e : Fin 5) (k : Fin 18) (entry : BitVec 128)
  /-- LCTL_ACK (R303): A cumulative link acknowledgement releases the sender's replay buffer. -/
  | lctlAck (e : Fin 5) (k : Fin 18) (entry : BitVec 128)
  /-- NAK (R303): A link NAK makes the sender replay from the named entry. -/
  | nak (e : Fin 5) (k : Fin 18) (entry : BitVec 128)
  /-- CREDIT (R302): A CREDIT entry returns freed receive slots to the sender. -/
  | credit (e : Fin 5) (k : Fin 18) (entry : BitVec 128)
  /-- LCTL_SYNC (R299): A SYNC entry sets the free slots per VC at link start or after replay. -/
  | lctlSync (e : Fin 5) (k : Fin 18) (entry : BitVec 128)
  /-- BUNDLE (R298): A BUNDLE entry announces a rotation epoch and new module weights. -/
  | bundle (e : Fin 5) (k : Fin 18) (entry : BitVec 128)
  /-- DIGEST_RECORD (R486): A Cleat takes a digest record, matches it and opens or advances a dispute. -/
  | digestRecord (c : Cleat2) (ct : Nat) (lseq : Word) (bytes : List Byte)
  /-- HANDREQ (R492): A Cleat answers a handover request with HANDACK or HANDNAK. -/
  | handreq (c : Cleat2) (ct : Nat) (lseq : Word) (key : Word)
  /-- ASIDEREQ (R492): A Cleat stands aside on request when its view allows. -/
  | asidereq (c : Cleat2) (ct : Nat) (lseq : Word)
  /-- PARTNER_RECORD (R480): A Cleat takes the partner's trajectory record for checking and comparison. -/
  | partnerRecord (c : Cleat2) (ct : Nat) (lseq : Word) (bytes : List Byte)
  /-- RELAYED_VOTE (R427): A Cleat counts a relayed module vote and enters EXPELLED on three against its module. -/
  | relayedVote (c : Cleat2) (ct : Nat) (lseq : Word) (msg : List Byte)
  /-- TIMEREQ (R482): A Cleat answers a pair-time request with its timestamps. -/
  | timereq (c : Cleat2) (ct : Nat) (lseq : Word) (msg : List Byte)
  /-- TIMERSP (R482): A Cleat accepts a pair-time reply and bounds the partner offset. -/
  | timersp (c : Cleat2) (ct : Nat) (lseq : Word) (msg : List Byte)
  /-- STATE (R481): A Cleat takes a partner Cleat's STATE message. -/
  | state (c : Cleat2) (ct : Nat) (lseq : Word) (msg : List Byte)
  /-- HANDACK (R492): A Cleat counts a handover acknowledgement and swaps its view on four. -/
  | handack (c : Cleat2) (ct : Nat) (lseq : Word) (msg : List Byte)
  /-- HANDNAK (R492): A Cleat drops a handover request on a refusal. -/
  | handnak (c : Cleat2) (ct : Nat) (lseq : Word) (msg : List Byte)
  /-- TIME_EXCHANGE (R482): Every 10 ms a Cleat sends TIMEREQ to its partner Cleat. -/
  | timeExchange (c : Cleat2) (ct : Nat)
  /-- STATE_SEND (R481): A Cleat sends its STATE message every 10 ms. -/
  | stateSend (c : Cleat2) (ct : Nat)
  /-- PAIR_TIME_STALE (R482): No pair-time exchange is accepted for 100 ms and a follower raises fault 0x50. -/
  | pairTimeStale (c : Cleat2) (ct : Nat)
  /-- PARTNER_SILENT (R487): Relays from the partner stop for the set time and the partner is judged cut off or not driving. -/
  | partnerSilent (c : Cleat2) (ct : Nat)
  /-- DISPUTE_CLOSE (R486): A dispute's 200 ms ends and it resolves against a die or stays unresolved. -/
  | disputeClose (c : Cleat2) (ct : Nat)
  /-- RECORD_UNMATCHED (R484): A record finds no counterpart within AGES of its TOLD. -/
  | recordUnmatched (c : Cleat2) (ct : Nat)
  /-- HANDOVER_TIMEOUT (R492): A handover lacks four HANDACKs after 100 ms and is dropped. -/
  | handoverTimeout (c : Cleat2) (ct : Nat)
  /-- CAN_FRAME_SENT (R606): A CAN frame completes and its status and stamp are written. -/
  | canFrameSent (c : CanPort) (lost : BitVec 16) (stamp : Nat)
  /-- BUS_OFF (R606): A CAN port enters bus-off and halts. -/
  | busOff (c : CanPort)
  /-- CRC_FAILURE (R303): A link receiver takes an entry with a bad CRC, a reserved TYPE or a sequence gap, sends NAK, discards until SYNC and charges retries to lanes. -/
  | crcFailure (e : Fin 5) (k : Fin 18) (entry : BitVec 128) (flits : List Byte) (lanes : List (Fin 18)) (unmatched : Bool)
  /-- ETH_LINK_CHANGE (R639): A 10GBASE-KR port's link goes up or down and LINKCHG sets. -/
  | ethLinkChange (port : EthPort) (up : Bool)
  /-- ETH_FRAME_DROP (R639): A received Ethernet frame fails its FCS or matches no stream and is dropped and counted. -/
  | ethFrameDrop (port : EthPort) (fcs : Bool)
  /-- PCIE_LINK_CHANGE (R602): A PCIe root port's link trains, changes width or goes down, or reports an AER error, raising source 49 or 50. -/
  | pcieLinkChange (q : Fin 2) (width : Fin 5) (aer : Bool)
  /-- PCIE_INBOUND_REQUEST (R251): An inbound PCIe memory request that is not captured as an interrupt is translated by HD_XLT and served or faulted. -/
  | pcieInboundRequest (q : Fin 2) (mid : BitVec 8) (ctx : BitVec 16) (bus : Nat) (n : BitVec 12) (data : Option (List Byte))
  /-- PERST_RELEASE (R603): PERST_N of a root port is released 100 ms after its REFCLK is stable. -/
  | perstRelease (q : Fin 2) (stable : Nat)
  /-- SYNC_TIMEOUT (R335): No valid Sync has arrived for SYNCTO ms, so LOCKED clears and holdover begins. -/
  | syncTimeout
  /-- SCRATCH_CONV_DONE (R247): The write-back of ways for a scratch change ends, SCRACT takes the new value and CONVDONE sets. -/
  | scratchConvDone
  /-- RETIRE_DONE (R286): The repair-map write of RETIRE completes, RMAP updates, MDONE sets and the next pending migration starts. -/
  | retireDone
  /-- REGULATOR_RECOMPUTE (R319): After a weight, state or configuration change the engine recomputes every effective guarantee. -/
  | regulatorRecompute
  /-- EGO_TICK (R347): The ego-motion integrator runs tick k 2 ms after t_k and produces a pose. -/
  | egoTick
  /-- BIAS_RECORD_READ (R352): The bias record read completes and is applied from the next tick, or rejected with BIASERR. -/
  | biasRecordRead
  /-- POINTS (R356): A POINTS job aligns lidar points to the common instant and writes them. -/
  | points
  /-- CAMXF (R356): A CAMXF job writes the transform for each camera line group. -/
  | camxf
  /-- GRID (R362): A GRID job builds the raw occupancy grid, writes it and sends it to both Cleats. -/
  | grid
  /-- CALSET (R360): A CALSET job sets a sensor's calibration target after clamping it. -/
  | calset
  /-- CAL_STEP (R360): Every 1 ms the applied calibration moves one step toward the target. -/
  | calStep
  /-- PLAN_LOAD_DONE (R374): The load phase completes and the distance field computation begins. -/
  | planLoadDone
  /-- DISTANCE_FIELD_DONE (R380): The distance field completes and waves may start. -/
  | distanceFieldDone
  /-- WAVE_END (R386): A wave or repair wave ends and its candidates become completed. -/
  | waveEnd
  /-- DELTA_APPLY_DONE (R388): A delta batch's field recomputation ends and the affected candidates become dirty. -/
  | deltaApplyDone
  /-- TRJ_STOP (R389): The STOP instant arrives, any running wave is abandoned and reduction starts. -/
  | trjStop
  /-- REDUCTION_DONE (R385): The reduction selects the best candidate. -/
  | reductionDone
  /-- EGRESS_SEND (R392): A queued record with both releases and both gates open is sent on EPORT. -/
  | egressSend
  /-- RELEASE_TIMEOUT (R392): A queued record stays unsent for RELTO and is discarded. -/
  | releaseTimeout
  /-- SUMMARY_SEND (R405): Every 1 ms the hub sends a SUMMARY frame to each Cleat. -/
  | summarySend
  /-- ADMIT (R417): An ADMIT entry is sent to both Cleats with its certificate. -/
  | admitTask
  /-- REVOKE (R417): A REVOKE entry is sent to both Cleats. -/
  | revoke
  /-- MIRROR_ENTRY_SEND (R476): A mirror entry is moved from the queue to a port under MIRCAP. -/
  | mirrorEntrySend
  /-- DIGEST_JOB (R485): The digest unit hashes a job's regions and writes and sends its digest record. -/
  | digestJob
  /-- SURVIVAL_MODE_ENTRY (R500): The input stays below 16.0 V for 1 ms and survival mode begins. -/
  | survivalModeEntry
  /-- SURVIVAL_MODE_EXIT (R500): The input stays at or above 17.0 V for 100 ms and survival mode ends. -/
  | survivalModeExit
  /-- HOLDUP_SURVIVAL (R526): A dropout lasts 2 ms and the survival envelope is entered. -/
  | holdupSurvival
  /-- SHUTDOWN (R528): E_avail reaches 3 J, the shutdown record is written and the module powers down. -/
  | shutdown
  /-- REQUEST_COMPLETE (R513): A pending power request fits and completes with DONE. -/
  | requestComplete
  /-- SURVIVAL_EXIT (R524): Every cause of the survival envelope has cleared and the budget is restored. -/
  | survivalExit
  /-- FLOOR_CUT (R509): 100 ms after FLOORREQ held dies are powered off until floor grants fit. -/
  | floorCut
  /-- MRAM_BATCH (R527): An MRAM write batch starts if the energy check passes, or completes deferred. -/
  | mramBatch
  /-- MRAM_BATCH_DONE (R527): A started MRAM batch completes. -/
  | mramBatchDone
  /-- LEASE_GRANT (R539): The steward receives a lease GRANT, checks the unit and runs the test. -/
  | leaseGrant
  /-- LEASE_DENY (R539): The steward receives a lease DENY. -/
  | leaseDeny
  /-- LEASE_REVOKE (R539): A lease REVOKE aborts the test and the unit is restored. -/
  | leaseRevoke
  /-- LOG_FLUSH (R555): The event buffer reaches 128 entries or 1 s and is written to the log ring. -/
  | logFlush
  /-- SOFTWARE_LOG_ENTRY (R555): A software event entry posted on the mailbox is accepted or dropped. -/
  | softwareLogEntry
  /-- HEALTH_REPORT (R556): Every second the steward sends the health report on HPORT. -/
  | healthReport
  /-- POWER_ON_RESET (R559): VAON rises after its absence and everything but the Cleats is reset. -/
  | powerOnReset
  /-- MOD_RST_N (R559): MOD_RST_N held low triggers a module reset. -/
  | modRstN
  /-- STEWARD_WATCHDOG (R559): The steward's 100 ms watchdog expires and triggers a module reset. -/
  | stewardWatchdog
  /-- RESET_RELEASE (R560): Reset is released 10 us after assertion and the logic restarts. -/
  | resetRelease
  /-- STAGE_DONE (R575): Staging completes and the boot control record names the trial copy. -/
  | stageDone
  /-- SESSION_EXPIRE (R583): A debug session ends 4 h after opening. -/
  | sessionExpire
  /-- LOCKOUT_END (R583): The 60 s DBGAUTH lockout ends. -/
  | lockoutEnd
  /-- PUBLICATION_COMPLETE (R389): The result record's memory write and Cleat transfers end, turning a faulted write into a FAULT record, and the engine returns to IDLE. -/
  | publicationComplete
  /-- SESSION_CLOSE (R583): An explicit close ends a debug session and returns the port to level 0. -/
  | sessionClose
  deriving DecidableEq, Repr

end Sys2Proof
end

