-- ==== Sys2Proof/Machine/Bits.lean ====
section
/-! DEFINITION.  Bit fields, byte order and sign extension: the helpers every meaning shares. -/

namespace Sys2Proof.Machine

/-- Bits `hi:lo` of `w`. -/
def bits (w hi lo : Nat) : Nat := (w >>> lo) % 2 ^ (hi + 1 - lo)

/-- Bit `i` of `w`. -/
def bit (w i : Nat) : Bool := w.testBit i

/-- `w` with bits `hi:lo` replaced by the low bits of `v`. -/
def putBits (w hi lo v : Nat) : Nat :=
  w - (bits w hi lo) <<< lo + (v % 2 ^ (hi + 1 - lo)) <<< lo

/-- The two's complement value of the `n`-bit code `w`. -/
def sint (n w : Nat) : Int :=
  let u := w % 2 ^ n
  if u < 2 ^ (n - 1) then (u : Int) else (u : Int) - 2 ^ n

/-- The `n`-bit two's complement code of `v`. -/
def scode (n : Nat) (v : Int) : Nat := (v % 2 ^ n).toNat

/-- `v` brought into the range `lo` to `hi`. -/
def clampI (lo hi v : Int) : Int := if v < lo then lo else if hi < v then hi else v

/-- The unsigned value of bytes in little-endian order. -/
def leNat : List Byte → Nat
  | [] => 0
  | b :: bs => b.toNat + 256 * leNat bs

/-- The `n` bytes of `v` in little-endian order. -/
def leBytes : Nat → Nat → List Byte
  | 0, _ => []
  | n + 1, v => BitVec.ofNat 8 v :: leBytes n (v / 256)

/-- A little-endian field of a byte list. -/
def fld (bs : List Byte) (o n : Nat) : Nat := leNat ((bs.drop o).take n)
/-- A big-endian field. -/
def fldBE (bs : List Byte) (o n : Nat) : Nat := leNat ((bs.drop o).take n).reverse

/-- `v` rounded up to a multiple of `k`. -/
def alignUp (v k : Nat) : Nat := (v + k - 1) / k * k

/-- Quotient rounded up. -/
def ceilDiv (v k : Nat) : Nat := (v + k - 1) / k

/-- Saturating addition on an `n`-bit counter. -/
def satAdd (n v k : Nat) : Nat := min (v + k) (2 ^ n - 1)

/-- The number of set bits among the low `n` bits of `w`. -/
def popcount (n w : Nat) : Nat := ((List.range n).filter (fun i => w.testBit i)).length

/-- Division rounded to nearest, ties to even (R38), for a signed numerator. -/
def rneDiv (a : Int) (b : Nat) : Int :=
  let q := a / (b : Int)
  let r := a % (b : Int)
  if 2 * r < b then q
  else if (b : Int) < 2 * r then q + 1
  else if q % 2 = 0 then q else q + 1

/-- A bounded integer square root, bit by bit from `2 ^ k` down. -/
def isqrtAux (n : Nat) : Nat → Nat → Nat
  | 0, acc => acc
  | k + 1, acc =>
    let t := acc + 2 ^ k
    if t * t ≤ n then isqrtAux n k t else isqrtAux n k acc

/-- The integer part of the square root of `n`. -/
def isqrt (n : Nat) : Nat := isqrtAux n (n.log2 / 2 + 1) 0

end Sys2Proof.Machine
end

