-- ==== Sys2Proof/Machine/Crc.lean ====
section
/-! DEFINITION.  Cyclic redundancy checks, bit by bit, as the rules that use them name their polynomial,
initial value and reflection. -/

namespace Sys2Proof.Machine

/-- One bit of a reflected CRC. -/
def crcStepR (poly : Nat) (c : Nat) : Nat := if c % 2 = 1 then (c / 2) ^^^ poly else c / 2

/-- One byte of a reflected CRC. -/
def crcByteR (poly c : Nat) (b : Byte) : Nat :=
  (List.range 8).foldl (fun c _ => crcStepR poly c) (c ^^^ b.toNat)

/-- CRC-32C (Castagnoli): reflected polynomial 0x82F63B78, initial value and final complement all
ones. -/
def crc32c (bs : List Byte) : Nat := (bs.foldl (crcByteR 0x82F63B78) 0xFFFFFFFF) ^^^ 0xFFFFFFFF

/-- One byte of a CRC of width `w`, most significant bit first. -/
def crcByteL (w poly c : Nat) (b : Byte) : Nat :=
  (List.range 8).foldl (fun c _ =>
    if c.testBit (w - 1) then ((c * 2) % 2 ^ w) ^^^ poly else (c * 2) % 2 ^ w) (c ^^^ (b.toNat <<< (w - 8)))

/-- A CRC of width `w`, most significant bit first. -/
def crcL (w poly init : Nat) (bs : List Byte) : Nat := bs.foldl (crcByteL w poly) init

end Sys2Proof.Machine
end

