-- ==== Sys2Proof/Config.lean ====
section
/-! DEFINITION.  What the spec leaves open: opaque values that nothing in Lean can evaluate.  Each is
named in the assumption log.  A value that may differ at every use is applied to the counter
`State.free`, which the step reads and advances. -/

namespace Sys2Proof

/-- A fresh open value: the `k`-th draw, below `2 ^ w`. -/
opaque Config.freeNat (k w : Nat) : Nat

/-- A fresh open choice among `n` alternatives (a knot element's grant, R149). -/
opaque Config.freePick (k n : Nat) : Nat

/-- Handshake steps that a tile step has consumed when row group `g` faults (R88): the descriptor's
words and the group decide it, but the spec gives no count. -/
opaque Config.faultSteps (words : List Nat) (g : Nat) : Nat

/-- What manufacture fused into die `i` (compute dies 0 to 3, base tiles 4 to 7, the hub 8, the guest site 9: its whole word, the Cleats 10 and 11):
bits 15:0 of its identity word (R562, R636). -/
opaque Config.fusedId (i : Nat) : Nat

/-- The master identity of DMA channel `c`, of the hub engines' range (R19 gives the range alone). -/
opaque Config.dmaMid (c : Nat) : Nat

/-- The filtered OFFSET of up to eight differences, newest first (R335 names no filter). -/
opaque Config.offsetFilter (hist : List Int) : Int

/-- The rate adjustment after up to eight differences, newest first, in ppb before its limits (R9). -/
opaque Config.rateAdjust (hist : List Int) : Int

/-- Field `i` of a trajectory record without a candidate: T0 to T7, PATH, PROF (R390 gives no value). -/
opaque Config.noCand (i : Nat) : Nat

/-- PMAX of the guest site, in tokens of 100 mW (R504: per customer agreement). -/
opaque Config.guestPmax : Nat

/-- The module identity strap: MODID is its lowest bit (R471). -/
opaque Config.modid : Nat

/-- The device context bound to queue pair `q` (R472 names no register that binds it). -/
opaque Config.qpCtx (q : Nat) : Nat

/-- Both signatures of an object or a response verify with key `k` over these bytes: 1 if they do (R564; ECDSA P-384 and ML-DSA-65
stand outside the spec). -/
opaque Config.sigValid (k : Nat) (bytes sig : List Nat) : Nat

/-- Where copy `c` of TYPE `t` begins in its NOR device (R567 gives no address). -/
opaque Config.norOffset (t c : Nat) : Nat

/-- The lowest SPB SVN that a Cleat image accepts (R566 gives no place in the payload). -/
opaque Config.spbFloor (image : List Nat) : Nat

/-- Where a core boot object is copied to, in LPDDR5X (R570 gives no place in the payload). -/
opaque Config.loadAddr (payload : List Nat) : Nat

/-- A byte that a PCIe device returns at this address, at this draw (R623). -/
opaque Config.pcieByte (k pa : Nat) : Nat

/-- The word of root port `q`'s own configuration space at offset `o` at reset (R623: the PCIe base specification's layout). -/
opaque Config.pcieCfg (q o : Nat) : Nat

/-- What OTP holds for ID_MODULE (field 0) and ID_SERIAL (fields 1 and 2, low and high word) (R634). -/
opaque Config.otpId (i : Nat) : Nat

/-- Whether the seal of these bytes is genuine (R579): bit 0 (log entry 5). -/
opaque Config.sealOk (bytes : List Nat) : Nat

/-- What a lifecycle token's payload names (R565, R578 give no place in it): a state 1 to 3, or key `k` as `8 + k`. -/
opaque Config.tokenNames (payload : List Nat) : Nat

/-- The integrator keys that a token's payload carries, one bit each (R578). -/
opaque Config.tokenKeys (payload : List Nat) : Nat

end Sys2Proof
end

