-- ==== Sys2Proof/Machine/RegMap.lean ====
section
/-! DEFINITION.  The register map: every register of the spec's register tables (file 20, R624 and
R625, and the table each block's own file gives), with its offset, its fields, their access class and
their reset value.  Names are the spec's own; a register of a block that several units carry (RTM, XLT,
LNK, REG) takes the block's base address.  Bits that no field names are reserved (R15). -/

namespace Sys2Proof.Machine

/-- Access classes of R17. -/
inductive Acc where
  | ro | rw | wo | w1c | rwh | cnt | lck
  deriving DecidableEq, Repr

/-- One field of a register: bits `hi:lo`, class, reset value. -/
structure Fld where
  hi : Nat
  lo : Nat
  acc : Acc
  reset : Nat
  deriving DecidableEq, Repr

/-- One row of a block's offset table: `count` registers `stride` bytes apart, from `off`. -/
structure RegRow where
  off : Nat
  count : Nat
  stride : Nat
  flds : List Fld
  deriving DecidableEq, Repr

/-- A field of one register: the register's address and the bits `hi:lo`. -/
structure FRef where
  addr : Nat
  hi : Nat
  lo : Nat
  deriving DecidableEq, Repr

/-- Configuration base of the hub (R22). -/
def hdBase : Nat := 0x006000000000
/-- Configuration base of compute die `d` (R22). -/
def cdBase (d : Nat) : Nat := 0x006010000000 + d * 0x02000000
/-- Configuration base of base tile `n` (R22, R625). -/
def btBase (n : Nat) : Nat := cdBase n + 0x01000000
/-- Status mirror of Cleat A (0) or B (1) (R431). -/
def mirBase (c : Nat) : Nat := 0x006020000000 + c * 0x01000000

/-- Rate monitor block of compute die `d`, and of base tile `n` (R159). -/
def cdRtm (d : Nat) : Nat := cdBase d + 0x50000
def btRtm (n : Nat) : Nat := btBase n + 0x50000
/-- Translation unit `u`: compute dies 0 to 3, the hub 4 (R260). -/
def xltBase (u : Nat) : Nat := if u < 4 then cdBase u + 0x80000 else hdBase + 0x50000
/-- Link blocks (R327). -/
def btLnk (n : Nat) : Nat := btBase n + 0x30000
def hdLnk : Nat := hdBase + 0x80000
/-- Regulator blocks: CD_REG of die `d`, HD_REG, and the ports of controller `m` (R327). -/
def cdReg (d : Nat) : Nat := cdBase d + 0x90000
def hdReg : Nat := hdBase + 0x90000
def mcReg (m : Nat) : Nat := hdBase + 0x100000 + m * 0x1000


/-! Block CD_BRD. -/

/-- R94. -/
def CD_BRD_QCTL (d : Nat) : Nat := cdBase d + 0x20000
def CD_BRD_QCTL_QOFF (d : Nat) : FRef := ⟨CD_BRD_QCTL d, 7, 4⟩
def CD_BRD_QCTL_QFENCE (d : Nat) : FRef := ⟨CD_BRD_QCTL d, 3, 0⟩
/-- R95. -/
def CD_BRD_QSTAT (d : Nat) : Nat := cdBase d + 0x20000 + 4
def CD_BRD_QSTAT_ACCERR (d : Nat) : FRef := ⟨CD_BRD_QSTAT d, 17, 17⟩
def CD_BRD_QSTAT_SWLOST (d : Nat) : FRef := ⟨CD_BRD_QSTAT d, 16, 16⟩
def CD_BRD_QSTAT_QERR (d : Nat) : FRef := ⟨CD_BRD_QSTAT d, 15, 12⟩
def CD_BRD_QSTAT_SHAPE (d : Nat) : FRef := ⟨CD_BRD_QSTAT d, 9, 8⟩
def CD_BRD_QSTAT_QACT (d : Nat) : FRef := ⟨CD_BRD_QSTAT d, 7, 4⟩
def CD_BRD_QSTAT_BUSY (d : Nat) : FRef := ⟨CD_BRD_QSTAT d, 1, 1⟩
def CD_BRD_QSTAT_AVAIL (d : Nat) : FRef := ⟨CD_BRD_QSTAT d, 0, 0⟩
/-- R96. -/
def CD_BRD_FLT (d : Nat) : Nat := cdBase d + 0x20000 + 8
def CD_BRD_FLT_FCTX (d : Nat) : FRef := ⟨CD_BRD_FLT d, 10, 8⟩
def CD_BRD_FLT_FCODE (d : Nat) : FRef := ⟨CD_BRD_FLT d, 7, 0⟩
/-- R97. -/
def CD_BRD_QERRCNT (d : Nat) : Nat := cdBase d + 0x20000 + 0xc
def CD_BRD_QERRCNT_CNT3 (d : Nat) : FRef := ⟨CD_BRD_QERRCNT d, 31, 24⟩
def CD_BRD_QERRCNT_CNT2 (d : Nat) : FRef := ⟨CD_BRD_QERRCNT d, 23, 16⟩
def CD_BRD_QERRCNT_CNT1 (d : Nat) : FRef := ⟨CD_BRD_QERRCNT d, 15, 8⟩
def CD_BRD_QERRCNT_CNT0 (d : Nat) : FRef := ⟨CD_BRD_QERRCNT d, 7, 0⟩
/-- R98. -/
def CD_BRD_CMD (d : Nat) : Nat := cdBase d + 0x20000 + 0x10
def CD_BRD_CMD_SNAP (d : Nat) : FRef := ⟨CD_BRD_CMD d, 0, 0⟩
/-- R97. -/
def CD_BRD_DISCCNT (d : Nat) : Nat := cdBase d + 0x20000 + 0x14
def CD_BRD_DISCCNT_DISC (d : Nat) : FRef := ⟨CD_BRD_DISCCNT d, 15, 0⟩
/-- R97. -/
def CD_BRD_STEPS_LO (d : Nat) : Nat := cdBase d + 0x20000 + 0x18
def CD_BRD_STEPS_LO_STEPS (d : Nat) : FRef := ⟨CD_BRD_STEPS_LO d, 31, 0⟩
/-- R97. -/
def CD_BRD_STEPS_HI (d : Nat) : Nat := cdBase d + 0x20000 + 0x1c
def CD_BRD_STEPS_HI_STEPS (d : Nat) : FRef := ⟨CD_BRD_STEPS_HI d, 31, 0⟩

/-! Block CD_STR. -/

/-- R131. -/
def CD_STR_CTL (d : Nat) : Nat := cdBase d + 0x30000
def CD_STR_CTL_PAIROFF (d : Nat) : FRef := ⟨CD_STR_CTL d, 3, 0⟩
/-- R132. -/
def CD_STR_STAT (d : Nat) : Nat := cdBase d + 0x30000 + 4
def CD_STR_STAT_ACCERR (d : Nat) : FRef := ⟨CD_STR_STAT d, 13, 13⟩
def CD_STR_STAT_NV (d : Nat) : FRef := ⟨CD_STR_STAT d, 12, 12⟩
def CD_STR_STAT_DZ (d : Nat) : FRef := ⟨CD_STR_STAT d, 11, 11⟩
def CD_STR_STAT_OF (d : Nat) : FRef := ⟨CD_STR_STAT d, 10, 10⟩
def CD_STR_STAT_UF (d : Nat) : FRef := ⟨CD_STR_STAT d, 9, 9⟩
def CD_STR_STAT_NX (d : Nat) : FRef := ⟨CD_STR_STAT d, 8, 8⟩
def CD_STR_STAT_UPAIR (d : Nat) : FRef := ⟨CD_STR_STAT d, 7, 4⟩
def CD_STR_STAT_BUSY (d : Nat) : FRef := ⟨CD_STR_STAT d, 1, 1⟩
def CD_STR_STAT_AVAIL (d : Nat) : FRef := ⟨CD_STR_STAT d, 0, 0⟩
/-- R133. -/
def CD_STR_FLT (d : Nat) : Nat := cdBase d + 0x30000 + 8
def CD_STR_FLT_FCTX (d : Nat) : FRef := ⟨CD_STR_FLT d, 26, 24⟩
def CD_STR_FLT_FROW (d : Nat) : FRef := ⟨CD_STR_FLT d, 23, 8⟩
def CD_STR_FLT_FCODE (d : Nat) : FRef := ⟨CD_STR_FLT d, 7, 0⟩
/-- R135. -/
def CD_STR_CMD (d : Nat) : Nat := cdBase d + 0x30000 + 0xc
def CD_STR_CMD_SNAP (d : Nat) : FRef := ⟨CD_STR_CMD d, 0, 0⟩
/-- R135. -/
def CD_STR_STEPS_LO (d : Nat) : Nat := cdBase d + 0x30000 + 0x10
def CD_STR_STEPS_LO_STEPS (d : Nat) : FRef := ⟨CD_STR_STEPS_LO d, 31, 0⟩
/-- R135. -/
def CD_STR_STEPS_HI (d : Nat) : Nat := cdBase d + 0x30000 + 0x14
def CD_STR_STEPS_HI_STEPS (d : Nat) : FRef := ⟨CD_STR_STEPS_HI d, 31, 0⟩

/-! Block CD_WSP. -/

/-- R134. -/
def CD_WSP_STAT (d : Nat) : Nat := cdBase d + 0x40000
def CD_WSP_STAT_ACCERR (d : Nat) : FRef := ⟨CD_WSP_STAT d, 4, 4⟩
def CD_WSP_STAT_SBUSY (d : Nat) : FRef := ⟨CD_WSP_STAT d, 2, 2⟩
def CD_WSP_STAT_WBUSY (d : Nat) : FRef := ⟨CD_WSP_STAT d, 1, 1⟩
def CD_WSP_STAT_AVAIL (d : Nat) : FRef := ⟨CD_WSP_STAT d, 0, 0⟩
/-- R133. -/
def CD_WSP_FLT (d : Nat) : Nat := cdBase d + 0x40000 + 4
def CD_WSP_FLT_SCTX (d : Nat) : FRef := ⟨CD_WSP_FLT d, 26, 24⟩
def CD_WSP_FLT_SCODE (d : Nat) : FRef := ⟨CD_WSP_FLT d, 23, 16⟩
def CD_WSP_FLT_WCTX (d : Nat) : FRef := ⟨CD_WSP_FLT d, 10, 8⟩
def CD_WSP_FLT_WCODE (d : Nat) : FRef := ⟨CD_WSP_FLT d, 7, 0⟩
/-- R135. -/
def CD_WSP_CMD (d : Nat) : Nat := cdBase d + 0x40000 + 8
def CD_WSP_CMD_SNAP (d : Nat) : FRef := ⟨CD_WSP_CMD d, 0, 0⟩
/-- R135. -/
def CD_WSP_WSTEPS_LO (d : Nat) : Nat := cdBase d + 0x40000 + 0x10
def CD_WSP_WSTEPS_LO_STEPS (d : Nat) : FRef := ⟨CD_WSP_WSTEPS_LO d, 31, 0⟩
/-- R135. -/
def CD_WSP_WSTEPS_HI (d : Nat) : Nat := cdBase d + 0x40000 + 0x14
def CD_WSP_WSTEPS_HI_STEPS (d : Nat) : FRef := ⟨CD_WSP_WSTEPS_HI d, 31, 0⟩
/-- R135. -/
def CD_WSP_SSTEPS_LO (d : Nat) : Nat := cdBase d + 0x40000 + 0x18
def CD_WSP_SSTEPS_LO_STEPS (d : Nat) : FRef := ⟨CD_WSP_SSTEPS_LO d, 31, 0⟩
/-- R135. -/
def CD_WSP_SSTEPS_HI (d : Nat) : Nat := cdBase d + 0x40000 + 0x1c
def CD_WSP_SSTEPS_HI_STEPS (d : Nat) : FRef := ⟨CD_WSP_SSTEPS_HI d, 31, 0⟩

/-! Block RTM. -/

/-- R160. -/
def RTM_CTL (b : Nat) : Nat := b
def RTM_CTL_HOLD (b : Nat) : FRef := ⟨RTM_CTL b, 0, 0⟩
/-- R161. -/
def RTM_STAT (b : Nat) : Nat := b + 4
def RTM_STAT_ACCERR (b : Nat) : FRef := ⟨RTM_STAT b, 20, 20⟩
def RTM_STAT_SWLOST (b : Nat) : FRef := ⟨RTM_STAT b, 19, 19⟩
def RTM_STAT_FLOORREQ (b : Nat) : FRef := ⟨RTM_STAT b, 18, 18⟩
def RTM_STAT_XDOWN (b : Nat) : FRef := ⟨RTM_STAT b, 17, 17⟩
def RTM_STAT_XUP (b : Nat) : FRef := ⟨RTM_STAT b, 16, 16⟩
def RTM_STAT_ABOVE (b : Nat) : FRef := ⟨RTM_STAT b, 1, 1⟩
def RTM_STAT_HOLDOK (b : Nat) : FRef := ⟨RTM_STAT b, 0, 0⟩
/-- R162. -/
def RTM_RATE (b : Nat) : Nat := b + 8
def RTM_RATE_VALID (b : Nat) : FRef := ⟨RTM_RATE b, 16, 16⟩
def RTM_RATE_RATE (b : Nat) : FRef := ⟨RTM_RATE b, 15, 0⟩
/-- R162. -/
def RTM_RMIN (b : Nat) : Nat := b + 0xc
def RTM_RMIN_RMIN (b : Nat) : FRef := ⟨RTM_RMIN b, 15, 0⟩
/-- R162. -/
def RTM_XCNT (b : Nat) : Nat := b + 0x10
def RTM_XCNT_XCNT (b : Nat) : FRef := ⟨RTM_XCNT b, 15, 0⟩
/-- R162. -/
def RTM_LATE (b : Nat) : Nat := b + 0x14
def RTM_LATE_LATE (b : Nat) : FRef := ⟨RTM_LATE b, 31, 0⟩
/-- R163. -/
def RTM_CMD (b : Nat) : Nat := b + 0x18
def RTM_CMD_SNAP (b : Nat) : FRef := ⟨RTM_CMD b, 0, 0⟩
/-- R162. -/
def RTM_VRAIL (b : Nat) : Nat := b + 0x1c
def RTM_VRAIL_VRAIL (b : Nat) : FRef := ⟨RTM_VRAIL b, 9, 0⟩

/-! Block CD_SCH. -/

/-- R198. -/
def CD_SCH_CTL (d : Nat) : Nat := cdBase d + 0x10000
def CD_SCH_CTL_RINGEN (d : Nat) : FRef := ⟨CD_SCH_CTL d, 15, 8⟩
def CD_SCH_CTL_RTFENCE (d : Nat) : FRef := ⟨CD_SCH_CTL d, 0, 0⟩
/-- R198. -/
def CD_SCH_STAT (d : Nat) : Nat := cdBase d + 0x10000 + 4
def CD_SCH_STAT_SPFRING (d : Nat) : FRef := ⟨CD_SCH_STAT d, 22, 20⟩
def CD_SCH_STAT_SPFAIL (d : Nat) : FRef := ⟨CD_SCH_STAT d, 19, 19⟩
def CD_SCH_STAT_ACCERR (d : Nat) : FRef := ⟨CD_SCH_STAT d, 18, 18⟩
def CD_SCH_STAT_SWLOST (d : Nat) : FRef := ⟨CD_SCH_STAT d, 17, 17⟩
def CD_SCH_STAT_CMDREF (d : Nat) : FRef := ⟨CD_SCH_STAT d, 16, 16⟩
def CD_SCH_STAT_CFAULT (d : Nat) : FRef := ⟨CD_SCH_STAT d, 15, 8⟩
def CD_SCH_STAT_BUSYCTX (d : Nat) : FRef := ⟨CD_SCH_STAT d, 7, 0⟩
/-- R199. -/
def CD_SCH_CCMD (d : Nat) : Nat := cdBase d + 0x10000 + 8
def CD_SCH_CCMD_CTX (d : Nat) : FRef := ⟨CD_SCH_CCMD d, 10, 8⟩
def CD_SCH_CCMD_OP (d : Nat) : FRef := ⟨CD_SCH_CCMD d, 3, 0⟩
/-- R199. -/
def CD_SCH_CMD (d : Nat) : Nat := cdBase d + 0x10000 + 0xc
def CD_SCH_CMD_SNAP (d : Nat) : FRef := ⟨CD_SCH_CMD d, 0, 0⟩
/-- R199. -/
def CD_SCH_RRAUD (d : Nat) : Nat := cdBase d + 0x10000 + 0x10
def CD_SCH_RRAUD_SPILLS (d : Nat) : FRef := ⟨CD_SCH_RRAUD d, 31, 16⟩
def CD_SCH_RRAUD_ADOPTPEND (d : Nat) : FRef := ⟨CD_SCH_RRAUD d, 15, 8⟩
def CD_SCH_RRAUD_RESIDENT (d : Nat) : FRef := ⟨CD_SCH_RRAUD d, 4, 0⟩
/-- R199. -/
def CD_SCH_TAGAUD (d : Nat) : Nat := cdBase d + 0x10000 + 0x14
def CD_SCH_TAGAUD_TAGRT (d : Nat) : FRef := ⟨CD_SCH_TAGAUD d, 25, 16⟩
def CD_SCH_TAGAUD_TAGS (d : Nat) : FRef := ⟨CD_SCH_TAGAUD d, 11, 0⟩
/-- R199. -/
def CD_SCH_EVTINC (d : Nat) : Nat := cdBase d + 0x10000 + 0x18
def CD_SCH_EVTINC_EVT (d : Nat) : FRef := ⟨CD_SCH_EVTINC d, 3, 0⟩
/-- R199. -/
def CD_SCH_EVT (d i : Nat) : Nat := cdBase d + 0x10000 + 0x40 + i * 4
def CD_SCH_EVT_COUNT (d i : Nat) : FRef := ⟨CD_SCH_EVT d i, 31, 0⟩
/-- R200. -/
def CD_SCH_RBASE_LO (d i : Nat) : Nat := cdBase d + 0x10000 + 0x100 + i * 0x20
def CD_SCH_RBASE_LO_BASE (d i : Nat) : FRef := ⟨CD_SCH_RBASE_LO d i, 31, 6⟩
/-- R200. -/
def CD_SCH_RBASE_HI (d i : Nat) : Nat := cdBase d + 0x10000 + 0x104 + i * 0x20
def CD_SCH_RBASE_HI_BASE (d i : Nat) : FRef := ⟨CD_SCH_RBASE_HI d i, 15, 0⟩
/-- R200. -/
def CD_SCH_RCFG (d i : Nat) : Nat := cdBase d + 0x10000 + 0x108 + i * 0x20
def CD_SCH_RCFG_RDEVCTX (d i : Nat) : FRef := ⟨CD_SCH_RCFG d i, 31, 16⟩
def CD_SCH_RCFG_LOG2SZ (d i : Nat) : FRef := ⟨CD_SCH_RCFG d i, 11, 8⟩
def CD_SCH_RCFG_RT (d i : Nat) : FRef := ⟨CD_SCH_RCFG d i, 7, 7⟩
def CD_SCH_RCFG_PRIO (d i : Nat) : FRef := ⟨CD_SCH_RCFG d i, 6, 4⟩
/-- R200. -/
def CD_SCH_DB (d i : Nat) : Nat := cdBase d + 0x10000 + 0x10c + i * 0x20
def CD_SCH_DB_TAIL (d i : Nat) : FRef := ⟨CD_SCH_DB d i, 11, 0⟩
/-- R200. -/
def CD_SCH_RPTR (d i : Nat) : Nat := cdBase d + 0x10000 + 0x110 + i * 0x20
def CD_SCH_RPTR_DBTAIL (d i : Nat) : FRef := ⟨CD_SCH_RPTR d i, 27, 16⟩
def CD_SCH_RPTR_HEAD (d i : Nat) : FRef := ⟨CD_SCH_RPTR d i, 11, 0⟩
/-- R200. -/
def CD_SCH_CTX (d i : Nat) : Nat := cdBase d + 0x10000 + 0x114 + i * 0x20
def CD_SCH_CTX_STATE (d i : Nat) : FRef := ⟨CD_SCH_CTX d i, 31, 29⟩
def CD_SCH_CTX_RRSLOT (d i : Nat) : FRef := ⟨CD_SCH_CTX d i, 28, 24⟩
def CD_SCH_CTX_NEXT (d i : Nat) : FRef := ⟨CD_SCH_CTX d i, 15, 0⟩
/-- R200. -/
def CD_SCH_CFLT (d i : Nat) : Nat := cdBase d + 0x10000 + 0x118 + i * 0x20
def CD_SCH_CFLT_FCODE (d i : Nat) : FRef := ⟨CD_SCH_CFLT d i, 31, 24⟩
def CD_SCH_CFLT_FSTEP (d i : Nat) : FRef := ⟨CD_SCH_CFLT d i, 15, 0⟩

/-! Block CD_SEQ. -/

/-- R227. -/
def CD_SEQ_CTL (d : Nat) : Nat := cdBase d + 0x60000
def CD_SEQ_CTL_STALELIM (d : Nat) : FRef := ⟨CD_SEQ_CTL d, 31, 24⟩
def CD_SEQ_CTL_KICKTO (d : Nat) : FRef := ⟨CD_SEQ_CTL d, 15, 12⟩
def CD_SEQ_CTL_RING (d : Nat) : FRef := ⟨CD_SEQ_CTL d, 10, 8⟩
def CD_SEQ_CTL_BEN (d : Nat) : FRef := ⟨CD_SEQ_CTL d, 0, 0⟩
/-- R228. -/
def CD_SEQ_STAT (d : Nat) : Nat := cdBase d + 0x60000 + 4
def CD_SEQ_STAT_ACCERR (d : Nat) : FRef := ⟨CD_SEQ_STAT d, 23, 23⟩
def CD_SEQ_STAT_SWLOST (d : Nat) : FRef := ⟨CD_SEQ_STAT d, 22, 22⟩
def CD_SEQ_STAT_CMDREF (d : Nat) : FRef := ⟨CD_SEQ_STAT d, 21, 21⟩
def CD_SEQ_STAT_TAKEOVER (d : Nat) : FRef := ⟨CD_SEQ_STAT d, 20, 20⟩
def CD_SEQ_STAT_HANDBACK (d : Nat) : FRef := ⟨CD_SEQ_STAT d, 19, 19⟩
def CD_SEQ_STAT_POOLDRY (d : Nat) : FRef := ⟨CD_SEQ_STAT d, 18, 18⟩
def CD_SEQ_STAT_BFAULT (d : Nat) : FRef := ⟨CD_SEQ_STAT d, 17, 17⟩
def CD_SEQ_STAT_RFAIL (d : Nat) : FRef := ⟨CD_SEQ_STAT d, 16, 16⟩
def CD_SEQ_STAT_RBUSY (d : Nat) : FRef := ⟨CD_SEQ_STAT d, 1, 1⟩
def CD_SEQ_STAT_MODE (d : Nat) : FRef := ⟨CD_SEQ_STAT d, 0, 0⟩
/-- R229. -/
def CD_SEQ_CMD (d : Nat) : Nat := cdBase d + 0x60000 + 8
def CD_SEQ_CMD_ENTRY (d : Nat) : FRef := ⟨CD_SEQ_CMD d, 15, 8⟩
def CD_SEQ_CMD_OP (d : Nat) : FRef := ⟨CD_SEQ_CMD d, 3, 0⟩
/-- R229. -/
def CD_SEQ_KICK (d : Nat) : Nat := cdBase d + 0x60000 + 0xc
def CD_SEQ_KICK_KICK (d : Nat) : FRef := ⟨CD_SEQ_KICK d, 0, 0⟩
/-- R230. -/
def CD_SEQ_AUD0 (d : Nat) : Nat := cdBase d + 0x60000 + 0x10
def CD_SEQ_AUD0_NFREE (d : Nat) : FRef := ⟨CD_SEQ_AUD0 d, 24, 16⟩
def CD_SEQ_AUD0_NACTIVE (d : Nat) : FRef := ⟨CD_SEQ_AUD0 d, 8, 0⟩
/-- R230. -/
def CD_SEQ_AUD1 (d : Nat) : Nat := cdBase d + 0x60000 + 0x14
def CD_SEQ_AUD1_NJOIN (d : Nat) : FRef := ⟨CD_SEQ_AUD1 d, 24, 16⟩
def CD_SEQ_AUD1_NLEAVE (d : Nat) : FRef := ⟨CD_SEQ_AUD1 d, 8, 0⟩
/-- R230. -/
def CD_SEQ_AUD2 (d : Nat) : Nat := cdBase d + 0x60000 + 0x18
def CD_SEQ_AUD2_OVRCNT (d : Nat) : FRef := ⟨CD_SEQ_AUD2 d, 31, 16⟩
def CD_SEQ_AUD2_SEQPEND (d : Nat) : FRef := ⟨CD_SEQ_AUD2 d, 8, 0⟩
/-- R230. -/
def CD_SEQ_ROUND (d : Nat) : Nat := cdBase d + 0x60000 + 0x1c
def CD_SEQ_ROUND_ROUND (d : Nat) : FRef := ⟨CD_SEQ_ROUND d, 31, 0⟩
/-- R227. -/
def CD_SEQ_PER (d : Nat) : Nat := cdBase d + 0x60000 + 0x20
def CD_SEQ_PER_ROUNDPER (d : Nat) : FRef := ⟨CD_SEQ_PER d, 15, 0⟩
/-- R230. -/
def CD_SEQ_BFLT (d : Nat) : Nat := cdBase d + 0x60000 + 0x24
def CD_SEQ_BFLT_BCODE (d : Nat) : FRef := ⟨CD_SEQ_BFLT d, 31, 24⟩
def CD_SEQ_BFLT_BINFO (d : Nat) : FRef := ⟨CD_SEQ_BFLT d, 15, 0⟩
/-- R227. -/
def CD_SEQ_TPL_LO (d : Nat) : Nat := cdBase d + 0x60000 + 0x28
def CD_SEQ_TPL_LO_ADDR (d : Nat) : FRef := ⟨CD_SEQ_TPL_LO d, 31, 0⟩
/-- R227. -/
def CD_SEQ_TPL_HI (d : Nat) : Nat := cdBase d + 0x60000 + 0x2c
def CD_SEQ_TPL_HI_ADDR (d : Nat) : FRef := ⟨CD_SEQ_TPL_HI d, 15, 0⟩
/-- R227. -/
def CD_SEQ_POOL_LO (d : Nat) : Nat := cdBase d + 0x60000 + 0x30
def CD_SEQ_POOL_LO_ADDR (d : Nat) : FRef := ⟨CD_SEQ_POOL_LO d, 31, 0⟩
/-- R227. -/
def CD_SEQ_POOL_HI (d : Nat) : Nat := cdBase d + 0x60000 + 0x34
def CD_SEQ_POOL_HI_ADDR (d : Nat) : FRef := ⟨CD_SEQ_POOL_HI d, 15, 0⟩
/-- R227. -/
def CD_SEQ_POOLCNT (d : Nat) : Nat := cdBase d + 0x60000 + 0x38
def CD_SEQ_POOLCNT_POOLCNT (d : Nat) : FRef := ⟨CD_SEQ_POOLCNT d, 15, 0⟩
/-- R227. -/
def CD_SEQ_TIMG_LO (d : Nat) : Nat := cdBase d + 0x60000 + 0x3c
def CD_SEQ_TIMG_LO_ADDR (d : Nat) : FRef := ⟨CD_SEQ_TIMG_LO d, 31, 0⟩
/-- R227. -/
def CD_SEQ_TIMG_HI (d : Nat) : Nat := cdBase d + 0x60000 + 0x40
def CD_SEQ_TIMG_HI_ADDR (d : Nat) : FRef := ⟨CD_SEQ_TIMG_HI d, 15, 0⟩
/-- R231. -/
def CD_SEQ_ENT0 (d i : Nat) : Nat := cdBase d + 0x60000 + 0x2000 + i * 0x20
def CD_SEQ_ENT0_STALE (d i : Nat) : FRef := ⟨CD_SEQ_ENT0 d i, 31, 24⟩
def CD_SEQ_ENT0_NPG (d i : Nat) : FRef := ⟨CD_SEQ_ENT0 d i, 23, 16⟩
def CD_SEQ_ENT0_FIRST (d i : Nat) : FRef := ⟨CD_SEQ_ENT0 d i, 15, 8⟩
def CD_SEQ_ENT0_FRESH (d i : Nat) : FRef := ⟨CD_SEQ_ENT0 d i, 3, 3⟩
def CD_SEQ_ENT0_STATE (d i : Nat) : FRef := ⟨CD_SEQ_ENT0 d i, 2, 0⟩
/-- R231. -/
def CD_SEQ_ENT1 (d i : Nat) : Nat := cdBase d + 0x60000 + 0x2004 + i * 0x20
def CD_SEQ_ENT1_SEQID (d i : Nat) : FRef := ⟨CD_SEQ_ENT1 d i, 31, 0⟩
/-- R231. -/
def CD_SEQ_ENT2 (d i : Nat) : Nat := cdBase d + 0x60000 + 0x2008 + i * 0x20
def CD_SEQ_ENT2_LEN (d i : Nat) : FRef := ⟨CD_SEQ_ENT2 d i, 31, 0⟩
/-- R231. -/
def CD_SEQ_ENT3 (d i : Nat) : Nat := cdBase d + 0x60000 + 0x200c + i * 0x20
def CD_SEQ_ENT3_ROUND (d i : Nat) : FRef := ⟨CD_SEQ_ENT3 d i, 31, 0⟩
/-- R231. -/
def CD_SEQ_ENT4 (d i : Nat) : Nat := cdBase d + 0x60000 + 0x2010 + i * 0x20
def CD_SEQ_ENT4_OUTROW (d i : Nat) : FRef := ⟨CD_SEQ_ENT4 d i, 31, 16⟩
def CD_SEQ_ENT4_OBSROW (d i : Nat) : FRef := ⟨CD_SEQ_ENT4 d i, 15, 0⟩
/-- R231. -/
def CD_SEQ_ENT5 (d i : Nat) : Nat := cdBase d + 0x60000 + 0x2014 + i * 0x20
def CD_SEQ_ENT5_PTADDR (d i : Nat) : FRef := ⟨CD_SEQ_ENT5 d i, 31, 9⟩
/-- R231. -/
def CD_SEQ_ENT6 (d i : Nat) : Nat := cdBase d + 0x60000 + 0x2018 + i * 0x20
def CD_SEQ_ENT6_PTADDR (d i : Nat) : FRef := ⟨CD_SEQ_ENT6 d i, 15, 0⟩
/-- R231. -/
def CD_SEQ_ENT7 (d i : Nat) : Nat := cdBase d + 0x60000 + 0x201c + i * 0x20

/-! Block CD_ACT. -/

/-- R233. -/
def CD_ACT_CMD (d : Nat) : Nat := cdBase d + 0x70000
def CD_ACT_CMD_SNAP (d : Nat) : FRef := ⟨CD_ACT_CMD d, 0, 0⟩
/-- R233. -/
def CD_ACT_STAT (d : Nat) : Nat := cdBase d + 0x70000 + 4
def CD_ACT_STAT_ACCERR (d : Nat) : FRef := ⟨CD_ACT_STAT d, 0, 0⟩
/-- R233. -/
def CD_ACT_IDLE_LO (d : Nat) : Nat := cdBase d + 0x70000 + 8
def CD_ACT_IDLE_LO_VALUE (d : Nat) : FRef := ⟨CD_ACT_IDLE_LO d, 31, 0⟩
/-- R233. -/
def CD_ACT_IDLE_HI (d : Nat) : Nat := cdBase d + 0x70000 + 0xc
def CD_ACT_IDLE_HI_VALUE (d : Nat) : FRef := ⟨CD_ACT_IDLE_HI d, 31, 0⟩
/-- R233. -/
def CD_ACT_ETOT_LO (d : Nat) : Nat := cdBase d + 0x70000 + 0x10
def CD_ACT_ETOT_LO_VALUE (d : Nat) : FRef := ⟨CD_ACT_ETOT_LO d, 31, 0⟩
/-- R233. -/
def CD_ACT_ETOT_HI (d : Nat) : Nat := cdBase d + 0x70000 + 0x14
def CD_ACT_ETOT_HI_VALUE (d : Nat) : FRef := ⟨CD_ACT_ETOT_HI d, 31, 0⟩
/-- R233. -/
def CD_ACT_WT (d i : Nat) : Nat := cdBase d + 0x70000 + 0x40 + i * 4
def CD_ACT_WT_W3 (d i : Nat) : FRef := ⟨CD_ACT_WT d i, 31, 24⟩
def CD_ACT_WT_W2 (d i : Nat) : FRef := ⟨CD_ACT_WT d i, 23, 16⟩
def CD_ACT_WT_W1 (d i : Nat) : FRef := ⟨CD_ACT_WT d i, 15, 8⟩
def CD_ACT_WT_W0 (d i : Nat) : FRef := ⟨CD_ACT_WT d i, 7, 0⟩
/-- R233. -/
def CD_ACT_BRD_LO (d i : Nat) : Nat := cdBase d + 0x70000 + 0x1000 + i * 0x40
def CD_ACT_BRD_LO_VALUE (d i : Nat) : FRef := ⟨CD_ACT_BRD_LO d i, 31, 0⟩
/-- R233. -/
def CD_ACT_BRD_HI (d i : Nat) : Nat := cdBase d + 0x70000 + 0x1004 + i * 0x40
def CD_ACT_BRD_HI_VALUE (d i : Nat) : FRef := ⟨CD_ACT_BRD_HI d i, 31, 0⟩
/-- R233. -/
def CD_ACT_STR_LO (d i : Nat) : Nat := cdBase d + 0x70000 + 0x1008 + i * 0x40
def CD_ACT_STR_LO_VALUE (d i : Nat) : FRef := ⟨CD_ACT_STR_LO d i, 31, 0⟩
/-- R233. -/
def CD_ACT_STR_HI (d i : Nat) : Nat := cdBase d + 0x70000 + 0x100c + i * 0x40
def CD_ACT_STR_HI_VALUE (d i : Nat) : FRef := ⟨CD_ACT_STR_HI d i, 31, 0⟩
/-- R233. -/
def CD_ACT_WSP_LO (d i : Nat) : Nat := cdBase d + 0x70000 + 0x1010 + i * 0x40
def CD_ACT_WSP_LO_VALUE (d i : Nat) : FRef := ⟨CD_ACT_WSP_LO d i, 31, 0⟩
/-- R233. -/
def CD_ACT_WSP_HI (d i : Nat) : Nat := cdBase d + 0x70000 + 0x1014 + i * 0x40
def CD_ACT_WSP_HI_VALUE (d i : Nat) : FRef := ⟨CD_ACT_WSP_HI d i, 31, 0⟩
/-- R233. -/
def CD_ACT_BSHELF_LO (d i : Nat) : Nat := cdBase d + 0x70000 + 0x1018 + i * 0x40
def CD_ACT_BSHELF_LO_VALUE (d i : Nat) : FRef := ⟨CD_ACT_BSHELF_LO d i, 31, 0⟩
/-- R233. -/
def CD_ACT_BSHELF_HI (d i : Nat) : Nat := cdBase d + 0x70000 + 0x101c + i * 0x40
def CD_ACT_BSHELF_HI_VALUE (d i : Nat) : FRef := ⟨CD_ACT_BSHELF_HI d i, 31, 0⟩
/-- R233. -/
def CD_ACT_BSC_LO (d i : Nat) : Nat := cdBase d + 0x70000 + 0x1020 + i * 0x40
def CD_ACT_BSC_LO_VALUE (d i : Nat) : FRef := ⟨CD_ACT_BSC_LO d i, 31, 0⟩
/-- R233. -/
def CD_ACT_BSC_HI (d i : Nat) : Nat := cdBase d + 0x70000 + 0x1024 + i * 0x40
def CD_ACT_BSC_HI_VALUE (d i : Nat) : FRef := ⟨CD_ACT_BSC_HI d i, 31, 0⟩
/-- R233. -/
def CD_ACT_BDRAM_LO (d i : Nat) : Nat := cdBase d + 0x70000 + 0x1028 + i * 0x40
def CD_ACT_BDRAM_LO_VALUE (d i : Nat) : FRef := ⟨CD_ACT_BDRAM_LO d i, 31, 0⟩
/-- R233. -/
def CD_ACT_BDRAM_HI (d i : Nat) : Nat := cdBase d + 0x70000 + 0x102c + i * 0x40
def CD_ACT_BDRAM_HI_VALUE (d i : Nat) : FRef := ⟨CD_ACT_BDRAM_HI d i, 31, 0⟩
/-- R233. -/
def CD_ACT_BOTHER_LO (d i : Nat) : Nat := cdBase d + 0x70000 + 0x1030 + i * 0x40
def CD_ACT_BOTHER_LO_VALUE (d i : Nat) : FRef := ⟨CD_ACT_BOTHER_LO d i, 31, 0⟩
/-- R233. -/
def CD_ACT_BOTHER_HI (d i : Nat) : Nat := cdBase d + 0x70000 + 0x1034 + i * 0x40
def CD_ACT_BOTHER_HI_VALUE (d i : Nat) : FRef := ⟨CD_ACT_BOTHER_HI d i, 31, 0⟩
/-- R233. -/
def CD_ACT_ENERGY_LO (d i : Nat) : Nat := cdBase d + 0x70000 + 0x1038 + i * 0x40
def CD_ACT_ENERGY_LO_VALUE (d i : Nat) : FRef := ⟨CD_ACT_ENERGY_LO d i, 31, 0⟩
/-- R233. -/
def CD_ACT_ENERGY_HI (d i : Nat) : Nat := cdBase d + 0x70000 + 0x103c + i * 0x40
def CD_ACT_ENERGY_HI_VALUE (d i : Nat) : FRef := ⟨CD_ACT_ENERGY_HI d i, 31, 0⟩

/-! Block HD_SHF. -/

/-- R261. -/
def HD_SHF_GCFG : Nat := hdBase + 0x30000
def HD_SHF_GCFG_LOCK : FRef := ⟨HD_SHF_GCFG, 31, 31⟩
def HD_SHF_GCFG_INTL : FRef := ⟨HD_SHF_GCFG, 11, 0⟩
/-- R261. -/
def HD_SHF_STAT : Nat := hdBase + 0x30000 + 4
def HD_SHF_STAT_ACCERR : FRef := ⟨HD_SHF_STAT, 17, 17⟩
def HD_SHF_STAT_SWLOST : FRef := ⟨HD_SHF_STAT, 16, 16⟩
def HD_SHF_STAT_NI : FRef := ⟨HD_SHF_STAT, 15, 12⟩
def HD_SHF_STAT_READY : FRef := ⟨HD_SHF_STAT, 11, 0⟩

/-! Block BT_SHF. -/

/-- R261. -/
def BT_SHF_STAT (n : Nat) : Nat := btBase n + 0x20000
def BT_SHF_STAT_ACCERR (n : Nat) : FRef := ⟨BT_SHF_STAT n, 5, 5⟩
def BT_SHF_STAT_UE (n : Nat) : FRef := ⟨BT_SHF_STAT n, 4, 4⟩
def BT_SHF_STAT_CE (n : Nat) : FRef := ⟨BT_SHF_STAT n, 3, 3⟩
def BT_SHF_STAT_INIT (n : Nat) : FRef := ⟨BT_SHF_STAT n, 2, 0⟩
/-- R261. -/
def BT_SHF_CECNT (n : Nat) : Nat := btBase n + 0x20000 + 4
def BT_SHF_CECNT_CECNT (n : Nat) : FRef := ⟨BT_SHF_CECNT n, 31, 0⟩
/-- R261. -/
def BT_SHF_UECNT (n : Nat) : Nat := btBase n + 0x20000 + 8
def BT_SHF_UECNT_UECNT (n : Nat) : FRef := ⟨BT_SHF_UECNT n, 31, 0⟩
/-- R261. -/
def BT_SHF_ELOG (n : Nat) : Nat := btBase n + 0x20000 + 0xc
def BT_SHF_ELOG_GROUP (n : Nat) : FRef := ⟨BT_SHF_ELOG n, 29, 28⟩
def BT_SHF_ELOG_LINE (n : Nat) : FRef := ⟨BT_SHF_ELOG n, 19, 0⟩
/-- R261. -/
def BT_SHF_CMD (n : Nat) : Nat := btBase n + 0x20000 + 0x10
def BT_SHF_CMD_SNAP (n : Nat) : FRef := ⟨BT_SHF_CMD n, 0, 0⟩

/-! Block HD_SC. -/

/-- R262. -/
def HD_SC_CTL : Nat := hdBase + 0x40000
def HD_SC_CTL_SCRWAYS : FRef := ⟨HD_SC_CTL, 3, 0⟩
/-- R262. -/
def HD_SC_STAT : Nat := hdBase + 0x40000 + 4
def HD_SC_STAT_ACCERR : FRef := ⟨HD_SC_STAT, 11, 11⟩
def HD_SC_STAT_CMDREF : FRef := ⟨HD_SC_STAT, 10, 10⟩
def HD_SC_STAT_CONVDONE : FRef := ⟨HD_SC_STAT, 9, 9⟩
def HD_SC_STAT_CONV : FRef := ⟨HD_SC_STAT, 8, 8⟩
def HD_SC_STAT_HALFON : FRef := ⟨HD_SC_STAT, 7, 6⟩
def HD_SC_STAT_SCRACT : FRef := ⟨HD_SC_STAT, 3, 0⟩
/-- R262. -/
def HD_SC_WMASK (i : Nat) : Nat := hdBase + 0x40000 + 0x20 + i * 4
def HD_SC_WMASK_WAYS (i : Nat) : FRef := ⟨HD_SC_WMASK i, 15, 0⟩
/-- R262. -/
def HD_SC_HIT_LO : Nat := hdBase + 0x40000 + 0x40
def HD_SC_HIT_LO_VALUE : FRef := ⟨HD_SC_HIT_LO, 31, 0⟩
/-- R262. -/
def HD_SC_HIT_HI : Nat := hdBase + 0x40000 + 0x44
def HD_SC_HIT_HI_VALUE : FRef := ⟨HD_SC_HIT_HI, 31, 0⟩
/-- R262. -/
def HD_SC_MISS_LO : Nat := hdBase + 0x40000 + 0x48
def HD_SC_MISS_LO_VALUE : FRef := ⟨HD_SC_MISS_LO, 31, 0⟩
/-- R262. -/
def HD_SC_MISS_HI : Nat := hdBase + 0x40000 + 0x4c
def HD_SC_MISS_HI_VALUE : FRef := ⟨HD_SC_MISS_HI, 31, 0⟩
/-- R262. -/
def HD_SC_CMD : Nat := hdBase + 0x40000 + 0x50
def HD_SC_CMD_SNAP : FRef := ⟨HD_SC_CMD, 0, 0⟩

/-! Block XLT. -/

/-- R263. -/
def XLT_CTL (b : Nat) : Nat := b
def XLT_CTL_LOG2NDC (b : Nat) : FRef := ⟨XLT_CTL b, 4, 1⟩
def XLT_CTL_EN (b : Nat) : FRef := ⟨XLT_CTL b, 0, 0⟩
/-- R263. -/
def XLT_STAT (b : Nat) : Nat := b + 4
def XLT_STAT_LKCAUSE (b : Nat) : FRef := ⟨XLT_STAT b, 11, 8⟩
def XLT_STAT_ACCERR (b : Nat) : FRef := ⟨XLT_STAT b, 7, 7⟩
def XLT_STAT_CMDREF (b : Nat) : FRef := ⟨XLT_STAT b, 6, 6⟩
def XLT_STAT_FAULT (b : Nat) : FRef := ⟨XLT_STAT b, 5, 5⟩
def XLT_STAT_LKERR (b : Nat) : FRef := ⟨XLT_STAT b, 4, 4⟩
def XLT_STAT_LKBUSY (b : Nat) : FRef := ⟨XLT_STAT b, 1, 1⟩
def XLT_STAT_INVBUSY (b : Nat) : FRef := ⟨XLT_STAT b, 0, 0⟩
/-- R263. -/
def XLT_DCT_LO (b : Nat) : Nat := b + 8
def XLT_DCT_LO_BASE (b : Nat) : FRef := ⟨XLT_DCT_LO b, 31, 12⟩
/-- R263. -/
def XLT_DCT_HI (b : Nat) : Nat := b + 0xc
def XLT_DCT_HI_BASE (b : Nat) : FRef := ⟨XLT_DCT_HI b, 15, 0⟩
/-- R263. -/
def XLT_INV (b : Nat) : Nat := b + 0x10
def XLT_INV_DEVCTX (b : Nat) : FRef := ⟨XLT_INV b, 31, 16⟩
def XLT_INV_BCAST (b : Nat) : FRef := ⟨XLT_INV b, 6, 6⟩
def XLT_INV_OP (b : Nat) : FRef := ⟨XLT_INV b, 2, 0⟩
/-- R263. -/
def XLT_INVVA_LO (b : Nat) : Nat := b + 0x14
def XLT_INVVA_LO_VA (b : Nat) : FRef := ⟨XLT_INVVA_LO b, 31, 0⟩
/-- R263. -/
def XLT_INVVA_HI (b : Nat) : Nat := b + 0x18
def XLT_INVVA_HI_VA (b : Nat) : FRef := ⟨XLT_INVVA_HI b, 15, 0⟩
/-- R263. -/
def XLT_LOCK (b : Nat) : Nat := b + 0x1c
def XLT_LOCK_DEVCTX (b : Nat) : FRef := ⟨XLT_LOCK b, 31, 16⟩
def XLT_LOCK_OP (b : Nat) : FRef := ⟨XLT_LOCK b, 1, 0⟩
/-- R263. -/
def XLT_LOCKVA_LO (b : Nat) : Nat := b + 0x20
def XLT_LOCKVA_LO_VA (b : Nat) : FRef := ⟨XLT_LOCKVA_LO b, 31, 0⟩
/-- R263. -/
def XLT_LOCKVA_HI (b : Nat) : Nat := b + 0x24
def XLT_LOCKVA_HI_VA (b : Nat) : FRef := ⟨XLT_LOCKVA_HI b, 15, 0⟩
/-- R263. -/
def XLT_FLT (b : Nat) : Nat := b + 0x28
def XLT_FLT_DEVCTX (b : Nat) : FRef := ⟨XLT_FLT b, 31, 16⟩
def XLT_FLT_CAUSE (b : Nat) : FRef := ⟨XLT_FLT b, 11, 8⟩
def XLT_FLT_ACC (b : Nat) : FRef := ⟨XLT_FLT b, 1, 0⟩
/-- R263. -/
def XLT_FVA_LO (b : Nat) : Nat := b + 0x2c
def XLT_FVA_LO_FVA (b : Nat) : FRef := ⟨XLT_FVA_LO b, 31, 0⟩
/-- R263. -/
def XLT_FVA_HI (b : Nat) : Nat := b + 0x30
def XLT_FVA_HI_FVA (b : Nat) : FRef := ⟨XLT_FVA_HI b, 15, 0⟩
/-- R263. -/
def XLT_LKAUD (b : Nat) : Nat := b + 0x34
def XLT_LKAUD_LKUSED (b : Nat) : FRef := ⟨XLT_LKAUD b, 8, 0⟩
/-- R263. -/
def XLT_FCNT (b : Nat) : Nat := b + 0x38
def XLT_FCNT_FCNT (b : Nat) : FRef := ⟨XLT_FCNT b, 31, 0⟩
/-- R263. -/
def XLT_CMD (b : Nat) : Nat := b + 0x3c
def XLT_CMD_SNAP (b : Nat) : FRef := ⟨XLT_CMD b, 0, 0⟩

/-! Block HD_MC. -/

/-- R291. -/
def HD_MC_CTL (m : Nat) : Nat := hdBase + 0x100000 + m * 0x1000
def HD_MC_CTL_SRIDLE (m : Nat) : FRef := ⟨HD_MC_CTL m, 31, 24⟩
def HD_MC_CTL_PGIDLE (m : Nat) : FRef := ⟨HD_MC_CTL m, 23, 16⟩
def HD_MC_CTL_SCRUBH (m : Nat) : FRef := ⟨HD_MC_CTL m, 15, 8⟩
/-- R291. -/
def HD_MC_STAT (m : Nat) : Nat := hdBase + 0x100000 + m * 0x1000 + 4
def HD_MC_STAT_ACCERR (m : Nat) : FRef := ⟨HD_MC_STAT m, 12, 12⟩
def HD_MC_STAT_TEMPHI (m : Nat) : FRef := ⟨HD_MC_STAT m, 11, 11⟩
def HD_MC_STAT_CMDERR (m : Nat) : FRef := ⟨HD_MC_STAT m, 10, 10⟩
def HD_MC_STAT_UE (m : Nat) : FRef := ⟨HD_MC_STAT m, 9, 9⟩
def HD_MC_STAT_CE (m : Nat) : FRef := ⟨HD_MC_STAT m, 8, 8⟩
def HD_MC_STAT_RMULT (m : Nat) : FRef := ⟨HD_MC_STAT m, 7, 6⟩
def HD_MC_STAT_RETAIN (m : Nat) : FRef := ⟨HD_MC_STAT m, 4, 4⟩
def HD_MC_STAT_SR (m : Nat) : FRef := ⟨HD_MC_STAT m, 3, 3⟩
def HD_MC_STAT_SRBLK (m : Nat) : FRef := ⟨HD_MC_STAT m, 2, 2⟩
def HD_MC_STAT_TRAINED (m : Nat) : FRef := ⟨HD_MC_STAT m, 1, 1⟩
def HD_MC_STAT_READY (m : Nat) : FRef := ⟨HD_MC_STAT m, 0, 0⟩
/-- R292. -/
def HD_MC_ELOG (m : Nat) : Nat := hdBase + 0x100000 + m * 0x1000 + 8
def HD_MC_ELOG_TYPE (m : Nat) : FRef := ⟨HD_MC_ELOG m, 31, 30⟩
def HD_MC_ELOG_RK (m : Nat) : FRef := ⟨HD_MC_ELOG m, 29, 29⟩
def HD_MC_ELOG_CH (m : Nat) : FRef := ⟨HD_MC_ELOG m, 28, 27⟩
def HD_MC_ELOG_U (m : Nat) : FRef := ⟨HD_MC_ELOG m, 24, 6⟩
def HD_MC_ELOG_LINE (m : Nat) : FRef := ⟨HD_MC_ELOG m, 5, 0⟩
/-- R292. -/
def HD_MC_CECNT (m : Nat) : Nat := hdBase + 0x100000 + m * 0x1000 + 0xc
def HD_MC_CECNT_COUNT (m : Nat) : FRef := ⟨HD_MC_CECNT m, 31, 0⟩
/-- R292. -/
def HD_MC_UECNT (m : Nat) : Nat := hdBase + 0x100000 + m * 0x1000 + 0x10
def HD_MC_UECNT_COUNT (m : Nat) : FRef := ⟨HD_MC_UECNT m, 31, 0⟩
/-- R292. -/
def HD_MC_FREFCNT (m : Nat) : Nat := hdBase + 0x100000 + m * 0x1000 + 0x14
def HD_MC_FREFCNT_COUNT (m : Nat) : FRef := ⟨HD_MC_FREFCNT m, 31, 0⟩
/-- R292. -/
def HD_MC_SRCNT (m : Nat) : Nat := hdBase + 0x100000 + m * 0x1000 + 0x18
def HD_MC_SRCNT_COUNT (m : Nat) : FRef := ⟨HD_MC_SRCNT m, 31, 0⟩
/-- R292. -/
def HD_MC_REFAUD (m : Nat) : Nat := hdBase + 0x100000 + m * 0x1000 + 0x1c
def HD_MC_REFAUD_D (m : Nat) : FRef := ⟨HD_MC_REFAUD m, 31, 0⟩
/-- R292. -/
def HD_MC_QAUD (m : Nat) : Nat := hdBase + 0x100000 + m * 0x1000 + 0x20
def HD_MC_QAUD_Q7 (m : Nat) : FRef := ⟨HD_MC_QAUD m, 23, 16⟩
def HD_MC_QAUD_QTOT (m : Nat) : FRef := ⟨HD_MC_QAUD m, 7, 0⟩
/-- R292. -/
def HD_MC_CMD (m : Nat) : Nat := hdBase + 0x100000 + m * 0x1000 + 0x24
def HD_MC_CMD_SNAP (m : Nat) : FRef := ⟨HD_MC_CMD m, 0, 0⟩

/-! Block HD_DMAP. -/

/-- R293. -/
def HD_DMAP_CFG : Nat := hdBase + 0x60000
def HD_DMAP_CFG_LOCK : FRef := ⟨HD_DMAP_CFG, 31, 31⟩
def HD_DMAP_CFG_MIGMAX : FRef := ⟨HD_DMAP_CFG, 10, 8⟩
def HD_DMAP_CFG_LOCSZ : FRef := ⟨HD_DMAP_CFG, 3, 0⟩
/-- R293. -/
def HD_DMAP_MSTAT : Nat := hdBase + 0x60000 + 4
def HD_DMAP_MSTAT_ACCERR : FRef := ⟨HD_DMAP_MSTAT, 21, 21⟩
def HD_DMAP_MSTAT_SWLOST : FRef := ⟨HD_DMAP_MSTAT, 20, 20⟩
def HD_DMAP_MSTAT_CMDREF : FRef := ⟨HD_DMAP_MSTAT, 19, 19⟩
def HD_DMAP_MSTAT_SPAREOUT : FRef := ⟨HD_DMAP_MSTAT, 18, 18⟩
def HD_DMAP_MSTAT_MDONE : FRef := ⟨HD_DMAP_MSTAT, 17, 17⟩
def HD_DMAP_MSTAT_MSTART : FRef := ⟨HD_DMAP_MSTAT, 16, 16⟩
def HD_DMAP_MSTAT_STATE : FRef := ⟨HD_DMAP_MSTAT, 13, 12⟩
def HD_DMAP_MSTAT_SPARE : FRef := ⟨HD_DMAP_MSTAT, 10, 8⟩
def HD_DMAP_MSTAT_SRC : FRef := ⟨HD_DMAP_MSTAT, 5, 0⟩
/-- R293. -/
def HD_DMAP_MPTR : Nat := hdBase + 0x60000 + 8
def HD_DMAP_MPTR_PTR : FRef := ⟨HD_DMAP_MPTR, 18, 0⟩
/-- R293. -/
def HD_DMAP_MCMD : Nat := hdBase + 0x60000 + 0xc
def HD_DMAP_MCMD_TGT : FRef := ⟨HD_DMAP_MCMD, 13, 8⟩
def HD_DMAP_MCMD_OP : FRef := ⟨HD_DMAP_MCMD, 3, 0⟩
/-- R294. -/
def HD_DMAP_PEND_LO : Nat := hdBase + 0x60000 + 0x10
def HD_DMAP_PEND_LO_PEND : FRef := ⟨HD_DMAP_PEND_LO, 31, 0⟩
/-- R294. -/
def HD_DMAP_PEND_HI : Nat := hdBase + 0x60000 + 0x14
def HD_DMAP_PEND_HI_PEND : FRef := ⟨HD_DMAP_PEND_HI, 31, 0⟩
/-- R294. -/
def HD_DMAP_JSEQ : Nat := hdBase + 0x60000 + 0x18
def HD_DMAP_JSEQ_SEQ : FRef := ⟨HD_DMAP_JSEQ, 31, 0⟩
/-- R294. -/
def HD_DMAP_JDEF : Nat := hdBase + 0x60000 + 0x1c
def HD_DMAP_JDEF_JDEF : FRef := ⟨HD_DMAP_JDEF, 31, 0⟩
/-- R294. -/
def HD_DMAP_RMAP (i : Nat) : Nat := hdBase + 0x60000 + 0x20 + i * 4
def HD_DMAP_RMAP_F (i : Nat) : FRef := ⟨HD_DMAP_RMAP i, 31, 0⟩

/-! Block HD_MEE. -/

/-- R295. -/
def HD_MEE_CTL : Nat := hdBase + 0x70000
def HD_MEE_CTL_LOCK : FRef := ⟨HD_MEE_CTL, 0, 0⟩
/-- R295. -/
def HD_MEE_STAT : Nat := hdBase + 0x70000 + 4
def HD_MEE_STAT_ACCERR : FRef := ⟨HD_MEE_STAT, 3, 3⟩
def HD_MEE_STAT_SWLOST : FRef := ⟨HD_MEE_STAT, 2, 2⟩
def HD_MEE_STAT_CFGERR : FRef := ⟨HD_MEE_STAT, 1, 1⟩
def HD_MEE_STAT_KEYRDY : FRef := ⟨HD_MEE_STAT, 0, 0⟩
/-- R295. -/
def HD_MEE_RBASE (i : Nat) : Nat := hdBase + 0x70000 + 0x100 + i * 0x10
def HD_MEE_RBASE_ADDR (i : Nat) : FRef := ⟨HD_MEE_RBASE i, 16, 0⟩
/-- R295. -/
def HD_MEE_RLIM (i : Nat) : Nat := hdBase + 0x70000 + 0x104 + i * 0x10
def HD_MEE_RLIM_ADDR (i : Nat) : FRef := ⟨HD_MEE_RLIM i, 16, 0⟩
/-- R295. -/
def HD_MEE_RCFG (i : Nat) : Nat := hdBase + 0x70000 + 0x108 + i * 0x10
def HD_MEE_RCFG_EN (i : Nat) : FRef := ⟨HD_MEE_RCFG i, 8, 8⟩
def HD_MEE_RCFG_KSLOT (i : Nat) : FRef := ⟨HD_MEE_RCFG i, 4, 0⟩

/-! Block LNK. -/

/-- R328. -/
def LNK_CTL (b : Nat) : Nat := b
def LNK_CTL_EYEMIN (b : Nat) : FRef := ⟨LNK_CTL b, 13, 8⟩
def LNK_CTL_RETRYMAX (b : Nat) : FRef := ⟨LNK_CTL b, 7, 0⟩
/-- R328. -/
def LNK_STAT (b : Nat) : Nat := b + 4
def LNK_STAT_ACCERR (b : Nat) : FRef := ⟨LNK_STAT b, 4, 4⟩
def LNK_STAT_SWLOST (b : Nat) : FRef := ⟨LNK_STAT b, 3, 3⟩
def LNK_STAT_CMDREF (b : Nat) : FRef := ⟨LNK_STAT b, 2, 2⟩
def LNK_STAT_MIDERR (b : Nat) : FRef := ⟨LNK_STAT b, 1, 1⟩
def LNK_STAT_LINKLOSS (b : Nat) : FRef := ⟨LNK_STAT b, 0, 0⟩
/-- R328. -/
def LNK_CMD (b : Nat) : Nat := b + 8
def LNK_CMD_MOD (b : Nat) : FRef := ⟨LNK_CMD b, 12, 8⟩
def LNK_CMD_OP (b : Nat) : FRef := ⟨LNK_CMD b, 3, 0⟩
/-- R328. -/
def LNK_FABAUD0 (b : Nat) : Nat := b + 0xc
def LNK_FABAUD0_OCC (b : Nat) : FRef := ⟨LNK_FABAUD0 b, 31, 16⟩
def LNK_FABAUD0_CRED (b : Nat) : FRef := ⟨LNK_FABAUD0 b, 15, 0⟩
/-- R328. -/
def LNK_FABAUD1 (b : Nat) : Nat := b + 0x10
def LNK_FABAUD1_RETP (b : Nat) : FRef := ⟨LNK_FABAUD1 b, 15, 0⟩
/-- R328. -/
def LNK_MST (b i : Nat) : Nat := b + 0x100 + i * 0x20
def LNK_MST_STATE (b i : Nat) : FRef := ⟨LNK_MST b i, 31, 29⟩
def LNK_MST_X8 (b i : Nat) : FRef := ⟨LNK_MST b i, 28, 28⟩
def LNK_MST_SPUSED (b i : Nat) : FRef := ⟨LNK_MST b i, 27, 26⟩
def LNK_MST_MARG (b i : Nat) : FRef := ⟨LNK_MST b i, 3, 3⟩
def LNK_MST_SPLICE (b i : Nat) : FRef := ⟨LNK_MST b i, 2, 2⟩
def LNK_MST_DEGR (b i : Nat) : FRef := ⟨LNK_MST b i, 1, 1⟩
def LNK_MST_DOWNED (b i : Nat) : FRef := ⟨LNK_MST b i, 0, 0⟩
/-- R328. -/
def LNK_LMAP (b i : Nat) : Nat := b + 0x104 + i * 0x20
def LNK_LMAP_BAD (b i : Nat) : FRef := ⟨LNK_LMAP b i, 17, 0⟩
/-- R328. -/
def LNK_EYE (b i : Nat) : Nat := b + 0x108 + i * 0x20
def LNK_EYE_LANE (b i : Nat) : FRef := ⟨LNK_EYE b i, 12, 8⟩
def LNK_EYE_MARGIN (b i : Nat) : FRef := ⟨LNK_EYE b i, 5, 0⟩
/-- R328. -/
def LNK_RETRY (b i : Nat) : Nat := b + 0x10c + i * 0x20
def LNK_RETRY_COUNT (b i : Nat) : FRef := ⟨LNK_RETRY b i, 31, 0⟩
/-- R328. -/
def LNK_CRAUD0 (b i : Nat) : Nat := b + 0x110 + i * 0x20
def LNK_CRAUD0_TXCRED (b i : Nat) : FRef := ⟨LNK_CRAUD0 b i, 31, 0⟩
/-- R328. -/
def LNK_CRAUD1 (b i : Nat) : Nat := b + 0x114 + i * 0x20
def LNK_CRAUD1_RXUSED (b i : Nat) : FRef := ⟨LNK_CRAUD1 b i, 31, 0⟩
/-- R328. -/
def LNK_CRAUD2 (b i : Nat) : Nat := b + 0x118 + i * 0x20
def LNK_CRAUD2_RETPEND (b i : Nat) : FRef := ⟨LNK_CRAUD2 b i, 31, 0⟩

/-! Block REG. -/

/-- R329. -/
def REG_BSTAT (b : Nat) : Nat := b
def REG_BSTAT_ACCERR (b : Nat) : FRef := ⟨REG_BSTAT b, 0, 0⟩
/-- R329. -/
def REG_CMD (b : Nat) : Nat := b + 4
def REG_CMD_SNAP (b : Nat) : FRef := ⟨REG_CMD b, 0, 0⟩
/-- R329. -/
def REG_CFG (b i : Nat) : Nat := b + 0x100 + i * 0x20
def REG_CFG_GW (b i : Nat) : FRef := ⟨REG_CFG b i, 31, 16⟩
def REG_CFG_GR (b i : Nat) : FRef := ⟨REG_CFG b i, 15, 0⟩
/-- R329. -/
def REG_CTL (b i : Nat) : Nat := b + 0x104 + i * 0x20
def REG_CTL_RT (b i : Nat) : FRef := ⟨REG_CTL b i, 11, 11⟩
def REG_CTL_RANK (b i : Nat) : FRef := ⟨REG_CTL b i, 10, 8⟩
def REG_CTL_INTL (b i : Nat) : FRef := ⟨REG_CTL b i, 4, 4⟩
def REG_CTL_TMASK (b i : Nat) : FRef := ⟨REG_CTL b i, 3, 0⟩
/-- R329. -/
def REG_EFF (b i : Nat) : Nat := b + 0x108 + i * 0x20
def REG_EFF_GWEFF (b i : Nat) : FRef := ⟨REG_EFF b i, 31, 16⟩
def REG_EFF_GREFF (b i : Nat) : FRef := ⟨REG_EFF b i, 15, 0⟩
/-- R329. -/
def REG_STAT (b i : Nat) : Nat := b + 0x10c + i * 0x20
def REG_STAT_CAUSE (b i : Nat) : FRef := ⟨REG_STAT b i, 7, 6⟩
def REG_STAT_OVERSUB (b i : Nat) : FRef := ⟨REG_STAT b i, 5, 5⟩
def REG_STAT_MISS (b i : Nat) : FRef := ⟨REG_STAT b i, 4, 4⟩
def REG_STAT_XOK (b i : Nat) : FRef := ⟨REG_STAT b i, 3, 3⟩
def REG_STAT_XLOW (b i : Nat) : FRef := ⟨REG_STAT b i, 2, 2⟩
def REG_STAT_LOW (b i : Nat) : FRef := ⟨REG_STAT b i, 1, 1⟩
/-- R329. -/
def REG_AUD (b i : Nat) : Nat := b + 0x110 + i * 0x20
def REG_AUD_USEDR (b i : Nat) : FRef := ⟨REG_AUD b i, 31, 16⟩
def REG_AUD_USEDW (b i : Nat) : FRef := ⟨REG_AUD b i, 15, 0⟩
/-- R329. -/
def REG_AUD2 (b i : Nat) : Nat := b + 0x114 + i * 0x20
def REG_AUD2_OVER (b i : Nat) : FRef := ⟨REG_AUD2 b i, 31, 16⟩
def REG_AUD2_REFP (b i : Nat) : FRef := ⟨REG_AUD2 b i, 15, 0⟩
/-- R329. -/
def REG_CNT (b i : Nat) : Nat := b + 0x118 + i * 0x20
def REG_CNT_MISSCNT (b i : Nat) : FRef := ⟨REG_CNT b i, 31, 16⟩
def REG_CNT_LOWCNT (b i : Nat) : FRef := ⟨REG_CNT b i, 15, 0⟩

/-! Block HD_DMA. -/

/-- R330. -/
def DMA_STAT : Nat := hdBase + 0xB0000
def DMA_STAT_ACCERR : FRef := ⟨DMA_STAT, 17, 17⟩
def DMA_STAT_CMDREF : FRef := ⟨DMA_STAT, 16, 16⟩
def DMA_STAT_HALT : FRef := ⟨DMA_STAT, 15, 0⟩
/-- R330. -/
def DMA_CMD : Nat := hdBase + 0xB0000 + 4
def DMA_CMD_CH : FRef := ⟨DMA_CMD, 11, 8⟩
def DMA_CMD_OP : FRef := ⟨DMA_CMD, 3, 0⟩
/-- R330. -/
def DMA_AUD : Nat := hdBase + 0xB0000 + 8
def DMA_AUD_INFL : FRef := ⟨DMA_AUD, 8, 0⟩
/-- R330. -/
def DMA_RBASE_LO (i : Nat) : Nat := hdBase + 0xB0000 + 0x100 + i * 0x20
def DMA_RBASE_LO_BASE (i : Nat) : FRef := ⟨DMA_RBASE_LO i, 31, 5⟩
/-- R330. -/
def DMA_RBASE_HI (i : Nat) : Nat := hdBase + 0xB0000 + 0x104 + i * 0x20
def DMA_RBASE_HI_BASE (i : Nat) : FRef := ⟨DMA_RBASE_HI i, 15, 0⟩
/-- R330. -/
def DMA_CBASE_LO (i : Nat) : Nat := hdBase + 0xB0000 + 0x108 + i * 0x20
def DMA_CBASE_LO_BASE (i : Nat) : FRef := ⟨DMA_CBASE_LO i, 31, 4⟩
/-- R330. -/
def DMA_CBASE_HI (i : Nat) : Nat := hdBase + 0xB0000 + 0x10c + i * 0x20
def DMA_CBASE_HI_BASE (i : Nat) : FRef := ⟨DMA_CBASE_HI i, 15, 0⟩
/-- R330. -/
def DMA_CFG (i : Nat) : Nat := hdBase + 0xB0000 + 0x110 + i * 0x20
def DMA_CFG_DEVCTX (i : Nat) : FRef := ⟨DMA_CFG i, 31, 16⟩
def DMA_CFG_LOG2SZ (i : Nat) : FRef := ⟨DMA_CFG i, 11, 8⟩
def DMA_CFG_RT (i : Nat) : FRef := ⟨DMA_CFG i, 0, 0⟩
/-- R330. -/
def DMA_DB (i : Nat) : Nat := hdBase + 0xB0000 + 0x114 + i * 0x20
def DMA_DB_TAIL (i : Nat) : FRef := ⟨DMA_DB i, 11, 0⟩
/-- R330. -/
def DMA_PTR (i : Nat) : Nat := hdBase + 0xB0000 + 0x118 + i * 0x20
def DMA_PTR_DBTAIL (i : Nat) : FRef := ⟨DMA_PTR i, 27, 16⟩
def DMA_PTR_HEAD (i : Nat) : FRef := ⟨DMA_PTR i, 11, 0⟩
/-- R330. -/
def DMA_CST (i : Nat) : Nat := hdBase + 0xB0000 + 0x11c + i * 0x20
def DMA_CST_STATE (i : Nat) : FRef := ⟨DMA_CST i, 31, 30⟩
def DMA_CST_INFL (i : Nat) : FRef := ⟨DMA_CST i, 4, 0⟩

/-! Block HD_FW. -/

/-- R331. -/
def FW_CTL : Nat := hdBase + 0xA0000
def FW_CTL_LOCK : FRef := ⟨FW_CTL, 31, 31⟩
def FW_CTL_GRANK : FRef := ⟨FW_CTL, 9, 8⟩
def FW_CTL_OUTCORE : FRef := ⟨FW_CTL, 1, 1⟩
def FW_CTL_OUTSTW : FRef := ⟨FW_CTL, 0, 0⟩
/-- R331. -/
def FW_STAT : Nat := hdBase + 0xA0000 + 4
def FW_STAT_ACCERR : FRef := ⟨FW_STAT, 3, 3⟩
def FW_STAT_SWLOST : FRef := ⟨FW_STAT, 2, 2⟩
def FW_STAT_DENY : FRef := ⟨FW_STAT, 1, 1⟩
def FW_STAT_GSON : FRef := ⟨FW_STAT, 0, 0⟩
/-- R331. -/
def FW_DENYCNT : Nat := hdBase + 0xA0000 + 8
def FW_DENYCNT_COUNT : FRef := ⟨FW_DENYCNT, 31, 0⟩
/-- R331. -/
def FW_DLOG_LO : Nat := hdBase + 0xA0000 + 0xc
def FW_DLOG_LO_ADDR : FRef := ⟨FW_DLOG_LO, 31, 0⟩
/-- R331. -/
def FW_DLOG_HI : Nat := hdBase + 0xA0000 + 0x10
def FW_DLOG_HI_MID : FRef := ⟨FW_DLOG_HI, 31, 20⟩
def FW_DLOG_HI_WHY : FRef := ⟨FW_DLOG_HI, 19, 16⟩
def FW_DLOG_HI_ADDR : FRef := ⟨FW_DLOG_HI, 15, 0⟩
/-- R331. -/
def FW_CMD : Nat := hdBase + 0xA0000 + 0x14
def FW_CMD_SNAP : FRef := ⟨FW_CMD, 0, 0⟩
/-- R331. -/
def FW_WBASE_LO (i : Nat) : Nat := hdBase + 0xA0000 + 0x100 + i * 0x20
def FW_WBASE_LO_ADDR (i : Nat) : FRef := ⟨FW_WBASE_LO i, 31, 12⟩
/-- R331. -/
def FW_WBASE_HI (i : Nat) : Nat := hdBase + 0xA0000 + 0x104 + i * 0x20
def FW_WBASE_HI_ADDR (i : Nat) : FRef := ⟨FW_WBASE_HI i, 15, 0⟩
/-- R331. -/
def FW_WLIM_LO (i : Nat) : Nat := hdBase + 0xA0000 + 0x108 + i * 0x20
def FW_WLIM_LO_ADDR (i : Nat) : FRef := ⟨FW_WLIM_LO i, 31, 12⟩
/-- R331. -/
def FW_WLIM_HI (i : Nat) : Nat := hdBase + 0xA0000 + 0x10c + i * 0x20
def FW_WLIM_HI_ADDR (i : Nat) : FRef := ⟨FW_WLIM_HI i, 15, 0⟩
/-- R331. -/
def FW_WCFG (i : Nat) : Nat := hdBase + 0xA0000 + 0x110 + i * 0x20
def FW_WCFG_MIDHI (i : Nat) : FRef := ⟨FW_WCFG i, 31, 24⟩
def FW_WCFG_MIDLO (i : Nat) : FRef := ⟨FW_WCFG i, 23, 16⟩
def FW_WCFG_RATE (i : Nat) : FRef := ⟨FW_WCFG i, 15, 4⟩
def FW_WCFG_EN (i : Nat) : FRef := ⟨FW_WCFG i, 2, 2⟩
def FW_WCFG_W (i : Nat) : FRef := ⟨FW_WCFG i, 1, 1⟩
def FW_WCFG_R (i : Nat) : FRef := ⟨FW_WCFG i, 0, 0⟩

/-! Block HD_TB. -/

/-- R367. -/
def TB_CTL : Nat := hdBase + 0xC0000
def TB_CTL_PTPPORT : FRef := ⟨TB_CTL, 7, 4⟩
def TB_CTL_PTPEN : FRef := ⟨TB_CTL, 0, 0⟩
/-- R367. -/
def TB_STAT : Nat := hdBase + 0xC0000 + 4
def TB_STAT_ACCERR : FRef := ⟨TB_STAT, 4, 4⟩
def TB_STAT_OFSTEP : FRef := ⟨TB_STAT, 3, 3⟩
def TB_STAT_LOCKLOST : FRef := ⟨TB_STAT, 2, 2⟩
def TB_STAT_LOCKGAIN : FRef := ⟨TB_STAT, 1, 1⟩
def TB_STAT_LOCKED : FRef := ⟨TB_STAT, 0, 0⟩
/-- R367. -/
def TB_NOW_LO : Nat := hdBase + 0xC0000 + 8
def TB_NOW_LO_VALUE : FRef := ⟨TB_NOW_LO, 31, 0⟩
/-- R367. -/
def TB_NOW_HI : Nat := hdBase + 0xC0000 + 0xc
def TB_NOW_HI_VALUE : FRef := ⟨TB_NOW_HI, 31, 0⟩
/-- R367. -/
def TB_OFS_LO : Nat := hdBase + 0xC0000 + 0x10
def TB_OFS_LO_VALUE : FRef := ⟨TB_OFS_LO, 31, 0⟩
/-- R367. -/
def TB_OFS_HI : Nat := hdBase + 0xC0000 + 0x14
def TB_OFS_HI_VALUE : FRef := ⟨TB_OFS_HI, 31, 0⟩
/-- R367. -/
def TB_RATE : Nat := hdBase + 0xC0000 + 0x18
def TB_RATE_RATE : FRef := ⟨TB_RATE, 31, 0⟩
/-- R367. -/
def TB_SYNCTO : Nat := hdBase + 0xC0000 + 0x1c
def TB_SYNCTO_SYNCTO : FRef := ⟨TB_SYNCTO, 15, 0⟩

/-! Block HD_ING. -/

/-- R368. -/
def ING_CTL : Nat := hdBase + 0xD0000
def ING_CTL_EN : FRef := ⟨ING_CTL, 0, 0⟩
/-- R368. -/
def ING_STAT : Nat := hdBase + 0xD0000 + 4
def ING_STAT_ACCERR : FRef := ⟨ING_STAT, 3, 3⟩
def ING_STAT_CMDREF : FRef := ⟨ING_STAT, 2, 2⟩
def ING_STAT_CFGERR : FRef := ⟨ING_STAT, 1, 1⟩
def ING_STAT_RUN : FRef := ⟨ING_STAT, 0, 0⟩
/-- R368. -/
def ING_CMD : Nat := hdBase + 0xD0000 + 8
def ING_CMD_SNAP : FRef := ⟨ING_CMD, 0, 0⟩
/-- R368. -/
def ING_STBASE_LO : Nat := hdBase + 0xD0000 + 0xc
def ING_STBASE_LO_BASE : FRef := ⟨ING_STBASE_LO, 31, 6⟩
/-- R368. -/
def ING_STBASE_HI : Nat := hdBase + 0xD0000 + 0x10
def ING_STBASE_HI_BASE : FRef := ⟨ING_STBASE_HI, 15, 0⟩
/-- R368. -/
def ING_DEVCTX : Nat := hdBase + 0xD0000 + 0x14
def ING_DEVCTX_DEVCTX : FRef := ⟨ING_DEVCTX, 15, 0⟩
/-- R368. -/
def ING_ETHLAT (i : Nat) : Nat := hdBase + 0xD0000 + 0x20 + i * 4
def ING_ETHLAT_LAT (i : Nat) : FRef := ⟨ING_ETHLAT i, 15, 0⟩
/-- R368. -/
def ING_LATE : Nat := hdBase + 0xD0000 + 0x40
def ING_LATE_COUNT : FRef := ⟨ING_LATE, 31, 0⟩
/-- R368. -/
def ING_OVERRUN : Nat := hdBase + 0xD0000 + 0x44
def ING_OVERRUN_COUNT : FRef := ⟨ING_OVERRUN, 31, 0⟩
/-- R369. -/
def ING_RCFG (i : Nat) : Nat := hdBase + 0xD0000 + 0x1000 + i * 0x40
def ING_RCFG_FLUSH (i : Nat) : FRef := ⟨ING_RCFG i, 31, 16⟩
def ING_RCFG_LOG2SLOT (i : Nat) : FRef := ⟨ING_RCFG i, 15, 11⟩
def ING_RCFG_LOG2N (i : Nat) : FRef := ⟨ING_RCFG i, 10, 7⟩
def ING_RCFG_RT (i : Nat) : FRef := ⟨ING_RCFG i, 1, 1⟩
def ING_RCFG_WMIE (i : Nat) : FRef := ⟨ING_RCFG i, 0, 0⟩
/-- R369. -/
def ING_RBASE_LO (i : Nat) : Nat := hdBase + 0xD0000 + 0x1004 + i * 0x40
def ING_RBASE_LO_BASE (i : Nat) : FRef := ⟨ING_RBASE_LO i, 31, 6⟩
/-- R369. -/
def ING_RBASE_HI (i : Nat) : Nat := hdBase + 0xD0000 + 0x1008 + i * 0x40
def ING_RBASE_HI_BASE (i : Nat) : FRef := ⟨ING_RBASE_HI i, 15, 0⟩
/-- R369. -/
def ING_RPTR (i : Nat) : Nat := hdBase + 0xD0000 + 0x100c + i * 0x40
def ING_RPTR_WR (i : Nat) : FRef := ⟨ING_RPTR i, 31, 16⟩
def ING_RPTR_TK (i : Nat) : FRef := ⟨ING_RPTR i, 15, 0⟩
/-- R369. -/
def ING_RCONS (i : Nat) : Nat := hdBase + 0xD0000 + 0x1010 + i * 0x40
def ING_RCONS_RD (i : Nat) : FRef := ⟨ING_RCONS i, 15, 0⟩
/-- R369. -/
def ING_WM (i : Nat) : Nat := hdBase + 0xD0000 + 0x1014 + i * 0x40
def ING_WM_MARK (i : Nat) : FRef := ⟨ING_WM i, 31, 16⟩
def ING_WM_XUP (i : Nat) : FRef := ⟨ING_WM i, 3, 3⟩
def ING_WM_XDOWN (i : Nat) : FRef := ⟨ING_WM i, 2, 2⟩
def ING_WM_ABOVE (i : Nat) : FRef := ⟨ING_WM i, 1, 1⟩
/-- R369. -/
def ING_WMCNT (i : Nat) : Nat := hdBase + 0xD0000 + 0x1018 + i * 0x40
def ING_WMCNT_XCNT (i : Nat) : FRef := ⟨ING_WMCNT i, 15, 0⟩
/-- R369. -/
def ING_TAKE (i : Nat) : Nat := hdBase + 0xD0000 + 0x101c + i * 0x40
def ING_TAKE_B (i : Nat) : FRef := ⟨ING_TAKE i, 15, 0⟩
/-- R369. -/
def ING_TAKEST (i : Nat) : Nat := hdBase + 0xD0000 + 0x1020 + i * 0x40
def ING_TAKEST_DONE (i : Nat) : FRef := ⟨ING_TAKEST i, 31, 31⟩
def ING_TAKEST_PEND (i : Nat) : FRef := ⟨ING_TAKEST i, 30, 30⟩
def ING_TAKEST_N (i : Nat) : FRef := ⟨ING_TAKEST i, 15, 0⟩
/-- R369. -/
def ING_TAKEFIRST (i : Nat) : Nat := hdBase + 0xD0000 + 0x1024 + i * 0x40
def ING_TAKEFIRST_FIRST (i : Nat) : FRef := ⟨ING_TAKEFIRST i, 15, 0⟩
/-- R369. -/
def ING_DROP (i : Nat) : Nat := hdBase + 0xD0000 + 0x1028 + i * 0x40
def ING_DROP_DROPCNT (i : Nat) : FRef := ⟨ING_DROP i, 31, 0⟩

/-! Block HD_EGO. -/

/-- R370. -/
def EGO_CTL : Nat := hdBase + 0x110000
def EGO_CTL_EN : FRef := ⟨EGO_CTL, 0, 0⟩
/-- R370. -/
def EGO_STAT : Nat := hdBase + 0x110000 + 4
def EGO_STAT_ACCERR : FRef := ⟨EGO_STAT, 9, 9⟩
def EGO_STAT_BIASERR : FRef := ⟨EGO_STAT, 8, 8⟩
def EGO_STAT_CMDREF : FRef := ⟨EGO_STAT, 7, 7⟩
def EGO_STAT_XINV : FRef := ⟨EGO_STAT, 6, 6⟩
def EGO_STAT_XVAL : FRef := ⟨EGO_STAT, 5, 5⟩
def EGO_STAT_INVALID : FRef := ⟨EGO_STAT, 4, 4⟩
def EGO_STAT_DR : FRef := ⟨EGO_STAT, 3, 3⟩
def EGO_STAT_WHL : FRef := ⟨EGO_STAT, 2, 2⟩
def EGO_STAT_IMU1 : FRef := ⟨EGO_STAT, 1, 1⟩
def EGO_STAT_IMU0 : FRef := ⟨EGO_STAT, 0, 0⟩
/-- R370. -/
def EGO_BIAS_LO : Nat := hdBase + 0x110000 + 8
def EGO_BIAS_LO_ADDR : FRef := ⟨EGO_BIAS_LO, 31, 7⟩
/-- R370. -/
def EGO_BIAS_HI : Nat := hdBase + 0x110000 + 0xc
def EGO_BIAS_HI_ADDR : FRef := ⟨EGO_BIAS_HI, 15, 0⟩
/-- R370. -/
def EGO_BIASCMD : Nat := hdBase + 0x110000 + 0x10
def EGO_BIASCMD_APPLY : FRef := ⟨EGO_BIASCMD, 0, 0⟩
/-- R370. -/
def EGO_BIASSEQ : Nat := hdBase + 0x110000 + 0x14
def EGO_BIASSEQ_SEQ : FRef := ⟨EGO_BIASSEQ, 31, 0⟩
/-- R370. -/
def EGO_TICK_LO : Nat := hdBase + 0x110000 + 0x18
def EGO_TICK_LO_K : FRef := ⟨EGO_TICK_LO, 31, 0⟩
/-- R370. -/
def EGO_TICK_HI : Nat := hdBase + 0x110000 + 0x1c
def EGO_TICK_HI_K : FRef := ⟨EGO_TICK_HI, 31, 0⟩

/-! Block HD_ALN. -/

/-- R371. -/
def ALN_CTL : Nat := hdBase + 0x120000
def ALN_CTL_EN : FRef := ⟨ALN_CTL, 0, 0⟩
/-- R371. -/
def ALN_STAT : Nat := hdBase + 0x120000 + 4
def ALN_STAT_SWLOST : FRef := ⟨ALN_STAT, 7, 7⟩
def ALN_STAT_ACCERR : FRef := ⟨ALN_STAT, 6, 6⟩
def ALN_STAT_CMDREF : FRef := ⟨ALN_STAT, 5, 5⟩
def ALN_STAT_CFGERR : FRef := ⟨ALN_STAT, 4, 4⟩
def ALN_STAT_LIMHIT : FRef := ⟨ALN_STAT, 3, 3⟩
def ALN_STAT_HALT : FRef := ⟨ALN_STAT, 2, 2⟩
def ALN_STAT_BUSY : FRef := ⟨ALN_STAT, 0, 0⟩
/-- R371. -/
def ALN_CFG : Nat := hdBase + 0x120000 + 8
def ALN_CFG_DEVCTX : FRef := ⟨ALN_CFG, 31, 16⟩
def ALN_CFG_LOG2SZ : FRef := ⟨ALN_CFG, 11, 8⟩
/-- R371. -/
def ALN_RBASE_LO : Nat := hdBase + 0x120000 + 0xc
def ALN_RBASE_LO_BASE : FRef := ⟨ALN_RBASE_LO, 31, 6⟩
/-- R371. -/
def ALN_RBASE_HI : Nat := hdBase + 0x120000 + 0x10
def ALN_RBASE_HI_ADDR : FRef := ⟨ALN_RBASE_HI, 15, 0⟩
/-- R371. -/
def ALN_CBASE_LO : Nat := hdBase + 0x120000 + 0x14
def ALN_CBASE_LO_BASE : FRef := ⟨ALN_CBASE_LO, 31, 6⟩
/-- R371. -/
def ALN_CBASE_HI : Nat := hdBase + 0x120000 + 0x18
def ALN_CBASE_HI_ADDR : FRef := ⟨ALN_CBASE_HI, 15, 0⟩
/-- R371. -/
def ALN_DB : Nat := hdBase + 0x120000 + 0x1c
def ALN_DB_TAIL : FRef := ⟨ALN_DB, 11, 0⟩
/-- R371. -/
def ALN_PTR : Nat := hdBase + 0x120000 + 0x20
def ALN_PTR_DBTAIL : FRef := ⟨ALN_PTR, 27, 16⟩
def ALN_PTR_HEAD : FRef := ⟨ALN_PTR, 11, 0⟩
/-- R371. -/
def ALN_CMD : Nat := hdBase + 0x120000 + 0x24
def ALN_CMD_OP : FRef := ⟨ALN_CMD, 3, 0⟩
/-- R371. -/
def ALN_GSEQ : Nat := hdBase + 0x120000 + 0x28
def ALN_GSEQ_SEQ : FRef := ⟨ALN_GSEQ, 31, 0⟩
/-- R371. -/
def ALN_CALCTL : Nat := hdBase + 0x120000 + 0x2c
def ALN_CALCTL_LOCK : FRef := ⟨ALN_CALCTL, 31, 31⟩
/-- R371. -/
def ALN_CALBASE_LO : Nat := hdBase + 0x120000 + 0x30
def ALN_CALBASE_LO_ADDR : FRef := ⟨ALN_CALBASE_LO, 31, 11⟩
/-- R371. -/
def ALN_CALBASE_HI : Nat := hdBase + 0x120000 + 0x34
def ALN_CALBASE_HI_ADDR : FRef := ⟨ALN_CALBASE_HI, 15, 0⟩
/-- R371. -/
def ALN_GRID_LO : Nat := hdBase + 0x120000 + 0x38
def ALN_GRID_LO_ADDR : FRef := ⟨ALN_GRID_LO, 31, 6⟩
/-- R371. -/
def ALN_GRID_HI : Nat := hdBase + 0x120000 + 0x3c
def ALN_GRID_HI_ADDR : FRef := ⟨ALN_GRID_HI, 15, 0⟩

/-! Block HD_TRJ. -/

/-- R397. -/
def TRJ_CTL : Nat := hdBase + 0x130000
def TRJ_CTL_RELTO : FRef := ⟨TRJ_CTL, 31, 24⟩
def TRJ_CTL_EPORT : FRef := ⟨TRJ_CTL, 6, 4⟩
def TRJ_CTL_EGREN : FRef := ⟨TRJ_CTL, 1, 1⟩
def TRJ_CTL_EN : FRef := ⟨TRJ_CTL, 0, 0⟩
/-- R397. -/
def TRJ_STAT : Nat := hdBase + 0x130000 + 4
def TRJ_STAT_ACCERR : FRef := ⟨TRJ_STAT, 10, 10⟩
def TRJ_STAT_CMDREF : FRef := ⟨TRJ_STAT, 9, 9⟩
def TRJ_STAT_RELDROP : FRef := ⟨TRJ_STAT, 8, 8⟩
def TRJ_STAT_FAULT : FRef := ⟨TRJ_STAT, 7, 7⟩
def TRJ_STAT_NOVAL : FRef := ⟨TRJ_STAT, 6, 6⟩
def TRJ_STAT_CUT : FRef := ⟨TRJ_STAT, 5, 5⟩
def TRJ_STAT_PUB : FRef := ⟨TRJ_STAT, 4, 4⟩
def TRJ_STAT_STATE : FRef := ⟨TRJ_STAT, 1, 0⟩
/-- R397. -/
def TRJ_CMD : Nat := hdBase + 0x130000 + 8
def TRJ_CMD_OP : FRef := ⟨TRJ_CMD, 3, 0⟩
/-- R398. -/
def TRJ_PLAN_LO : Nat := hdBase + 0x130000 + 0xc
def TRJ_PLAN_LO_ADDR : FRef := ⟨TRJ_PLAN_LO, 31, 6⟩
/-- R398. -/
def TRJ_PLAN_HI : Nat := hdBase + 0x130000 + 0x10
def TRJ_PLAN_HI_ADDR : FRef := ⟨TRJ_PLAN_HI, 15, 0⟩
/-- R398. -/
def TRJ_CFG : Nat := hdBase + 0x130000 + 0x14
def TRJ_CFG_DEVCTX : FRef := ⟨TRJ_CFG, 31, 16⟩
def TRJ_CFG_LOG2DN : FRef := ⟨TRJ_CFG, 3, 0⟩
/-- R398. -/
def TRJ_DRBASE_LO : Nat := hdBase + 0x130000 + 0x18
def TRJ_DRBASE_LO_BASE : FRef := ⟨TRJ_DRBASE_LO, 31, 5⟩
/-- R398. -/
def TRJ_DRBASE_HI : Nat := hdBase + 0x130000 + 0x1c
def TRJ_DRBASE_HI_ADDR : FRef := ⟨TRJ_DRBASE_HI, 15, 0⟩
/-- R398. -/
def TRJ_DDB : Nat := hdBase + 0x130000 + 0x20
def TRJ_DDB_TAIL : FRef := ⟨TRJ_DDB, 9, 0⟩
/-- R398. -/
def TRJ_DPTR : Nat := hdBase + 0x130000 + 0x24
def TRJ_DPTR_DBTAIL : FRef := ⟨TRJ_DPTR, 25, 16⟩
def TRJ_DPTR_HEAD : FRef := ⟨TRJ_DPTR, 9, 0⟩
/-- R398. -/
def TRJ_RES_LO : Nat := hdBase + 0x130000 + 0x28
def TRJ_RES_LO_BASE : FRef := ⟨TRJ_RES_LO, 31, 11⟩
/-- R398. -/
def TRJ_RES_HI : Nat := hdBase + 0x130000 + 0x2c
def TRJ_RES_HI_ADDR : FRef := ⟨TRJ_RES_HI, 15, 0⟩
/-- R399. -/
def TRJ_SEQ : Nat := hdBase + 0x130000 + 0x30
def TRJ_SEQ_SEQ : FRef := ⟨TRJ_SEQ, 31, 0⟩
/-- R399. -/
def TRJ_PROG : Nat := hdBase + 0x130000 + 0x34
def TRJ_PROG_NDIRTY : FRef := ⟨TRJ_PROG, 30, 16⟩
def TRJ_PROG_NDONE : FRef := ⟨TRJ_PROG, 14, 0⟩
/-- R399. -/
def TRJ_FLT : Nat := hdBase + 0x130000 + 0x38
def TRJ_FLT_PHASE : FRef := ⟨TRJ_FLT, 9, 8⟩
def TRJ_FLT_XCAUSE : FRef := ⟨TRJ_FLT, 7, 4⟩
def TRJ_FLT_CODE : FRef := ⟨TRJ_FLT, 3, 0⟩
/-- R398. -/
def TRJ_EMAC_LO : Nat := hdBase + 0x130000 + 0x3c
def TRJ_EMAC_LO_MAC : FRef := ⟨TRJ_EMAC_LO, 31, 0⟩
/-- R398. -/
def TRJ_EMAC_HI : Nat := hdBase + 0x130000 + 0x40
def TRJ_EMAC_HI_MAC : FRef := ⟨TRJ_EMAC_HI, 15, 0⟩
/-- R398. -/
def TRJ_EVLAN : Nat := hdBase + 0x130000 + 0x44
def TRJ_EVLAN_TCI : FRef := ⟨TRJ_EVLAN, 15, 0⟩
/-- R399. -/
def TRJ_CNT0 : Nat := hdBase + 0x130000 + 0x48
def TRJ_CNT0_CUTCNT : FRef := ⟨TRJ_CNT0, 31, 16⟩
def TRJ_CNT0_RELDROPCNT : FRef := ⟨TRJ_CNT0, 15, 0⟩
/-- R399. -/
def TRJ_CNT1 : Nat := hdBase + 0x130000 + 0x4c
def TRJ_CNT1_DSKIP : FRef := ⟨TRJ_CNT1, 31, 16⟩
def TRJ_CNT1_DERR : FRef := ⟨TRJ_CNT1, 15, 0⟩

/-! Block HD_CLP. -/

/-- R432. -/
def CLP_CTL : Nat := hdBase + 0x140000
def CLP_CTL_DEVCTX : FRef := ⟨CLP_CTL, 31, 16⟩
def CLP_CTL_LOG2SZ : FRef := ⟨CLP_CTL, 11, 8⟩
def CLP_CTL_EN : FRef := ⟨CLP_CTL, 0, 0⟩
/-- R432. -/
def CLP_STAT : Nat := hdBase + 0x140000 + 4
def CLP_STAT_ACCERR : FRef := ⟨CLP_STAT, 8, 8⟩
def CLP_STAT_CMDREF : FRef := ⟨CLP_STAT, 7, 7⟩
def CLP_STAT_HALT : FRef := ⟨CLP_STAT, 6, 6⟩
def CLP_STAT_GXB : FRef := ⟨CLP_STAT, 5, 5⟩
def CLP_STAT_GXA : FRef := ⟨CLP_STAT, 4, 4⟩
def CLP_STAT_LINKB : FRef := ⟨CLP_STAT, 3, 3⟩
def CLP_STAT_LINKA : FRef := ⟨CLP_STAT, 2, 2⟩
def CLP_STAT_GATEB : FRef := ⟨CLP_STAT, 1, 1⟩
def CLP_STAT_GATEA : FRef := ⟨CLP_STAT, 0, 0⟩
/-- R432. -/
def CLP_RBASE_LO : Nat := hdBase + 0x140000 + 8
def CLP_RBASE_LO_BASE : FRef := ⟨CLP_RBASE_LO, 31, 6⟩
/-- R432. -/
def CLP_RBASE_HI : Nat := hdBase + 0x140000 + 0xc
def CLP_RBASE_HI_BASE : FRef := ⟨CLP_RBASE_HI, 15, 0⟩
/-- R432. -/
def CLP_DB : Nat := hdBase + 0x140000 + 0x10
def CLP_DB_TAIL : FRef := ⟨CLP_DB, 11, 0⟩
/-- R432. -/
def CLP_PTR : Nat := hdBase + 0x140000 + 0x14
def CLP_PTR_DBTAIL : FRef := ⟨CLP_PTR, 27, 16⟩
def CLP_PTR_HEAD : FRef := ⟨CLP_PTR, 11, 0⟩
/-- R432. -/
def CLP_HB : Nat := hdBase + 0x140000 + 0x18
def CLP_HB_TASK : FRef := ⟨CLP_HB, 6, 0⟩
/-- R432. -/
def CLP_VOTE : Nat := hdBase + 0x140000 + 0x1c
def CLP_VOTE_MODB : FRef := ⟨CLP_VOTE, 9, 9⟩
def CLP_VOTE_MODA : FRef := ⟨CLP_VOTE, 8, 8⟩
def CLP_VOTE_DIEB : FRef := ⟨CLP_VOTE, 7, 4⟩
def CLP_VOTE_DIEA : FRef := ⟨CLP_VOTE, 3, 0⟩
/-- R432. -/
def CLP_CNT : Nat := hdBase + 0x140000 + 0x20
def CLP_CNT_DROPB : FRef := ⟨CLP_CNT, 31, 16⟩
def CLP_CNT_DROPA : FRef := ⟨CLP_CNT, 15, 0⟩
/-- R432. -/
def CLP_CMD : Nat := hdBase + 0x140000 + 0x24
def CLP_CMD_OP : FRef := ⟨CLP_CMD, 3, 0⟩

/-! Block MIR. -/

/-- R433. -/
def MIR_GEN (c : Nat) : Nat := mirBase c
def MIR_GEN_GEN (c : Nat) : FRef := ⟨MIR_GEN c, 31, 0⟩
/-- R433. -/
def MIR_GEN2 (c : Nat) : Nat := mirBase c + 0xffc
def MIR_GEN2_GEN (c : Nat) : FRef := ⟨MIR_GEN2 c, 31, 0⟩
/-- R433. -/
def MIR_STATE (c : Nat) : Nat := mirBase c + 4
def MIR_STATE_FLAGS (c : Nat) : FRef := ⟨MIR_STATE c, 23, 16⟩
def MIR_STATE_REASON (c : Nat) : FRef := ⟨MIR_STATE c, 15, 8⟩
def MIR_STATE_STATE (c : Nat) : FRef := ⟨MIR_STATE c, 2, 0⟩
/-- R433. -/
def MIR_SEQREF (c : Nat) : Nat := mirBase c + 8
def MIR_SEQREF_SEQ (c : Nat) : FRef := ⟨MIR_SEQREF c, 31, 0⟩
/-- R433. -/
def MIR_GSEQ (c : Nat) : Nat := mirBase c + 0xc
def MIR_GSEQ_SEQ (c : Nat) : FRef := ⟨MIR_GSEQ c, 31, 0⟩
/-- R433. -/
def MIR_TASKV (c i : Nat) : Nat := mirBase c + 0x10 + i * 4
def MIR_TASKV_V (c i : Nat) : FRef := ⟨MIR_TASKV c i, 31, 0⟩
/-- R433. -/
def MIR_REFUSE (c : Nat) : Nat := mirBase c + 0x20
def MIR_REFUSE_CODE (c : Nat) : FRef := ⟨MIR_REFUSE c, 31, 24⟩
def MIR_REFUSE_SAMPLE (c : Nat) : FRef := ⟨MIR_REFUSE c, 23, 16⟩
def MIR_REFUSE_COUNT (c : Nat) : FRef := ⟨MIR_REFUSE c, 15, 0⟩
/-- R433. -/
def MIR_LINK (c : Nat) : Nat := mirBase c + 0x24
def MIR_LINK_GAPS (c : Nat) : FRef := ⟨MIR_LINK c, 31, 16⟩
def MIR_LINK_BADFRM (c : Nat) : FRef := ⟨MIR_LINK c, 15, 0⟩
/-- R433. -/
def MIR_RSP (c i : Nat) : Nat := mirBase c + 0x100 + i * 4
def MIR_RSP_TAG (c i : Nat) : FRef := ⟨MIR_RSP c i, 31, 16⟩
def MIR_RSP_RESULT (c i : Nat) : FRef := ⟨MIR_RSP c i, 7, 0⟩

/-! Block HD_MBX. -/

/-- R465. -/
def MBX_CTL : Nat := hdBase + 0x200000
def MBX_CTL_LOCK : FRef := ⟨MBX_CTL, 31, 31⟩
/-- R465. -/
def MBX_STAT : Nat := hdBase + 0x200000 + 4
def MBX_STAT_ACCERR : FRef := ⟨MBX_STAT, 3, 3⟩
def MBX_STAT_SWLOST : FRef := ⟨MBX_STAT, 2, 2⟩
def MBX_STAT_CMDREF : FRef := ⟨MBX_STAT, 1, 1⟩
def MBX_STAT_IDERR : FRef := ⟨MBX_STAT, 0, 0⟩
/-- R465. -/
def MBX_CMD : Nat := hdBase + 0x200000 + 8
def MBX_CMD_SNAP : FRef := ⟨MBX_CMD, 0, 0⟩
/-- R465. -/
def MBX_IDERRCNT : Nat := hdBase + 0x200000 + 0xc
def MBX_IDERRCNT_COUNT : FRef := ⟨MBX_IDERRCNT, 31, 0⟩
/-- R465. -/
def MBX_ELOG : Nat := hdBase + 0x200000 + 0x10
def MBX_ELOG_MID : FRef := ⟨MBX_ELOG, 31, 20⟩
def MBX_ELOG_CH : FRef := ⟨MBX_ELOG, 19, 12⟩
def MBX_ELOG_OFS : FRef := ⟨MBX_ELOG, 4, 0⟩
/-- R465. -/
def MBX_FLAG (i : Nat) : Nat := hdBase + 0x200000 + 0x100 + i * 4
def MBX_FLAG_VALUE (i : Nat) : FRef := ⟨MBX_FLAG i, 31, 0⟩
/-- R466. -/
def MBX_CHTAB0 (i : Nat) : Nat := hdBase + 0x200000 + 0x1000 + i * 0x10
def MBX_CHTAB0_EN (i : Nat) : FRef := ⟨MBX_CHTAB0 i, 31, 31⟩
def MBX_CHTAB0_SMID (i : Nat) : FRef := ⟨MBX_CHTAB0 i, 27, 16⟩
def MBX_CHTAB0_RMID (i : Nat) : FRef := ⟨MBX_CHTAB0 i, 11, 0⟩
/-- R466. -/
def MBX_CHTAB1 (i : Nat) : Nat := hdBase + 0x200000 + 0x1004 + i * 0x10
def MBX_CHTAB1_KIND (i : Nat) : FRef := ⟨MBX_CHTAB1 i, 31, 29⟩
def MBX_CHTAB1_IDX (i : Nat) : FRef := ⟨MBX_CHTAB1 i, 28, 24⟩
def MBX_CHTAB1_EIID (i : Nat) : FRef := ⟨MBX_CHTAB1 i, 7, 0⟩
/-- R466. -/
def MBX_CHTAB2 (i : Nat) : Nat := hdBase + 0x200000 + 0x1008 + i * 0x10
def MBX_CHTAB2_KIND (i : Nat) : FRef := ⟨MBX_CHTAB2 i, 31, 29⟩
def MBX_CHTAB2_IDX (i : Nat) : FRef := ⟨MBX_CHTAB2 i, 28, 24⟩
def MBX_CHTAB2_EIID (i : Nat) : FRef := ⟨MBX_CHTAB2 i, 7, 0⟩
/-- R467. -/
def MBX_SPTR_LO (i : Nat) : Nat := hdBase + 0x200000 + 0x8000 + i * 0x20
def MBX_SPTR_LO_PTR (i : Nat) : FRef := ⟨MBX_SPTR_LO i, 31, 0⟩
/-- R467. -/
def MBX_SPTR_HI (i : Nat) : Nat := hdBase + 0x200000 + 0x8004 + i * 0x20
def MBX_SPTR_HI_PTR (i : Nat) : FRef := ⟨MBX_SPTR_HI i, 31, 0⟩
/-- R467. -/
def MBX_STAG (i : Nat) : Nat := hdBase + 0x200000 + 0x8008 + i * 0x20
def MBX_STAG_TAG (i : Nat) : FRef := ⟨MBX_STAG i, 31, 0⟩
/-- R467. -/
def MBX_CST (i : Nat) : Nat := hdBase + 0x200000 + 0x800c + i * 0x20
def MBX_CST_HELD (i : Nat) : FRef := ⟨MBX_CST i, 9, 9⟩
def MBX_CST_ENOTE (i : Nat) : FRef := ⟨MBX_CST i, 8, 8⟩
def MBX_CST_OCC (i : Nat) : FRef := ⟨MBX_CST i, 2, 0⟩
/-- R467. -/
def MBX_RPTR_LO (i : Nat) : Nat := hdBase + 0x200000 + 0x8010 + i * 0x20
def MBX_RPTR_LO_PTR (i : Nat) : FRef := ⟨MBX_RPTR_LO i, 31, 0⟩
/-- R467. -/
def MBX_RPTR_HI (i : Nat) : Nat := hdBase + 0x200000 + 0x8014 + i * 0x20
def MBX_RPTR_HI_PTR (i : Nat) : FRef := ⟨MBX_RPTR_HI i, 31, 0⟩
/-- R467. -/
def MBX_RTAG (i : Nat) : Nat := hdBase + 0x200000 + 0x8018 + i * 0x20
def MBX_RTAG_TAG (i : Nat) : FRef := ⟨MBX_RTAG i, 31, 0⟩
/-- R467. -/
def MBX_RPOP (i : Nat) : Nat := hdBase + 0x200000 + 0x801c + i * 0x20
def MBX_RPOP_POP (i : Nat) : FRef := ⟨MBX_RPOP i, 0, 0⟩
/-- R467. -/
def MBX_CNT (i : Nat) : Nat := hdBase + 0x200000 + 0xa000 + i * 4
def MBX_CNT_POSTS (i : Nat) : FRef := ⟨MBX_CNT i, 31, 16⟩
def MBX_CNT_POPS (i : Nat) : FRef := ⟨MBX_CNT i, 15, 0⟩

/-! Block HD_ACX. -/

/-- R468. -/
def ACX_STAT (k : Nat) : Nat := hdBase + 0x150000 + k * 0x1000
def ACX_STAT_ACCERR (k : Nat) : FRef := ⟨ACX_STAT k, 2, 2⟩
def ACX_STAT_UE (k : Nat) : FRef := ⟨ACX_STAT k, 1, 1⟩
def ACX_STAT_CE (k : Nat) : FRef := ⟨ACX_STAT k, 0, 0⟩
/-- R468. -/
def ACX_CMD (k : Nat) : Nat := hdBase + 0x150000 + k * 0x1000 + 4
def ACX_CMD_SNAP (k : Nat) : FRef := ⟨ACX_CMD k, 0, 0⟩
/-- R468. -/
def ACX_CECNT (k : Nat) : Nat := hdBase + 0x150000 + k * 0x1000 + 8
def ACX_CECNT_COUNT (k : Nat) : FRef := ⟨ACX_CECNT k, 31, 0⟩
/-- R468. -/
def ACX_UECNT (k : Nat) : Nat := hdBase + 0x150000 + k * 0x1000 + 0xc
def ACX_UECNT_COUNT (k : Nat) : FRef := ⟨ACX_UECNT k, 31, 0⟩
/-- R468. -/
def ACX_ELOG_LO (k : Nat) : Nat := hdBase + 0x150000 + k * 0x1000 + 0x10
def ACX_ELOG_LO_PA (k : Nat) : FRef := ⟨ACX_ELOG_LO k, 31, 6⟩
/-- R468. -/
def ACX_ELOG_HI (k : Nat) : Nat := hdBase + 0x150000 + k * 0x1000 + 0x14
def ACX_ELOG_HI_WHERE (k : Nat) : FRef := ⟨ACX_ELOG_HI k, 19, 16⟩
def ACX_ELOG_HI_PA (k : Nat) : FRef := ⟨ACX_ELOG_HI k, 15, 0⟩
/-- R468. -/
def MTIMECMP_LO (k i : Nat) : Nat := hdBase + 0x150000 + k * 0x1000 + 0x100 + i * 8
def MTIMECMP_LO_CMP (k i : Nat) : FRef := ⟨MTIMECMP_LO k i, 31, 0⟩
/-- R468. -/
def MTIMECMP_HI (k i : Nat) : Nat := hdBase + 0x150000 + k * 0x1000 + 0x104 + i * 8
def MTIMECMP_HI_CMP (k i : Nat) : FRef := ⟨MTIMECMP_HI k i, 31, 0⟩

/-! Block HD_IRQ. -/

/-- R469. -/
def IRQ_CTL : Nat := hdBase + 0x160000
def IRQ_CTL_PCIEN : FRef := ⟨IRQ_CTL, 1, 0⟩
/-- R469. -/
def IRQ_STAT : Nat := hdBase + 0x160000 + 4
def IRQ_STAT_ACCERR : FRef := ⟨IRQ_STAT, 1, 1⟩
def IRQ_STAT_MSIREF : FRef := ⟨IRQ_STAT, 0, 0⟩
/-- R469. -/
def IRQ_CMD : Nat := hdBase + 0x160000 + 8
def IRQ_CMD_SNAP : FRef := ⟨IRQ_CMD, 0, 0⟩
/-- R469. -/
def IRQ_MSIREFCNT : Nat := hdBase + 0x160000 + 0xc
def IRQ_MSIREFCNT_COUNT : FRef := ⟨IRQ_MSIREFCNT, 31, 0⟩
/-- R469. -/
def IRQ_MSIREFLOG : Nat := hdBase + 0x160000 + 0x10
def IRQ_MSIREFLOG_MID : FRef := ⟨IRQ_MSIREFLOG, 31, 20⟩
def IRQ_MSIREFLOG_LVL : FRef := ⟨IRQ_MSIREFLOG, 13, 13⟩
def IRQ_MSIREFLOG_HART : FRef := ⟨IRQ_MSIREFLOG, 12, 8⟩
def IRQ_MSIREFLOG_EIID : FRef := ⟨IRQ_MSIREFLOG, 7, 0⟩

/-! Block HD_HWS. -/

/-- R497. -/
def HWS_CTL : Nat := hdBase + 0x170000
def HWS_CTL_MODID : FRef := ⟨HWS_CTL, 8, 8⟩
def HWS_CTL_PORTEN : FRef := ⟨HWS_CTL, 2, 1⟩
def HWS_CTL_EN : FRef := ⟨HWS_CTL, 0, 0⟩
/-- R497. -/
def HWS_STAT : Nat := hdBase + 0x170000 + 4
def HWS_STAT_ACCERR : FRef := ⟨HWS_STAT, 13, 13⟩
def HWS_STAT_CMDREF : FRef := ⟨HWS_STAT, 12, 12⟩
def HWS_STAT_MIRBRK : FRef := ⟨HWS_STAT, 11, 11⟩
def HWS_STAT_RSDONE : FRef := ⟨HWS_STAT, 10, 10⟩
def HWS_STAT_LINKCHG : FRef := ⟨HWS_STAT, 9, 9⟩
def HWS_STAT_DMISM : FRef := ⟨HWS_STAT, 8, 8⟩
def HWS_STAT_DHALT : FRef := ⟨HWS_STAT, 7, 7⟩
def HWS_STAT_RESYNC : FRef := ⟨HWS_STAT, 3, 3⟩
def HWS_STAT_MIRON : FRef := ⟨HWS_STAT, 2, 2⟩
def HWS_STAT_UP1 : FRef := ⟨HWS_STAT, 1, 1⟩
def HWS_STAT_UP0 : FRef := ⟨HWS_STAT, 0, 0⟩
/-- R497. -/
def HWS_CMD : Nat := hdBase + 0x170000 + 8
def HWS_CMD_OP : FRef := ⟨HWS_CMD, 3, 0⟩
/-- R497. -/
def HWS_HKEY : Nat := hdBase + 0x170000 + 0xc
def HWS_HKEY_KEY : FRef := ⟨HWS_HKEY, 31, 0⟩
/-- R498. -/
def HWS_MAUD : Nat := hdBase + 0x170000 + 0x10
def HWS_MAUD_QKIB : FRef := ⟨HWS_MAUD, 22, 12⟩
def HWS_MAUD_MIRCAP : FRef := ⟨HWS_MAUD, 8, 0⟩
/-- R498. -/
def HWS_MTOK_LO : Nat := hdBase + 0x170000 + 0x14
def HWS_MTOK_LO_VALUE : FRef := ⟨HWS_MTOK_LO, 31, 0⟩
/-- R498. -/
def HWS_MTOK_HI : Nat := hdBase + 0x170000 + 0x18
def HWS_MTOK_HI_VALUE : FRef := ⟨HWS_MTOK_HI, 31, 0⟩
/-- R498. -/
def HWS_CNT0 : Nat := hdBase + 0x170000 + 0x1c
def HWS_CNT0_MACDROP : FRef := ⟨HWS_CNT0, 31, 16⟩
def HWS_CNT0_RETRY : FRef := ⟨HWS_CNT0, 15, 0⟩
/-- R498. -/
def HWS_CNT1 : Nat := hdBase + 0x170000 + 0x20
def HWS_CNT1_BREAKS : FRef := ⟨HWS_CNT1, 31, 16⟩
def HWS_CNT1_DMISMCNT : FRef := ⟨HWS_CNT1, 15, 0⟩
/-- R499. -/
def HWS_DCFG : Nat := hdBase + 0x170000 + 0x24
def HWS_DCFG_DEVCTX : FRef := ⟨HWS_DCFG, 31, 16⟩
def HWS_DCFG_LOG2SZ : FRef := ⟨HWS_DCFG, 11, 8⟩
/-- R499. -/
def HWS_DRBASE_LO : Nat := hdBase + 0x170000 + 0x28
def HWS_DRBASE_LO_BASE : FRef := ⟨HWS_DRBASE_LO, 31, 6⟩
/-- R499. -/
def HWS_DRBASE_HI : Nat := hdBase + 0x170000 + 0x2c
def HWS_DRBASE_HI_BASE : FRef := ⟨HWS_DRBASE_HI, 15, 0⟩
/-- R499. -/
def HWS_DCBASE_LO : Nat := hdBase + 0x170000 + 0x30
def HWS_DCBASE_LO_BASE : FRef := ⟨HWS_DCBASE_LO, 31, 7⟩
/-- R499. -/
def HWS_DCBASE_HI : Nat := hdBase + 0x170000 + 0x34
def HWS_DCBASE_HI_BASE : FRef := ⟨HWS_DCBASE_HI, 15, 0⟩
/-- R499. -/
def HWS_DDB : Nat := hdBase + 0x170000 + 0x38
def HWS_DDB_TAIL : FRef := ⟨HWS_DDB, 11, 0⟩
/-- R499. -/
def HWS_DPTR : Nat := hdBase + 0x170000 + 0x3c
def HWS_DPTR_DBTAIL : FRef := ⟨HWS_DPTR, 27, 16⟩
def HWS_DPTR_HEAD : FRef := ⟨HWS_DPTR, 11, 0⟩
/-- R498. -/
def HWS_WBASE (i : Nat) : Nat := hdBase + 0x170000 + 0x100 + i * 0x10
def HWS_WBASE_ADDR (i : Nat) : FRef := ⟨HWS_WBASE i, 24, 0⟩
/-- R498. -/
def HWS_WLIM (i : Nat) : Nat := hdBase + 0x170000 + 0x104 + i * 0x10
def HWS_WLIM_ADDR (i : Nat) : FRef := ⟨HWS_WLIM i, 24, 0⟩
/-- R498. -/
def HWS_WCFG (i : Nat) : Nat := hdBase + 0x170000 + 0x108 + i * 0x10
def HWS_WCFG_EN (i : Nat) : FRef := ⟨HWS_WCFG i, 2, 2⟩
def HWS_WCFG_TX (i : Nat) : FRef := ⟨HWS_WCFG i, 1, 1⟩
def HWS_WCFG_RX (i : Nat) : FRef := ⟨HWS_WCFG i, 0, 0⟩

/-! Block HD_PBA. -/

/-- R531. -/
def PBA_CTL : Nat := hdBase + 0x180000
def PBA_CTL_BUDGET : FRef := ⟨PBA_CTL, 12, 0⟩
/-- R531. -/
def PBA_STAT : Nat := hdBase + 0x180000 + 4
def PBA_STAT_ACCERR : FRef := ⟨PBA_STAT, 13, 13⟩
def PBA_STAT_CMDREF : FRef := ⟨PBA_STAT, 12, 12⟩
def PBA_STAT_DONE : FRef := ⟨PBA_STAT, 11, 11⟩
def PBA_STAT_SHORT : FRef := ⟨PBA_STAT, 10, 10⟩
def PBA_STAT_RAMPH : FRef := ⟨PBA_STAT, 9, 9⟩
def PBA_STAT_FLOORCUT : FRef := ⟨PBA_STAT, 8, 8⟩
def PBA_STAT_SURVIN : FRef := ⟨PBA_STAT, 7, 7⟩
def PBA_STAT_SURVOUT : FRef := ⟨PBA_STAT, 6, 6⟩
def PBA_STAT_CAUSE : FRef := ⟨PBA_STAT, 3, 2⟩
def PBA_STAT_MODE : FRef := ⟨PBA_STAT, 1, 0⟩
/-- R531. -/
def PBA_CMD : Nat := hdBase + 0x180000 + 8
def PBA_CMD_OP : FRef := ⟨PBA_CMD, 3, 0⟩
/-- R531. -/
def PBA_AUD0 : Nat := hdBase + 0x180000 + 0xc
def PBA_AUD0_RELEASING : FRef := ⟨PBA_AUD0, 31, 16⟩
def PBA_AUD0_GRANTED : FRef := ⟨PBA_AUD0, 15, 0⟩
/-- R531. -/
def PBA_AUD1 : Nat := hdBase + 0x180000 + 0x10
def PBA_AUD1_FIXED : FRef := ⟨PBA_AUD1, 31, 16⟩
def PBA_AUD1_BEFF : FRef := ⟨PBA_AUD1, 15, 0⟩
/-- R531. -/
def PBA_REQ : Nat := hdBase + 0x180000 + 0x14
def PBA_REQ_OP : FRef := ⟨PBA_REQ, 31, 28⟩
def PBA_REQ_DOM : FRef := ⟨PBA_REQ, 22, 16⟩
def PBA_REQ_TOKENS : FRef := ⟨PBA_REQ, 12, 0⟩
/-- R531. -/
def PBA_RSP : Nat := hdBase + 0x180000 + 0x18
def PBA_RSP_OP : FRef := ⟨PBA_RSP, 31, 28⟩
def PBA_RSP_DOM : FRef := ⟨PBA_RSP, 22, 16⟩
def PBA_RSP_CODE : FRef := ⟨PBA_RSP, 3, 0⟩
/-- R531. -/
def PBA_DOM (i : Nat) : Nat := hdBase + 0x180000 + 0x100 + i * 4
def PBA_DOM_STATE (i : Nat) : FRef := ⟨PBA_DOM i, 31, 29⟩
def PBA_DOM_BIST (i : Nat) : FRef := ⟨PBA_DOM i, 17, 17⟩
def PBA_DOM_HELD (i : Nat) : FRef := ⟨PBA_DOM i, 16, 16⟩
def PBA_DOM_GRANT (i : Nat) : FRef := ⟨PBA_DOM i, 12, 0⟩
/-- R531. -/
def PBA_E_LO (i : Nat) : Nat := hdBase + 0x180000 + 0x400 + i * 8
def PBA_E_LO_E (i : Nat) : FRef := ⟨PBA_E_LO i, 31, 0⟩
/-- R531. -/
def PBA_E_HI (i : Nat) : Nat := hdBase + 0x180000 + 0x404 + i * 8
def PBA_E_HI_E (i : Nat) : FRef := ⟨PBA_E_HI i, 31, 0⟩

/-! Block HD_THM. -/

/-- R532. -/
def THM_CTL : Nat := hdBase + 0x190000
def THM_CTL_TLIM : FRef := ⟨THM_CTL, 7, 0⟩
/-- R532. -/
def THM_STAT : Nat := hdBase + 0x190000 + 4
def THM_STAT_ACCERR : FRef := ⟨THM_STAT, 11, 11⟩
def THM_STAT_CMDREF : FRef := ⟨THM_STAT, 10, 10⟩
def THM_STAT_CSTOP : FRef := ⟨THM_STAT, 9, 9⟩
def THM_STAT_XLOW : FRef := ⟨THM_STAT, 8, 8⟩
def THM_STAT_XOK : FRef := ⟨THM_STAT, 7, 7⟩
def THM_STAT_INHOT : FRef := ⟨THM_STAT, 6, 6⟩
def THM_STAT_TRIP : FRef := ⟨THM_STAT, 5, 5⟩
def THM_STAT_HOTLIM : FRef := ⟨THM_STAT, 4, 4⟩
def THM_STAT_FLOWUNK : FRef := ⟨THM_STAT, 1, 1⟩
def THM_STAT_LOW : FRef := ⟨THM_STAT, 0, 0⟩
/-- R532. -/
def THM_CMD : Nat := hdBase + 0x190000 + 8
def THM_CMD_SNAP : FRef := ⟨THM_CMD, 0, 0⟩
/-- R532. -/
def THM_FLOW : Nat := hdBase + 0x190000 + 0xc
def THM_FLOW_XCNT : FRef := ⟨THM_FLOW, 31, 16⟩
def THM_FLOW_FLOW : FRef := ⟨THM_FLOW, 15, 0⟩
/-- R532. -/
def THM_TCOOL : Nat := hdBase + 0x190000 + 0x10
def THM_TCOOL_TOUT : FRef := ⟨THM_TCOOL, 31, 16⟩
def THM_TCOOL_TIN : FRef := ⟨THM_TCOOL, 15, 0⟩
/-- R532. -/
def THM_TRIP : Nat := hdBase + 0x190000 + 0x14
def THM_TRIP_TRIPPED : FRef := ⟨THM_TRIP, 8, 0⟩
/-- R532. -/
def THM_DIE_A (i : Nat) : Nat := hdBase + 0x190000 + 0x100 + i * 8
def THM_DIE_A_PRED (i : Nat) : FRef := ⟨THM_DIE_A i, 31, 16⟩
def THM_DIE_A_MAX (i : Nat) : FRef := ⟨THM_DIE_A i, 15, 0⟩
/-- R532. -/
def THM_DIE_B (i : Nat) : Nat := hdBase + 0x190000 + 0x104 + i * 8
def THM_DIE_B_SLOPE (i : Nat) : FRef := ⟨THM_DIE_B i, 31, 16⟩
def THM_DIE_B_MEAN (i : Nat) : FRef := ⟨THM_DIE_B i, 15, 0⟩

/-! Block HD_HUP. -/

/-- R533. -/
def HUP_STAT : Nat := hdBase + 0x1A0000
def HUP_STAT_ACCERR : FRef := ⟨HUP_STAT, 9, 9⟩
def HUP_STAT_DEFER : FRef := ⟨HUP_STAT, 8, 8⟩
def HUP_STAT_LOWE : FRef := ⟨HUP_STAT, 7, 7⟩
def HUP_STAT_OV : FRef := ⟨HUP_STAT, 6, 6⟩
def HUP_STAT_UV : FRef := ⟨HUP_STAT, 5, 5⟩
def HUP_STAT_DROP : FRef := ⟨HUP_STAT, 4, 4⟩
def HUP_STAT_INSTATE : FRef := ⟨HUP_STAT, 2, 0⟩
/-- R533. -/
def HUP_V : Nat := hdBase + 0x1A0000 + 4
def HUP_V_VHOLD : FRef := ⟨HUP_V, 31, 16⟩
def HUP_V_VIN : FRef := ⟨HUP_V, 15, 0⟩
/-- R533. -/
def HUP_P : Nat := hdBase + 0x1A0000 + 8
def HUP_P_PMAX1 : FRef := ⟨HUP_P, 31, 16⟩
def HUP_P_PIN : FRef := ⟨HUP_P, 15, 0⟩
/-- R533. -/
def HUP_E : Nat := hdBase + 0x1A0000 + 0xc
def HUP_E_CAP : FRef := ⟨HUP_E, 31, 16⟩
def HUP_E_EAVAIL : FRef := ⟨HUP_E, 15, 0⟩
/-- R533. -/
def HUP_CNT : Nat := hdBase + 0x1A0000 + 0x10
def HUP_CNT_DROPS : FRef := ⟨HUP_CNT, 31, 16⟩
def HUP_CNT_DEFERS : FRef := ⟨HUP_CNT, 15, 0⟩
/-- R533. -/
def HUP_EIN_LO : Nat := hdBase + 0x1A0000 + 0x14
def HUP_EIN_LO_E : FRef := ⟨HUP_EIN_LO, 31, 0⟩
/-- R533. -/
def HUP_EIN_HI : Nat := hdBase + 0x1A0000 + 0x18
def HUP_EIN_HI_E : FRef := ⟨HUP_EIN_HI, 31, 0⟩
/-- R533. -/
def HUP_CMD : Nat := hdBase + 0x1A0000 + 0x1c
def HUP_CMD_SNAP : FRef := ⟨HUP_CMD, 0, 0⟩

/-! Block HD_TST. -/

/-- R558. -/
def TST_STAT : Nat := hdBase + 0x1B0000
def TST_STAT_TEST : FRef := ⟨TST_STAT, 15, 12⟩
def TST_STAT_ACCERR : FRef := ⟨TST_STAT, 7, 7⟩
def TST_STAT_CMDREF : FRef := ⟨TST_STAT, 6, 6⟩
def TST_STAT_FAIL : FRef := ⟨TST_STAT, 5, 5⟩
def TST_STAT_DONE : FRef := ⟨TST_STAT, 4, 4⟩
def TST_STAT_BUSY : FRef := ⟨TST_STAT, 0, 0⟩
/-- R558. -/
def TST_CMD : Nat := hdBase + 0x1B0000 + 4
def TST_CMD_UNIT : FRef := ⟨TST_CMD, 27, 16⟩
def TST_CMD_TEST : FRef := ⟨TST_CMD, 11, 8⟩
def TST_CMD_OP : FRef := ⟨TST_CMD, 3, 0⟩
/-- R558. -/
def TST_CNT : Nat := hdBase + 0x1B0000 + 8
def TST_CNT_FAILS : FRef := ⟨TST_CNT, 31, 16⟩
def TST_CNT_PASSES : FRef := ⟨TST_CNT, 15, 0⟩
/-- R558. -/
def TST_RES (i : Nat) : Nat := hdBase + 0x1B0000 + 0x10 + i * 4
def TST_RES_WORD (i : Nat) : FRef := ⟨TST_RES i, 31, 0⟩
/-- R558. -/
def TST_BUMP (i : Nat) : Nat := hdBase + 0x1B0000 + 0x40 + i * 4
def TST_BUMP_MOHM (i : Nat) : FRef := ⟨TST_BUMP i, 15, 0⟩

/-! Block HD_RST. -/

/-- R588. -/
def RST_STAT : Nat := hdBase + 0x1C0000
def RST_STAT_ACCERR : FRef := ⟨RST_STAT, 9, 9⟩
def RST_STAT_CMDREF : FRef := ⟨RST_STAT, 8, 8⟩
def RST_STAT_CAUSE : FRef := ⟨RST_STAT, 3, 0⟩
/-- R588. -/
def RST_CMD : Nat := hdBase + 0x1C0000 + 4
def RST_CMD_TGT : FRef := ⟨RST_CMD, 9, 8⟩
def RST_CMD_OP : FRef := ⟨RST_CMD, 3, 0⟩
/-- R588. -/
def RST_CNT : Nat := hdBase + 0x1C0000 + 8
def RST_CNT_MODULES : FRef := ⟨RST_CNT, 31, 16⟩
def RST_CNT_WARMS : FRef := ⟨RST_CNT, 15, 0⟩

/-! Block HD_SEC. -/

/-- R588. -/
def SEC_LC : Nat := hdBase + 0x1D0000
def SEC_LC_LC : FRef := ⟨SEC_LC, 1, 0⟩
/-- R588. -/
def SEC_BOOT : Nat := hdBase + 0x1D0000 + 4
def SEC_BOOT_FALLBACK : FRef := ⟨SEC_BOOT, 10, 10⟩
def SEC_BOOT_TRIAL : FRef := ⟨SEC_BOOT, 9, 9⟩
def SEC_BOOT_RESTR : FRef := ⟨SEC_BOOT, 8, 8⟩
def SEC_BOOT_COPY : FRef := ⟨SEC_BOOT, 6, 0⟩
/-- R588. -/
def SEC_STAT : Nat := hdBase + 0x1D0000 + 8
def SEC_STAT_ACCERR : FRef := ⟨SEC_STAT, 2, 2⟩
def SEC_STAT_CMDREF : FRef := ⟨SEC_STAT, 1, 1⟩
def SEC_STAT_UPDDONE : FRef := ⟨SEC_STAT, 0, 0⟩
/-- R588. -/
def SEC_UPD_LO : Nat := hdBase + 0x1D0000 + 0xc
def SEC_UPD_LO_ADDR : FRef := ⟨SEC_UPD_LO, 31, 12⟩
/-- R588. -/
def SEC_UPD_HI : Nat := hdBase + 0x1D0000 + 0x10
def SEC_UPD_HI_ADDR : FRef := ⟨SEC_UPD_HI, 15, 0⟩
/-- R588. -/
def SEC_UPDCMD : Nat := hdBase + 0x1D0000 + 0x14
def SEC_UPDCMD_OP : FRef := ⟨SEC_UPDCMD, 3, 0⟩
/-- R588. -/
def SEC_UPDSTAT : Nat := hdBase + 0x1D0000 + 0x18
def SEC_UPDSTAT_PEND : FRef := ⟨SEC_UPDSTAT, 16, 16⟩
def SEC_UPDSTAT_CODE : FRef := ⟨SEC_UPDSTAT, 15, 8⟩
def SEC_UPDSTAT_STATE : FRef := ⟨SEC_UPDSTAT, 2, 0⟩
/-- R588. -/
def SEC_VER (i : Nat) : Nat := hdBase + 0x1D0000 + 0x24 + i * 4
def SEC_VER_VERSION (i : Nat) : FRef := ⟨SEC_VER i, 31, 0⟩

/-! Block HD_DBG. -/

/-- R589. -/
def DBG_STAT : Nat := hdBase + 0x1E0000
def DBG_STAT_ACCERR : FRef := ⟨DBG_STAT, 9, 9⟩
def DBG_STAT_DROP : FRef := ⟨DBG_STAT, 8, 8⟩
def DBG_STAT_AUTHFAIL : FRef := ⟨DBG_STAT, 7, 7⟩
def DBG_STAT_POISON : FRef := ⟨DBG_STAT, 6, 6⟩
def DBG_STAT_NOPEEK : FRef := ⟨DBG_STAT, 5, 5⟩
def DBG_STAT_LOCKOUT : FRef := ⟨DBG_STAT, 4, 4⟩
def DBG_STAT_SESS : FRef := ⟨DBG_STAT, 2, 2⟩
def DBG_STAT_LEVEL : FRef := ⟨DBG_STAT, 1, 0⟩
/-- R589. -/
def DBG_HSTAT : Nat := hdBase + 0x1E0000 + 4
def DBG_HSTAT_STW : FRef := ⟨DBG_HSTAT, 24, 24⟩
def DBG_HSTAT_HPH : FRef := ⟨DBG_HSTAT, 23, 0⟩
/-- R589. -/
def DBG_AUTHCNT : Nat := hdBase + 0x1E0000 + 8
def DBG_AUTHCNT_COUNT : FRef := ⟨DBG_AUTHCNT, 31, 0⟩

/-! Block HD_CAN. -/

/-- R618. -/
def CAN_CTL (i : Nat) : Nat := hdBase + 0x1F0000 + 0x100 + i * 0x40
def CAN_CTL_DEVCTX (i : Nat) : FRef := ⟨CAN_CTL i, 31, 16⟩
def CAN_CTL_LOG2SZ (i : Nat) : FRef := ⟨CAN_CTL i, 11, 8⟩
def CAN_CTL_NBR (i : Nat) : FRef := ⟨CAN_CTL i, 7, 6⟩
def CAN_CTL_DBR (i : Nat) : FRef := ⟨CAN_CTL i, 5, 3⟩
def CAN_CTL_LISTEN (i : Nat) : FRef := ⟨CAN_CTL i, 2, 2⟩
def CAN_CTL_EN (i : Nat) : FRef := ⟨CAN_CTL i, 0, 0⟩
/-- R618. -/
def CAN_STAT (i : Nat) : Nat := hdBase + 0x1F0000 + 0x104 + i * 0x40
def CAN_STAT_ACCERR (i : Nat) : FRef := ⟨CAN_STAT i, 7, 7⟩
def CAN_STAT_CMDREF (i : Nat) : FRef := ⟨CAN_STAT i, 6, 6⟩
def CAN_STAT_HALT (i : Nat) : FRef := ⟨CAN_STAT i, 5, 5⟩
def CAN_STAT_BUSOFF (i : Nat) : FRef := ⟨CAN_STAT i, 4, 4⟩
def CAN_STAT_ERRSTATE (i : Nat) : FRef := ⟨CAN_STAT i, 1, 0⟩
/-- R618. -/
def CAN_RBASE_LO (i : Nat) : Nat := hdBase + 0x1F0000 + 0x108 + i * 0x40
def CAN_RBASE_LO_BASE (i : Nat) : FRef := ⟨CAN_RBASE_LO i, 31, 7⟩
/-- R618. -/
def CAN_RBASE_HI (i : Nat) : Nat := hdBase + 0x1F0000 + 0x10c + i * 0x40
def CAN_RBASE_HI_BASE (i : Nat) : FRef := ⟨CAN_RBASE_HI i, 15, 0⟩
/-- R618. -/
def CAN_DB (i : Nat) : Nat := hdBase + 0x1F0000 + 0x110 + i * 0x40
def CAN_DB_TAIL (i : Nat) : FRef := ⟨CAN_DB i, 11, 0⟩
/-- R618. -/
def CAN_PTR (i : Nat) : Nat := hdBase + 0x1F0000 + 0x114 + i * 0x40
def CAN_PTR_DBTAIL (i : Nat) : FRef := ⟨CAN_PTR i, 27, 16⟩
def CAN_PTR_HEAD (i : Nat) : FRef := ⟨CAN_PTR i, 11, 0⟩
/-- R618. -/
def CAN_ERR (i : Nat) : Nat := hdBase + 0x1F0000 + 0x118 + i * 0x40
def CAN_ERR_REC (i : Nat) : FRef := ⟨CAN_ERR i, 23, 16⟩
def CAN_ERR_TEC (i : Nat) : FRef := ⟨CAN_ERR i, 8, 0⟩
/-- R618. -/
def CAN_CMD (i : Nat) : Nat := hdBase + 0x1F0000 + 0x11c + i * 0x40
def CAN_CMD_OP (i : Nat) : FRef := ⟨CAN_CMD i, 3, 0⟩
/-- R618. -/
def CAN_CNT (i : Nat) : Nat := hdBase + 0x1F0000 + 0x120 + i * 0x40
def CAN_CNT_SENT (i : Nat) : FRef := ⟨CAN_CNT i, 31, 16⟩
def CAN_CNT_LOST (i : Nat) : FRef := ⟨CAN_CNT i, 15, 0⟩

/-! Block HD_ID. -/

/-- R634. -/
def ID_MODULE : Nat := hdBase + 0x0
def ID_MODULE_PART : FRef := ⟨ID_MODULE, 31, 16⟩
def ID_MODULE_CREV : FRef := ⟨ID_MODULE, 15, 8⟩
def ID_MODULE_GSPOP : FRef := ⟨ID_MODULE, 1, 1⟩
def ID_MODULE_LID : FRef := ⟨ID_MODULE, 0, 0⟩
/-- R634. -/
def ID_SERIAL_LO : Nat := hdBase + 0x0 + 4
def ID_SERIAL_LO_SERIAL : FRef := ⟨ID_SERIAL_LO, 31, 0⟩
/-- R634. -/
def ID_SERIAL_HI : Nat := hdBase + 0x0 + 8
def ID_SERIAL_HI_SERIAL : FRef := ⟨ID_SERIAL_HI, 31, 0⟩
/-- R635. -/
def ID_HD : Nat := hdBase + 0x0 + 0xc
def ID_HD_WORD : FRef := ⟨ID_HD, 31, 0⟩
/-- R635. -/
def ID_CD (i : Nat) : Nat := hdBase + 0x0 + 0x10 + i * 4
def ID_CD_WORD (i : Nat) : FRef := ⟨ID_CD i, 31, 0⟩
/-- R635. -/
def ID_BT (i : Nat) : Nat := hdBase + 0x0 + 0x20 + i * 4
def ID_BT_WORD (i : Nat) : FRef := ⟨ID_BT i, 31, 0⟩
/-- R635. -/
def ID_CLA : Nat := hdBase + 0x0 + 0x30
def ID_CLA_WORD : FRef := ⟨ID_CLA, 31, 0⟩
/-- R635. -/
def ID_CLB : Nat := hdBase + 0x0 + 0x34
def ID_CLB_WORD : FRef := ⟨ID_CLB, 31, 0⟩
/-- R635. -/
def ID_GS : Nat := hdBase + 0x0 + 0x38
def ID_GS_WORD : FRef := ⟨ID_GS, 31, 0⟩
/-- R634. -/
def ID_VALID : Nat := hdBase + 0x0 + 0x3c
def ID_VALID_VALID : FRef := ⟨ID_VALID, 11, 0⟩

/-! Block CD_ID. -/

/-- R636. -/
def CD_ID_WORD (d : Nat) : Nat := cdBase d
def CD_ID_WORD_WORD (d : Nat) : FRef := ⟨CD_ID_WORD d, 31, 0⟩
/-- R636. -/
def CD_ID_POS (d : Nat) : Nat := cdBase d + 4
def CD_ID_POS_STACK (d : Nat) : FRef := ⟨CD_ID_POS d, 1, 0⟩

/-! Block BT_ID. -/

/-- R636. -/
def BT_ID_WORD (n : Nat) : Nat := btBase n
def BT_ID_WORD_WORD (n : Nat) : FRef := ⟨BT_ID_WORD n, 31, 0⟩
/-- R636. -/
def BT_ID_POS (n : Nat) : Nat := btBase n + 4
def BT_ID_POS_STACK (n : Nat) : FRef := ⟨BT_ID_POS n, 1, 0⟩

/-! Block HD_GLB. -/

/-- R638. -/
def GLB_STAT : Nat := hdBase + 0x10000
def GLB_STAT_BOOTSTEP : FRef := ⟨GLB_STAT, 7, 4⟩
def GLB_STAT_ACCERR : FRef := ⟨GLB_STAT, 2, 2⟩
def GLB_STAT_ACCANY : FRef := ⟨GLB_STAT, 1, 1⟩
def GLB_STAT_DECERR : FRef := ⟨GLB_STAT, 0, 0⟩
/-- R638. -/
def GLB_CMD : Nat := hdBase + 0x10000 + 4
def GLB_CMD_SNAP : FRef := ⟨GLB_CMD, 0, 0⟩
/-- R638. -/
def GLB_LOCKS : Nat := hdBase + 0x10000 + 8
def GLB_LOCKS_LOCKS : FRef := ⟨GLB_LOCKS, 5, 0⟩
/-- R638. -/
def GLB_CNT : Nat := hdBase + 0x10000 + 0xc
def GLB_CNT_ACCCNT : FRef := ⟨GLB_CNT, 31, 16⟩
def GLB_CNT_DECCNT : FRef := ⟨GLB_CNT, 15, 0⟩
/-- R638. -/
def GLB_DECLOG_LO : Nat := hdBase + 0x10000 + 0x10
def GLB_DECLOG_LO_ADDR : FRef := ⟨GLB_DECLOG_LO, 31, 0⟩
/-- R638. -/
def GLB_DECLOG_HI : Nat := hdBase + 0x10000 + 0x14
def GLB_DECLOG_HI_KIND : FRef := ⟨GLB_DECLOG_HI, 31, 29⟩
def GLB_DECLOG_HI_WR : FRef := ⟨GLB_DECLOG_HI, 28, 28⟩
def GLB_DECLOG_HI_MID : FRef := ⟨GLB_DECLOG_HI, 27, 16⟩
def GLB_DECLOG_HI_ADDR : FRef := ⟨GLB_DECLOG_HI, 15, 0⟩
/-- R638. -/
def GLB_ACCLOG_LO : Nat := hdBase + 0x10000 + 0x18
def GLB_ACCLOG_LO_ADDR : FRef := ⟨GLB_ACCLOG_LO, 31, 0⟩
/-- R638. -/
def GLB_ACCLOG_HI : Nat := hdBase + 0x10000 + 0x1c
def GLB_ACCLOG_HI_KIND : FRef := ⟨GLB_ACCLOG_HI, 31, 29⟩
def GLB_ACCLOG_HI_WR : FRef := ⟨GLB_ACCLOG_HI, 28, 28⟩
def GLB_ACCLOG_HI_MID : FRef := ⟨GLB_ACCLOG_HI, 27, 16⟩
def GLB_ACCLOG_HI_ADDR : FRef := ⟨GLB_ACCLOG_HI, 15, 0⟩
/-- R638. -/
def GLB_IRQLVL (i : Nat) : Nat := hdBase + 0x10000 + 0x20 + i * 4
def GLB_IRQLVL_LVL (i : Nat) : FRef := ⟨GLB_IRQLVL i, 31, 0⟩
/-- R638. -/
def GLB_SCRATCH (i : Nat) : Nat := hdBase + 0x10000 + 0x40 + i * 4
def GLB_SCRATCH_VALUE (i : Nat) : FRef := ⟨GLB_SCRATCH i, 31, 0⟩

/-! Block HD_ETH. -/

/-- R639. -/
def ETH_BSTAT : Nat := hdBase + 0x20000
def ETH_BSTAT_ACCERR : FRef := ⟨ETH_BSTAT, 0, 0⟩
/-- R639. -/
def ETH_CMD : Nat := hdBase + 0x20000 + 4
def ETH_CMD_SNAP : FRef := ⟨ETH_CMD, 0, 0⟩
/-- R639. -/
def ETH_PSTAT (i : Nat) : Nat := hdBase + 0x20000 + 0x100 + i * 0x40
def ETH_PSTAT_LINKCHG (i : Nat) : FRef := ⟨ETH_PSTAT i, 5, 5⟩
def ETH_PSTAT_FCSERR (i : Nat) : FRef := ⟨ETH_PSTAT i, 4, 4⟩
def ETH_PSTAT_GATEOVR (i : Nat) : FRef := ⟨ETH_PSTAT i, 3, 3⟩
def ETH_PSTAT_CFG (i : Nat) : FRef := ⟨ETH_PSTAT i, 2, 2⟩
def ETH_PSTAT_PTP (i : Nat) : FRef := ⟨ETH_PSTAT i, 1, 1⟩
def ETH_PSTAT_LINK (i : Nat) : FRef := ⟨ETH_PSTAT i, 0, 0⟩
/-- R639. -/
def ETH_PCNT (i : Nat) : Nat := hdBase + 0x20000 + 0x104 + i * 0x40
def ETH_PCNT_RXDROP (i : Nat) : FRef := ⟨ETH_PCNT i, 31, 16⟩
def ETH_PCNT_FCSCNT (i : Nat) : FRef := ⟨ETH_PCNT i, 15, 0⟩

/-- CD_BRD: CD_BRD_QCTL, CD_BRD_QSTAT, CD_BRD_FLT, CD_BRD_QERRCNT, CD_BRD_CMD, CD_BRD_DISCCNT. -/
def rows_CD_BRD_0 : List RegRow := [
  ⟨0, 1, 0, [⟨7, 4, .rw, 0⟩, ⟨3, 0, .rwh, 0⟩]⟩,
  ⟨4, 1, 0, [⟨17, 17, .w1c, 0⟩, ⟨16, 16, .w1c, 0⟩, ⟨15, 12, .w1c, 0⟩, ⟨9, 8, .ro, 0⟩, ⟨7, 4, .ro, 0⟩, ⟨1, 1, .ro, 0⟩, ⟨0, 0, .ro, 0⟩]⟩,
  ⟨8, 1, 0, [⟨10, 8, .ro, 0⟩, ⟨7, 0, .ro, 0⟩]⟩,
  ⟨0xc, 1, 0, [⟨31, 24, .cnt, 0⟩, ⟨23, 16, .cnt, 0⟩, ⟨15, 8, .cnt, 0⟩, ⟨7, 0, .cnt, 0⟩]⟩,
  ⟨0x10, 1, 0, [⟨0, 0, .wo, 0⟩]⟩,
  ⟨0x14, 1, 0, [⟨15, 0, .cnt, 0⟩]⟩]
/-- CD_BRD: CD_BRD_STEPS_LO, CD_BRD_STEPS_HI. -/
def rows_CD_BRD_1 : List RegRow := [
  ⟨0x18, 1, 0, [⟨31, 0, .cnt, 0⟩]⟩,
  ⟨0x1c, 1, 0, [⟨31, 0, .cnt, 0⟩]⟩]
/-- The offset table of block CD_BRD. -/
def rows_CD_BRD : List RegRow := rows_CD_BRD_0 ++ rows_CD_BRD_1

/-- CD_STR: CD_STR_CTL, CD_STR_STAT, CD_STR_FLT, CD_STR_CMD, CD_STR_STEPS_LO, CD_STR_STEPS_HI. -/
def rows_CD_STR_0 : List RegRow := [
  ⟨0, 1, 0, [⟨3, 0, .rw, 0⟩]⟩,
  ⟨4, 1, 0, [⟨13, 13, .w1c, 0⟩, ⟨12, 12, .w1c, 0⟩, ⟨11, 11, .w1c, 0⟩, ⟨10, 10, .w1c, 0⟩, ⟨9, 9, .w1c, 0⟩, ⟨8, 8, .w1c, 0⟩, ⟨7, 4, .ro, 0⟩, ⟨1, 1, .ro, 0⟩, ⟨0, 0, .ro, 0⟩]⟩,
  ⟨8, 1, 0, [⟨26, 24, .ro, 0⟩, ⟨23, 8, .ro, 0⟩, ⟨7, 0, .ro, 0⟩]⟩,
  ⟨0xc, 1, 0, [⟨0, 0, .wo, 0⟩]⟩,
  ⟨0x10, 1, 0, [⟨31, 0, .cnt, 0⟩]⟩,
  ⟨0x14, 1, 0, [⟨31, 0, .cnt, 0⟩]⟩]
/-- The offset table of block CD_STR. -/
def rows_CD_STR : List RegRow := rows_CD_STR_0

/-- CD_WSP: CD_WSP_STAT, CD_WSP_FLT, CD_WSP_CMD, CD_WSP_WSTEPS_LO, CD_WSP_WSTEPS_HI, CD_WSP_SSTEPS_LO. -/
def rows_CD_WSP_0 : List RegRow := [
  ⟨0, 1, 0, [⟨4, 4, .w1c, 0⟩, ⟨2, 2, .ro, 0⟩, ⟨1, 1, .ro, 0⟩, ⟨0, 0, .ro, 0⟩]⟩,
  ⟨4, 1, 0, [⟨26, 24, .ro, 0⟩, ⟨23, 16, .ro, 0⟩, ⟨10, 8, .ro, 0⟩, ⟨7, 0, .ro, 0⟩]⟩,
  ⟨8, 1, 0, [⟨0, 0, .wo, 0⟩]⟩,
  ⟨0x10, 1, 0, [⟨31, 0, .cnt, 0⟩]⟩,
  ⟨0x14, 1, 0, [⟨31, 0, .cnt, 0⟩]⟩,
  ⟨0x18, 1, 0, [⟨31, 0, .cnt, 0⟩]⟩]
/-- CD_WSP: CD_WSP_SSTEPS_HI. -/
def rows_CD_WSP_1 : List RegRow := [
  ⟨0x1c, 1, 0, [⟨31, 0, .cnt, 0⟩]⟩]
/-- The offset table of block CD_WSP. -/
def rows_CD_WSP : List RegRow := rows_CD_WSP_0 ++ rows_CD_WSP_1

/-- RTM: RTM_CTL, RTM_STAT, RTM_RATE, RTM_RMIN, RTM_XCNT, RTM_LATE. -/
def rows_RTM_0 : List RegRow := [
  ⟨0, 1, 0, [⟨0, 0, .rwh, 0⟩]⟩,
  ⟨4, 1, 0, [⟨20, 20, .w1c, 0⟩, ⟨19, 19, .w1c, 0⟩, ⟨18, 18, .w1c, 0⟩, ⟨17, 17, .w1c, 0⟩, ⟨16, 16, .w1c, 0⟩, ⟨1, 1, .ro, 0⟩, ⟨0, 0, .ro, 0⟩]⟩,
  ⟨8, 1, 0, [⟨16, 16, .ro, 0⟩, ⟨15, 0, .ro, 0⟩]⟩,
  ⟨0xc, 1, 0, [⟨15, 0, .cnt, 0xffff⟩]⟩,
  ⟨0x10, 1, 0, [⟨15, 0, .cnt, 0⟩]⟩,
  ⟨0x14, 1, 0, [⟨31, 0, .cnt, 0⟩]⟩]
/-- RTM: RTM_CMD, RTM_VRAIL. -/
def rows_RTM_1 : List RegRow := [
  ⟨0x18, 1, 0, [⟨0, 0, .wo, 0⟩]⟩,
  ⟨0x1c, 1, 0, [⟨9, 0, .ro, 0⟩]⟩]
/-- The offset table of block RTM. -/
def rows_RTM : List RegRow := rows_RTM_0 ++ rows_RTM_1

/-- CD_SCH: CD_SCH_CTL, CD_SCH_STAT, CD_SCH_CCMD, CD_SCH_CMD, CD_SCH_RRAUD, CD_SCH_TAGAUD. -/
def rows_CD_SCH_0 : List RegRow := [
  ⟨0, 1, 0, [⟨15, 8, .rw, 0⟩, ⟨0, 0, .rwh, 0⟩]⟩,
  ⟨4, 1, 0, [⟨22, 20, .ro, 0⟩, ⟨19, 19, .w1c, 0⟩, ⟨18, 18, .w1c, 0⟩, ⟨17, 17, .w1c, 0⟩, ⟨16, 16, .w1c, 0⟩, ⟨15, 8, .w1c, 0⟩, ⟨7, 0, .ro, 0⟩]⟩,
  ⟨8, 1, 0, [⟨10, 8, .wo, 0⟩, ⟨3, 0, .wo, 0⟩]⟩,
  ⟨0xc, 1, 0, [⟨0, 0, .wo, 0⟩]⟩,
  ⟨0x10, 1, 0, [⟨31, 16, .cnt, 0⟩, ⟨15, 8, .ro, 0⟩, ⟨4, 0, .ro, 0⟩]⟩,
  ⟨0x14, 1, 0, [⟨25, 16, .ro, 0⟩, ⟨11, 0, .ro, 0⟩]⟩]
/-- CD_SCH: CD_SCH_EVTINC, CD_SCH_EVT, CD_SCH_RBASE_LO, CD_SCH_RBASE_HI, CD_SCH_RCFG, CD_SCH_DB. -/
def rows_CD_SCH_1 : List RegRow := [
  ⟨0x18, 1, 0, [⟨3, 0, .wo, 0⟩]⟩,
  ⟨0x40, 16, 4, [⟨31, 0, .rwh, 0⟩]⟩,
  ⟨0x100, 8, 0x20, [⟨31, 6, .rw, 0⟩]⟩,
  ⟨0x104, 8, 0x20, [⟨15, 0, .rw, 0⟩]⟩,
  ⟨0x108, 8, 0x20, [⟨31, 16, .rw, 0⟩, ⟨11, 8, .rw, 4⟩, ⟨7, 7, .rw, 0⟩, ⟨6, 4, .rw, 0⟩]⟩,
  ⟨0x10c, 8, 0x20, [⟨11, 0, .wo, 0⟩]⟩]
/-- CD_SCH: CD_SCH_RPTR, CD_SCH_CTX, CD_SCH_CFLT. -/
def rows_CD_SCH_2 : List RegRow := [
  ⟨0x110, 8, 0x20, [⟨27, 16, .ro, 0⟩, ⟨11, 0, .ro, 0⟩]⟩,
  ⟨0x114, 8, 0x20, [⟨31, 29, .ro, 0⟩, ⟨28, 24, .ro, 0x1f⟩, ⟨15, 0, .ro, 0⟩]⟩,
  ⟨0x118, 8, 0x20, [⟨31, 24, .ro, 0⟩, ⟨15, 0, .ro, 0⟩]⟩]
/-- The offset table of block CD_SCH. -/
def rows_CD_SCH : List RegRow := rows_CD_SCH_0 ++ rows_CD_SCH_1 ++ rows_CD_SCH_2

/-- CD_SEQ: CD_SEQ_CTL, CD_SEQ_STAT, CD_SEQ_CMD, CD_SEQ_KICK, CD_SEQ_AUD0, CD_SEQ_AUD1. -/
def rows_CD_SEQ_0 : List RegRow := [
  ⟨0, 1, 0, [⟨31, 24, .rw, 0⟩, ⟨15, 12, .rw, 2⟩, ⟨10, 8, .rw, 7⟩, ⟨0, 0, .rw, 0⟩]⟩,
  ⟨4, 1, 0, [⟨23, 23, .w1c, 0⟩, ⟨22, 22, .w1c, 0⟩, ⟨21, 21, .w1c, 0⟩, ⟨20, 20, .w1c, 0⟩, ⟨19, 19, .w1c, 0⟩, ⟨18, 18, .w1c, 0⟩, ⟨17, 17, .w1c, 0⟩, ⟨16, 16, .w1c, 0⟩, ⟨1, 1, .ro, 0⟩, ⟨0, 0, .ro, 0⟩]⟩,
  ⟨8, 1, 0, [⟨15, 8, .wo, 0⟩, ⟨3, 0, .wo, 0⟩]⟩,
  ⟨0xc, 1, 0, [⟨0, 0, .wo, 0⟩]⟩,
  ⟨0x10, 1, 0, [⟨24, 16, .ro, 0x100⟩, ⟨8, 0, .ro, 0⟩]⟩,
  ⟨0x14, 1, 0, [⟨24, 16, .ro, 0⟩, ⟨8, 0, .ro, 0⟩]⟩]
/-- CD_SEQ: CD_SEQ_AUD2, CD_SEQ_ROUND, CD_SEQ_PER, CD_SEQ_BFLT, CD_SEQ_TPL_LO, CD_SEQ_TPL_HI. -/
def rows_CD_SEQ_1 : List RegRow := [
  ⟨0x18, 1, 0, [⟨31, 16, .cnt, 0⟩, ⟨8, 0, .ro, 0⟩]⟩,
  ⟨0x1c, 1, 0, [⟨31, 0, .ro, 1⟩]⟩,
  ⟨0x20, 1, 0, [⟨15, 0, .rw, 0xc350⟩]⟩,
  ⟨0x24, 1, 0, [⟨31, 24, .ro, 0⟩, ⟨15, 0, .ro, 0⟩]⟩,
  ⟨0x28, 1, 0, [⟨31, 0, .rw, 0⟩]⟩,
  ⟨0x2c, 1, 0, [⟨15, 0, .rw, 0⟩]⟩]
/-- CD_SEQ: CD_SEQ_POOL_LO, CD_SEQ_POOL_HI, CD_SEQ_POOLCNT, CD_SEQ_TIMG_LO, CD_SEQ_TIMG_HI, CD_SEQ_ENT0. -/
def rows_CD_SEQ_2 : List RegRow := [
  ⟨0x30, 1, 0, [⟨31, 0, .rw, 0⟩]⟩,
  ⟨0x34, 1, 0, [⟨15, 0, .rw, 0⟩]⟩,
  ⟨0x38, 1, 0, [⟨15, 0, .rwh, 0⟩]⟩,
  ⟨0x3c, 1, 0, [⟨31, 0, .rw, 0⟩]⟩,
  ⟨0x40, 1, 0, [⟨15, 0, .rw, 0⟩]⟩,
  ⟨0x2000, 256, 0x20, [⟨31, 24, .rwh, 0⟩, ⟨23, 16, .rwh, 0⟩, ⟨15, 8, .rwh, 0⟩, ⟨3, 3, .rwh, 0⟩, ⟨2, 0, .rwh, 0⟩]⟩]
/-- CD_SEQ: CD_SEQ_ENT1, CD_SEQ_ENT2, CD_SEQ_ENT3, CD_SEQ_ENT4, CD_SEQ_ENT5, CD_SEQ_ENT6. -/
def rows_CD_SEQ_3 : List RegRow := [
  ⟨0x2004, 256, 0x20, [⟨31, 0, .rwh, 0⟩]⟩,
  ⟨0x2008, 256, 0x20, [⟨31, 0, .rwh, 0⟩]⟩,
  ⟨0x200c, 256, 0x20, [⟨31, 0, .rwh, 0⟩]⟩,
  ⟨0x2010, 256, 0x20, [⟨31, 16, .rwh, 0⟩, ⟨15, 0, .rwh, 0⟩]⟩,
  ⟨0x2014, 256, 0x20, [⟨31, 9, .rwh, 0⟩]⟩,
  ⟨0x2018, 256, 0x20, [⟨15, 0, .rwh, 0⟩]⟩]
/-- CD_SEQ: CD_SEQ_ENT7. -/
def rows_CD_SEQ_4 : List RegRow := [
  ⟨0x201c, 256, 0x20, []⟩]
/-- The offset table of block CD_SEQ. -/
def rows_CD_SEQ : List RegRow := rows_CD_SEQ_0 ++ rows_CD_SEQ_1 ++ rows_CD_SEQ_2 ++ rows_CD_SEQ_3 ++ rows_CD_SEQ_4

/-- CD_ACT: CD_ACT_CMD, CD_ACT_STAT, CD_ACT_IDLE_LO, CD_ACT_IDLE_HI, CD_ACT_ETOT_LO, CD_ACT_ETOT_HI. -/
def rows_CD_ACT_0 : List RegRow := [
  ⟨0, 1, 0, [⟨0, 0, .wo, 0⟩]⟩,
  ⟨4, 1, 0, [⟨0, 0, .w1c, 0⟩]⟩,
  ⟨8, 1, 0, [⟨31, 0, .cnt, 0⟩]⟩,
  ⟨0xc, 1, 0, [⟨31, 0, .cnt, 0⟩]⟩,
  ⟨0x10, 1, 0, [⟨31, 0, .cnt, 0⟩]⟩,
  ⟨0x14, 1, 0, [⟨31, 0, .cnt, 0⟩]⟩]
/-- CD_ACT: CD_ACT_WT, CD_ACT_BRD_LO, CD_ACT_BRD_HI, CD_ACT_STR_LO, CD_ACT_STR_HI, CD_ACT_WSP_LO. -/
def rows_CD_ACT_1 : List RegRow := [
  ⟨0x40, 16, 4, [⟨31, 24, .rw, 1⟩, ⟨23, 16, .rw, 1⟩, ⟨15, 8, .rw, 1⟩, ⟨7, 0, .rw, 1⟩]⟩,
  ⟨0x1000, 64, 0x40, [⟨31, 0, .cnt, 0⟩]⟩,
  ⟨0x1004, 64, 0x40, [⟨31, 0, .cnt, 0⟩]⟩,
  ⟨0x1008, 64, 0x40, [⟨31, 0, .cnt, 0⟩]⟩,
  ⟨0x100c, 64, 0x40, [⟨31, 0, .cnt, 0⟩]⟩,
  ⟨0x1010, 64, 0x40, [⟨31, 0, .cnt, 0⟩]⟩]
/-- CD_ACT: CD_ACT_WSP_HI, CD_ACT_BSHELF_LO, CD_ACT_BSHELF_HI, CD_ACT_BSC_LO, CD_ACT_BSC_HI, CD_ACT_BDRAM_LO. -/
def rows_CD_ACT_2 : List RegRow := [
  ⟨0x1014, 64, 0x40, [⟨31, 0, .cnt, 0⟩]⟩,
  ⟨0x1018, 64, 0x40, [⟨31, 0, .cnt, 0⟩]⟩,
  ⟨0x101c, 64, 0x40, [⟨31, 0, .cnt, 0⟩]⟩,
  ⟨0x1020, 64, 0x40, [⟨31, 0, .cnt, 0⟩]⟩,
  ⟨0x1024, 64, 0x40, [⟨31, 0, .cnt, 0⟩]⟩,
  ⟨0x1028, 64, 0x40, [⟨31, 0, .cnt, 0⟩]⟩]
/-- CD_ACT: CD_ACT_BDRAM_HI, CD_ACT_BOTHER_LO, CD_ACT_BOTHER_HI, CD_ACT_ENERGY_LO, CD_ACT_ENERGY_HI. -/
def rows_CD_ACT_3 : List RegRow := [
  ⟨0x102c, 64, 0x40, [⟨31, 0, .cnt, 0⟩]⟩,
  ⟨0x1030, 64, 0x40, [⟨31, 0, .cnt, 0⟩]⟩,
  ⟨0x1034, 64, 0x40, [⟨31, 0, .cnt, 0⟩]⟩,
  ⟨0x1038, 64, 0x40, [⟨31, 0, .cnt, 0⟩]⟩,
  ⟨0x103c, 64, 0x40, [⟨31, 0, .cnt, 0⟩]⟩]
/-- The offset table of block CD_ACT. -/
def rows_CD_ACT : List RegRow := rows_CD_ACT_0 ++ rows_CD_ACT_1 ++ rows_CD_ACT_2 ++ rows_CD_ACT_3

/-- HD_SHF: HD_SHF_GCFG, HD_SHF_STAT. -/
def rows_HD_SHF_0 : List RegRow := [
  ⟨0, 1, 0, [⟨31, 31, .rwh, 0⟩, ⟨11, 0, .lck, 0xfff⟩]⟩,
  ⟨4, 1, 0, [⟨17, 17, .w1c, 0⟩, ⟨16, 16, .w1c, 0⟩, ⟨15, 12, .ro, 0xc⟩, ⟨11, 0, .ro, 0⟩]⟩]
/-- The offset table of block HD_SHF. -/
def rows_HD_SHF : List RegRow := rows_HD_SHF_0

/-- BT_SHF: BT_SHF_STAT, BT_SHF_CECNT, BT_SHF_UECNT, BT_SHF_ELOG, BT_SHF_CMD. -/
def rows_BT_SHF_0 : List RegRow := [
  ⟨0, 1, 0, [⟨5, 5, .w1c, 0⟩, ⟨4, 4, .w1c, 0⟩, ⟨3, 3, .w1c, 0⟩, ⟨2, 0, .ro, 0⟩]⟩,
  ⟨4, 1, 0, [⟨31, 0, .cnt, 0⟩]⟩,
  ⟨8, 1, 0, [⟨31, 0, .cnt, 0⟩]⟩,
  ⟨0xc, 1, 0, [⟨29, 28, .ro, 0⟩, ⟨19, 0, .ro, 0⟩]⟩,
  ⟨0x10, 1, 0, [⟨0, 0, .wo, 0⟩]⟩]
/-- The offset table of block BT_SHF. -/
def rows_BT_SHF : List RegRow := rows_BT_SHF_0

/-- HD_SC: HD_SC_CTL, HD_SC_STAT, HD_SC_WMASK, HD_SC_HIT_LO, HD_SC_HIT_HI, HD_SC_MISS_LO. -/
def rows_HD_SC_0 : List RegRow := [
  ⟨0, 1, 0, [⟨3, 0, .rw, 0⟩]⟩,
  ⟨4, 1, 0, [⟨11, 11, .w1c, 0⟩, ⟨10, 10, .w1c, 0⟩, ⟨9, 9, .w1c, 0⟩, ⟨8, 8, .ro, 0⟩, ⟨7, 6, .ro, 0⟩, ⟨3, 0, .ro, 0⟩]⟩,
  ⟨0x20, 8, 4, [⟨15, 0, .rw, 0xffff⟩]⟩,
  ⟨0x40, 1, 0, [⟨31, 0, .cnt, 0⟩]⟩,
  ⟨0x44, 1, 0, [⟨31, 0, .cnt, 0⟩]⟩,
  ⟨0x48, 1, 0, [⟨31, 0, .cnt, 0⟩]⟩]
/-- HD_SC: HD_SC_MISS_HI, HD_SC_CMD. -/
def rows_HD_SC_1 : List RegRow := [
  ⟨0x4c, 1, 0, [⟨31, 0, .cnt, 0⟩]⟩,
  ⟨0x50, 1, 0, [⟨0, 0, .wo, 0⟩]⟩]
/-- The offset table of block HD_SC. -/
def rows_HD_SC : List RegRow := rows_HD_SC_0 ++ rows_HD_SC_1

/-- XLT: XLT_CTL, XLT_STAT, XLT_DCT_LO, XLT_DCT_HI, XLT_INV, XLT_INVVA_LO. -/
def rows_XLT_0 : List RegRow := [
  ⟨0, 1, 0, [⟨4, 1, .rw, 0⟩, ⟨0, 0, .rw, 0⟩]⟩,
  ⟨4, 1, 0, [⟨11, 8, .ro, 0⟩, ⟨7, 7, .w1c, 0⟩, ⟨6, 6, .w1c, 0⟩, ⟨5, 5, .w1c, 0⟩, ⟨4, 4, .w1c, 0⟩, ⟨1, 1, .ro, 0⟩, ⟨0, 0, .ro, 0⟩]⟩,
  ⟨8, 1, 0, [⟨31, 12, .rw, 0⟩]⟩,
  ⟨0xc, 1, 0, [⟨15, 0, .rw, 0⟩]⟩,
  ⟨0x10, 1, 0, [⟨31, 16, .wo, 0⟩, ⟨6, 6, .wo, 0⟩, ⟨2, 0, .wo, 0⟩]⟩,
  ⟨0x14, 1, 0, [⟨31, 0, .rw, 0⟩]⟩]
/-- XLT: XLT_INVVA_HI, XLT_LOCK, XLT_LOCKVA_LO, XLT_LOCKVA_HI, XLT_FLT, XLT_FVA_LO. -/
def rows_XLT_1 : List RegRow := [
  ⟨0x18, 1, 0, [⟨15, 0, .rw, 0⟩]⟩,
  ⟨0x1c, 1, 0, [⟨31, 16, .wo, 0⟩, ⟨1, 0, .wo, 0⟩]⟩,
  ⟨0x20, 1, 0, [⟨31, 0, .rw, 0⟩]⟩,
  ⟨0x24, 1, 0, [⟨15, 0, .rw, 0⟩]⟩,
  ⟨0x28, 1, 0, [⟨31, 16, .ro, 0⟩, ⟨11, 8, .ro, 0⟩, ⟨1, 0, .ro, 0⟩]⟩,
  ⟨0x2c, 1, 0, [⟨31, 0, .ro, 0⟩]⟩]
/-- XLT: XLT_FVA_HI, XLT_LKAUD, XLT_FCNT, XLT_CMD. -/
def rows_XLT_2 : List RegRow := [
  ⟨0x30, 1, 0, [⟨15, 0, .ro, 0⟩]⟩,
  ⟨0x34, 1, 0, [⟨8, 0, .ro, 0⟩]⟩,
  ⟨0x38, 1, 0, [⟨31, 0, .cnt, 0⟩]⟩,
  ⟨0x3c, 1, 0, [⟨0, 0, .wo, 0⟩]⟩]
/-- The offset table of block XLT. -/
def rows_XLT : List RegRow := rows_XLT_0 ++ rows_XLT_1 ++ rows_XLT_2

/-- HD_MC: HD_MC_CTL, HD_MC_STAT, HD_MC_ELOG, HD_MC_CECNT, HD_MC_UECNT, HD_MC_FREFCNT. -/
def rows_HD_MC_0 : List RegRow := [
  ⟨0, 1, 0, [⟨31, 24, .rw, 0xa⟩, ⟨23, 16, .rw, 0x14⟩, ⟨15, 8, .rw, 0x18⟩]⟩,
  ⟨4, 1, 0, [⟨12, 12, .w1c, 0⟩, ⟨11, 11, .w1c, 0⟩, ⟨10, 10, .w1c, 0⟩, ⟨9, 9, .w1c, 0⟩, ⟨8, 8, .w1c, 0⟩, ⟨7, 6, .ro, 0⟩, ⟨4, 4, .ro, 0⟩, ⟨3, 3, .ro, 0⟩, ⟨2, 2, .ro, 0⟩, ⟨1, 1, .ro, 0⟩, ⟨0, 0, .ro, 0⟩]⟩,
  ⟨8, 1, 0, [⟨31, 30, .ro, 0⟩, ⟨29, 29, .ro, 0⟩, ⟨28, 27, .ro, 0⟩, ⟨24, 6, .ro, 0⟩, ⟨5, 0, .ro, 0⟩]⟩,
  ⟨0xc, 1, 0, [⟨31, 0, .cnt, 0⟩]⟩,
  ⟨0x10, 1, 0, [⟨31, 0, .cnt, 0⟩]⟩,
  ⟨0x14, 1, 0, [⟨31, 0, .cnt, 0⟩]⟩]
/-- HD_MC: HD_MC_SRCNT, HD_MC_REFAUD, HD_MC_QAUD, HD_MC_CMD, HD_MC_REG_CFG, HD_MC_REG_CTL. -/
def rows_HD_MC_1 : List RegRow := [
  ⟨0x18, 1, 0, [⟨31, 0, .cnt, 0⟩]⟩,
  ⟨0x1c, 1, 0, [⟨31, 0, .ro, 0⟩]⟩,
  ⟨0x20, 1, 0, [⟨23, 16, .ro, 0⟩, ⟨7, 0, .ro, 0⟩]⟩,
  ⟨0x24, 1, 0, [⟨0, 0, .wo, 0⟩]⟩,
  ⟨0x100, 8, 0x20, [⟨31, 16, .rw, 0⟩, ⟨15, 0, .rw, 0⟩]⟩,
  ⟨0x104, 8, 0x20, [⟨11, 11, .rw, 0⟩, ⟨10, 8, .rw, 0⟩, ⟨4, 4, .rw, 0⟩, ⟨3, 0, .rw, 0⟩]⟩]
/-- HD_MC: HD_MC_REG_EFF, HD_MC_REG_STAT, HD_MC_REG_AUD, HD_MC_REG_AUD2, HD_MC_REG_CNT. -/
def rows_HD_MC_2 : List RegRow := [
  ⟨0x108, 8, 0x20, [⟨31, 16, .ro, 0⟩, ⟨15, 0, .ro, 0⟩]⟩,
  ⟨0x10c, 8, 0x20, [⟨7, 6, .ro, 0⟩, ⟨5, 5, .w1c, 0⟩, ⟨4, 4, .w1c, 0⟩, ⟨3, 3, .w1c, 0⟩, ⟨2, 2, .w1c, 0⟩, ⟨1, 1, .ro, 0⟩]⟩,
  ⟨0x110, 8, 0x20, [⟨31, 16, .ro, 0⟩, ⟨15, 0, .ro, 0⟩]⟩,
  ⟨0x114, 8, 0x20, [⟨31, 16, .ro, 0⟩, ⟨15, 0, .ro, 0⟩]⟩,
  ⟨0x118, 8, 0x20, [⟨31, 16, .cnt, 0⟩, ⟨15, 0, .cnt, 0⟩]⟩]
/-- The offset table of block HD_MC. -/
def rows_HD_MC : List RegRow := rows_HD_MC_0 ++ rows_HD_MC_1 ++ rows_HD_MC_2

/-- HD_DMAP: HD_DMAP_CFG, HD_DMAP_MSTAT, HD_DMAP_MPTR, HD_DMAP_MCMD, HD_DMAP_PEND_LO, HD_DMAP_PEND_HI. -/
def rows_HD_DMAP_0 : List RegRow := [
  ⟨0, 1, 0, [⟨31, 31, .rwh, 0⟩, ⟨10, 8, .rw, 2⟩, ⟨3, 0, .lck, 1⟩]⟩,
  ⟨4, 1, 0, [⟨21, 21, .w1c, 0⟩, ⟨20, 20, .w1c, 0⟩, ⟨19, 19, .w1c, 0⟩, ⟨18, 18, .w1c, 0⟩, ⟨17, 17, .w1c, 0⟩, ⟨16, 16, .w1c, 0⟩, ⟨13, 12, .ro, 0⟩, ⟨10, 8, .ro, 0⟩, ⟨5, 0, .ro, 0⟩]⟩,
  ⟨8, 1, 0, [⟨18, 0, .ro, 0⟩]⟩,
  ⟨0xc, 1, 0, [⟨13, 8, .wo, 0⟩, ⟨3, 0, .wo, 0⟩]⟩,
  ⟨0x10, 1, 0, [⟨31, 0, .ro, 0⟩]⟩,
  ⟨0x14, 1, 0, [⟨31, 0, .ro, 0⟩]⟩]
/-- HD_DMAP: HD_DMAP_JSEQ, HD_DMAP_JDEF, HD_DMAP_RMAP. -/
def rows_HD_DMAP_1 : List RegRow := [
  ⟨0x18, 1, 0, [⟨31, 0, .ro, 0⟩]⟩,
  ⟨0x1c, 1, 0, [⟨31, 0, .cnt, 0⟩]⟩,
  ⟨0x20, 8, 4, [⟨31, 0, .rwh, 0⟩]⟩]
/-- The offset table of block HD_DMAP. -/
def rows_HD_DMAP : List RegRow := rows_HD_DMAP_0 ++ rows_HD_DMAP_1

/-- HD_MEE: HD_MEE_CTL, HD_MEE_STAT, HD_MEE_RBASE, HD_MEE_RLIM, HD_MEE_RCFG. -/
def rows_HD_MEE_0 : List RegRow := [
  ⟨0, 1, 0, [⟨0, 0, .rwh, 0⟩]⟩,
  ⟨4, 1, 0, [⟨3, 3, .w1c, 0⟩, ⟨2, 2, .w1c, 0⟩, ⟨1, 1, .w1c, 0⟩, ⟨0, 0, .ro, 0⟩]⟩,
  ⟨0x110, 15, 0x10, [⟨16, 0, .lck, 0⟩]⟩,
  ⟨0x114, 15, 0x10, [⟨16, 0, .lck, 0⟩]⟩,
  ⟨0x108, 16, 0x10, [⟨8, 8, .lck, 0⟩, ⟨4, 0, .lck, 0⟩]⟩]
/-- The offset table of block HD_MEE. -/
def rows_HD_MEE : List RegRow := rows_HD_MEE_0

/-- LNK: LNK_CTL, LNK_STAT, LNK_CMD, LNK_FABAUD0, LNK_FABAUD1, LNK_MST. -/
def rows_LNK_0 : List RegRow := [
  ⟨0, 1, 0, [⟨13, 8, .rw, 0xc⟩, ⟨7, 0, .rw, 4⟩]⟩,
  ⟨4, 1, 0, [⟨4, 4, .w1c, 0⟩, ⟨3, 3, .w1c, 0⟩, ⟨2, 2, .w1c, 0⟩, ⟨1, 1, .w1c, 0⟩, ⟨0, 0, .w1c, 0⟩]⟩,
  ⟨8, 1, 0, [⟨12, 8, .wo, 0⟩, ⟨3, 0, .wo, 0⟩]⟩,
  ⟨0xc, 1, 0, [⟨31, 16, .ro, 0⟩, ⟨15, 0, .ro, 0⟩]⟩,
  ⟨0x10, 1, 0, [⟨15, 0, .ro, 0⟩]⟩,
  ⟨0x100, 18, 0x20, [⟨31, 29, .ro, 0⟩, ⟨28, 28, .ro, 0⟩, ⟨27, 26, .ro, 0⟩, ⟨3, 3, .w1c, 0⟩, ⟨2, 2, .w1c, 0⟩, ⟨1, 1, .w1c, 0⟩, ⟨0, 0, .w1c, 0⟩]⟩]
/-- LNK: LNK_LMAP, LNK_EYE, LNK_RETRY, LNK_CRAUD0, LNK_CRAUD1, LNK_CRAUD2. -/
def rows_LNK_1 : List RegRow := [
  ⟨0x104, 18, 0x20, [⟨17, 0, .rwh, 0⟩]⟩,
  ⟨0x108, 18, 0x20, [⟨12, 8, .ro, 0⟩, ⟨5, 0, .ro, 0⟩]⟩,
  ⟨0x10c, 18, 0x20, [⟨31, 0, .cnt, 0⟩]⟩,
  ⟨0x110, 18, 0x20, [⟨31, 0, .ro, 0⟩]⟩,
  ⟨0x114, 18, 0x20, [⟨31, 0, .ro, 0⟩]⟩,
  ⟨0x118, 18, 0x20, [⟨31, 0, .ro, 0⟩]⟩]
/-- The offset table of block LNK. -/
def rows_LNK : List RegRow := rows_LNK_0 ++ rows_LNK_1

/-- REG: REG_BSTAT, REG_CMD, REG_CFG, REG_CTL, REG_EFF, REG_STAT. -/
def rows_REG_0 : List RegRow := [
  ⟨0, 1, 0, [⟨0, 0, .w1c, 0⟩]⟩,
  ⟨4, 1, 0, [⟨0, 0, .wo, 0⟩]⟩,
  ⟨0x100, 8, 0x20, [⟨31, 16, .rw, 0⟩, ⟨15, 0, .rw, 0⟩]⟩,
  ⟨0x104, 8, 0x20, [⟨11, 11, .rw, 0⟩, ⟨10, 8, .rw, 0⟩, ⟨4, 4, .rw, 0⟩, ⟨3, 0, .rw, 0⟩]⟩,
  ⟨0x108, 8, 0x20, [⟨31, 16, .ro, 0⟩, ⟨15, 0, .ro, 0⟩]⟩,
  ⟨0x10c, 8, 0x20, [⟨7, 6, .ro, 0⟩, ⟨5, 5, .w1c, 0⟩, ⟨4, 4, .w1c, 0⟩, ⟨3, 3, .w1c, 0⟩, ⟨2, 2, .w1c, 0⟩, ⟨1, 1, .ro, 0⟩]⟩]
/-- REG: REG_AUD, REG_AUD2, REG_CNT. -/
def rows_REG_1 : List RegRow := [
  ⟨0x110, 8, 0x20, [⟨31, 16, .ro, 0⟩, ⟨15, 0, .ro, 0⟩]⟩,
  ⟨0x114, 8, 0x20, [⟨31, 16, .ro, 0⟩, ⟨15, 0, .ro, 0⟩]⟩,
  ⟨0x118, 8, 0x20, [⟨31, 16, .cnt, 0⟩, ⟨15, 0, .cnt, 0⟩]⟩]
/-- The offset table of block REG. -/
def rows_REG : List RegRow := rows_REG_0 ++ rows_REG_1

/-- HD_DMA: DMA_STAT, DMA_CMD, DMA_AUD, DMA_RBASE_LO, DMA_RBASE_HI, DMA_CBASE_LO. -/
def rows_HD_DMA_0 : List RegRow := [
  ⟨0, 1, 0, [⟨17, 17, .w1c, 0⟩, ⟨16, 16, .w1c, 0⟩, ⟨15, 0, .w1c, 0⟩]⟩,
  ⟨4, 1, 0, [⟨11, 8, .wo, 0⟩, ⟨3, 0, .wo, 0⟩]⟩,
  ⟨8, 1, 0, [⟨8, 0, .ro, 0⟩]⟩,
  ⟨0x100, 16, 0x20, [⟨31, 5, .rw, 0⟩]⟩,
  ⟨0x104, 16, 0x20, [⟨15, 0, .rw, 0⟩]⟩,
  ⟨0x108, 16, 0x20, [⟨31, 4, .rw, 0⟩]⟩]
/-- HD_DMA: DMA_CBASE_HI, DMA_CFG, DMA_DB, DMA_PTR, DMA_CST. -/
def rows_HD_DMA_1 : List RegRow := [
  ⟨0x10c, 16, 0x20, [⟨15, 0, .rw, 0⟩]⟩,
  ⟨0x110, 16, 0x20, [⟨31, 16, .rw, 0⟩, ⟨11, 8, .rw, 4⟩, ⟨0, 0, .rw, 0⟩]⟩,
  ⟨0x114, 16, 0x20, [⟨11, 0, .wo, 0⟩]⟩,
  ⟨0x118, 16, 0x20, [⟨27, 16, .ro, 0⟩, ⟨11, 0, .ro, 0⟩]⟩,
  ⟨0x11c, 16, 0x20, [⟨31, 30, .ro, 0⟩, ⟨4, 0, .ro, 0⟩]⟩]
/-- The offset table of block HD_DMA. -/
def rows_HD_DMA : List RegRow := rows_HD_DMA_0 ++ rows_HD_DMA_1

/-- HD_FW: FW_CTL, FW_STAT, FW_DENYCNT, FW_DLOG_LO, FW_DLOG_HI, FW_CMD. -/
def rows_HD_FW_0 : List RegRow := [
  ⟨0, 1, 0, [⟨31, 31, .rwh, 0⟩, ⟨9, 8, .lck, 0⟩, ⟨1, 1, .lck, 0⟩, ⟨0, 0, .lck, 0⟩]⟩,
  ⟨4, 1, 0, [⟨3, 3, .w1c, 0⟩, ⟨2, 2, .w1c, 0⟩, ⟨1, 1, .w1c, 0⟩, ⟨0, 0, .ro, 0⟩]⟩,
  ⟨8, 1, 0, [⟨31, 0, .cnt, 0⟩]⟩,
  ⟨0xc, 1, 0, [⟨31, 0, .ro, 0⟩]⟩,
  ⟨0x10, 1, 0, [⟨31, 20, .ro, 0⟩, ⟨19, 16, .ro, 0⟩, ⟨15, 0, .ro, 0⟩]⟩,
  ⟨0x14, 1, 0, [⟨0, 0, .wo, 0⟩]⟩]
/-- HD_FW: FW_WBASE_LO, FW_WBASE_HI, FW_WLIM_LO, FW_WLIM_HI, FW_WCFG. -/
def rows_HD_FW_1 : List RegRow := [
  ⟨0x100, 8, 0x20, [⟨31, 12, .lck, 0⟩]⟩,
  ⟨0x104, 8, 0x20, [⟨15, 0, .lck, 0⟩]⟩,
  ⟨0x108, 8, 0x20, [⟨31, 12, .lck, 0⟩]⟩,
  ⟨0x10c, 8, 0x20, [⟨15, 0, .lck, 0⟩]⟩,
  ⟨0x110, 8, 0x20, [⟨31, 24, .lck, 0⟩, ⟨23, 16, .lck, 0⟩, ⟨15, 4, .lck, 0⟩, ⟨2, 2, .lck, 0⟩, ⟨1, 1, .lck, 0⟩, ⟨0, 0, .lck, 0⟩]⟩]
/-- The offset table of block HD_FW. -/
def rows_HD_FW : List RegRow := rows_HD_FW_0 ++ rows_HD_FW_1

/-- HD_TB: TB_CTL, TB_STAT, TB_NOW_LO, TB_NOW_HI, TB_OFS_LO, TB_OFS_HI. -/
def rows_HD_TB_0 : List RegRow := [
  ⟨0, 1, 0, [⟨7, 4, .rw, 0⟩, ⟨0, 0, .rw, 0⟩]⟩,
  ⟨4, 1, 0, [⟨4, 4, .w1c, 0⟩, ⟨3, 3, .w1c, 0⟩, ⟨2, 2, .w1c, 0⟩, ⟨1, 1, .w1c, 0⟩, ⟨0, 0, .ro, 0⟩]⟩,
  ⟨8, 1, 0, [⟨31, 0, .ro, 0⟩]⟩,
  ⟨0xc, 1, 0, [⟨31, 0, .ro, 0⟩]⟩,
  ⟨0x10, 1, 0, [⟨31, 0, .ro, 0⟩]⟩,
  ⟨0x14, 1, 0, [⟨31, 0, .ro, 0⟩]⟩]
/-- HD_TB: TB_RATE, TB_SYNCTO. -/
def rows_HD_TB_1 : List RegRow := [
  ⟨0x18, 1, 0, [⟨31, 0, .ro, 0⟩]⟩,
  ⟨0x1c, 1, 0, [⟨15, 0, .rw, 0x1f4⟩]⟩]
/-- The offset table of block HD_TB. -/
def rows_HD_TB : List RegRow := rows_HD_TB_0 ++ rows_HD_TB_1

/-- HD_ING: ING_CTL, ING_STAT, ING_CMD, ING_STBASE_LO, ING_STBASE_HI, ING_DEVCTX. -/
def rows_HD_ING_0 : List RegRow := [
  ⟨0, 1, 0, [⟨0, 0, .rw, 0⟩]⟩,
  ⟨4, 1, 0, [⟨3, 3, .w1c, 0⟩, ⟨2, 2, .w1c, 0⟩, ⟨1, 1, .w1c, 0⟩, ⟨0, 0, .ro, 0⟩]⟩,
  ⟨8, 1, 0, [⟨0, 0, .wo, 0⟩]⟩,
  ⟨0xc, 1, 0, [⟨31, 6, .rw, 0⟩]⟩,
  ⟨0x10, 1, 0, [⟨15, 0, .rw, 0⟩]⟩,
  ⟨0x14, 1, 0, [⟨15, 0, .rw, 0⟩]⟩]
/-- HD_ING: ING_ETHLAT, ING_LATE, ING_OVERRUN, ING_RCFG, ING_RBASE_LO, ING_RBASE_HI. -/
def rows_HD_ING_1 : List RegRow := [
  ⟨0x20, 8, 4, [⟨15, 0, .rw, 0⟩]⟩,
  ⟨0x40, 1, 0, [⟨31, 0, .cnt, 0⟩]⟩,
  ⟨0x44, 1, 0, [⟨31, 0, .cnt, 0⟩]⟩,
  ⟨0x1000, 64, 0x40, [⟨31, 16, .rw, 0x64⟩, ⟨15, 11, .rw, 6⟩, ⟨10, 7, .rw, 4⟩, ⟨1, 1, .rw, 0⟩, ⟨0, 0, .rw, 0⟩]⟩,
  ⟨0x1004, 64, 0x40, [⟨31, 6, .rw, 0⟩]⟩,
  ⟨0x1008, 64, 0x40, [⟨15, 0, .rw, 0⟩]⟩]
/-- HD_ING: ING_RPTR, ING_RCONS, ING_WM, ING_WMCNT, ING_TAKE, ING_TAKEST. -/
def rows_HD_ING_2 : List RegRow := [
  ⟨0x100c, 64, 0x40, [⟨31, 16, .ro, 0⟩, ⟨15, 0, .ro, 0⟩]⟩,
  ⟨0x1010, 64, 0x40, [⟨15, 0, .rw, 0⟩]⟩,
  ⟨0x1014, 64, 0x40, [⟨31, 16, .rw, 0xffff⟩, ⟨3, 3, .w1c, 0⟩, ⟨2, 2, .w1c, 0⟩, ⟨1, 1, .ro, 0⟩]⟩,
  ⟨0x1018, 64, 0x40, [⟨15, 0, .cnt, 0⟩]⟩,
  ⟨0x101c, 64, 0x40, [⟨15, 0, .wo, 0⟩]⟩,
  ⟨0x1020, 64, 0x40, [⟨31, 31, .w1c, 0⟩, ⟨30, 30, .ro, 0⟩, ⟨15, 0, .ro, 0⟩]⟩]
/-- HD_ING: ING_TAKEFIRST, ING_DROP. -/
def rows_HD_ING_3 : List RegRow := [
  ⟨0x1024, 64, 0x40, [⟨15, 0, .ro, 0⟩]⟩,
  ⟨0x1028, 64, 0x40, [⟨31, 0, .cnt, 0⟩]⟩]
/-- The offset table of block HD_ING. -/
def rows_HD_ING : List RegRow := rows_HD_ING_0 ++ rows_HD_ING_1 ++ rows_HD_ING_2 ++ rows_HD_ING_3

/-- HD_EGO: EGO_CTL, EGO_STAT, EGO_BIAS_LO, EGO_BIAS_HI, EGO_BIASCMD, EGO_BIASSEQ. -/
def rows_HD_EGO_0 : List RegRow := [
  ⟨0, 1, 0, [⟨0, 0, .rw, 0⟩]⟩,
  ⟨4, 1, 0, [⟨9, 9, .w1c, 0⟩, ⟨8, 8, .w1c, 0⟩, ⟨7, 7, .w1c, 0⟩, ⟨6, 6, .w1c, 0⟩, ⟨5, 5, .w1c, 0⟩, ⟨4, 4, .ro, 0⟩, ⟨3, 3, .ro, 0⟩, ⟨2, 2, .ro, 0⟩, ⟨1, 1, .ro, 0⟩, ⟨0, 0, .ro, 0⟩]⟩,
  ⟨8, 1, 0, [⟨31, 7, .rw, 0⟩]⟩,
  ⟨0xc, 1, 0, [⟨15, 0, .rw, 0⟩]⟩,
  ⟨0x10, 1, 0, [⟨0, 0, .wo, 0⟩]⟩,
  ⟨0x14, 1, 0, [⟨31, 0, .ro, 0⟩]⟩]
/-- HD_EGO: EGO_TICK_LO, EGO_TICK_HI. -/
def rows_HD_EGO_1 : List RegRow := [
  ⟨0x18, 1, 0, [⟨31, 0, .ro, 0⟩]⟩,
  ⟨0x1c, 1, 0, [⟨31, 0, .ro, 0⟩]⟩]
/-- The offset table of block HD_EGO. -/
def rows_HD_EGO : List RegRow := rows_HD_EGO_0 ++ rows_HD_EGO_1

/-- HD_ALN: ALN_CTL, ALN_STAT, ALN_CFG, ALN_RBASE_LO, ALN_RBASE_HI, ALN_CBASE_LO. -/
def rows_HD_ALN_0 : List RegRow := [
  ⟨0, 1, 0, [⟨0, 0, .rw, 0⟩]⟩,
  ⟨4, 1, 0, [⟨7, 7, .w1c, 0⟩, ⟨6, 6, .w1c, 0⟩, ⟨5, 5, .w1c, 0⟩, ⟨4, 4, .w1c, 0⟩, ⟨3, 3, .w1c, 0⟩, ⟨2, 2, .w1c, 0⟩, ⟨0, 0, .ro, 0⟩]⟩,
  ⟨8, 1, 0, [⟨31, 16, .rw, 0⟩, ⟨11, 8, .rw, 4⟩]⟩,
  ⟨0xc, 1, 0, [⟨31, 6, .rw, 0⟩]⟩,
  ⟨0x10, 1, 0, [⟨15, 0, .rw, 0⟩]⟩,
  ⟨0x14, 1, 0, [⟨31, 6, .rw, 0⟩]⟩]
/-- HD_ALN: ALN_CBASE_HI, ALN_DB, ALN_PTR, ALN_CMD, ALN_GSEQ, ALN_CALCTL. -/
def rows_HD_ALN_1 : List RegRow := [
  ⟨0x18, 1, 0, [⟨15, 0, .rw, 0⟩]⟩,
  ⟨0x1c, 1, 0, [⟨11, 0, .wo, 0⟩]⟩,
  ⟨0x20, 1, 0, [⟨27, 16, .ro, 0⟩, ⟨11, 0, .ro, 0⟩]⟩,
  ⟨0x24, 1, 0, [⟨3, 0, .wo, 0⟩]⟩,
  ⟨0x28, 1, 0, [⟨31, 0, .ro, 0⟩]⟩,
  ⟨0x2c, 1, 0, [⟨31, 31, .rwh, 0⟩]⟩]
/-- HD_ALN: ALN_CALBASE_LO, ALN_CALBASE_HI, ALN_GRID_LO, ALN_GRID_HI. -/
def rows_HD_ALN_2 : List RegRow := [
  ⟨0x30, 1, 0, [⟨31, 11, .lck, 0⟩]⟩,
  ⟨0x34, 1, 0, [⟨15, 0, .rw, 0⟩]⟩,
  ⟨0x38, 1, 0, [⟨31, 6, .rw, 0⟩]⟩,
  ⟨0x3c, 1, 0, [⟨15, 0, .rw, 0⟩]⟩]
/-- The offset table of block HD_ALN. -/
def rows_HD_ALN : List RegRow := rows_HD_ALN_0 ++ rows_HD_ALN_1 ++ rows_HD_ALN_2

/-- HD_TRJ: TRJ_CTL, TRJ_STAT, TRJ_CMD, TRJ_PLAN_LO, TRJ_PLAN_HI, TRJ_CFG. -/
def rows_HD_TRJ_0 : List RegRow := [
  ⟨0, 1, 0, [⟨31, 24, .rw, 0x14⟩, ⟨6, 4, .rw, 0⟩, ⟨1, 1, .rw, 0⟩, ⟨0, 0, .rw, 0⟩]⟩,
  ⟨4, 1, 0, [⟨10, 10, .w1c, 0⟩, ⟨9, 9, .w1c, 0⟩, ⟨8, 8, .w1c, 0⟩, ⟨7, 7, .w1c, 0⟩, ⟨6, 6, .w1c, 0⟩, ⟨5, 5, .w1c, 0⟩, ⟨4, 4, .w1c, 0⟩, ⟨1, 0, .ro, 0⟩]⟩,
  ⟨8, 1, 0, [⟨3, 0, .wo, 0⟩]⟩,
  ⟨0xc, 1, 0, [⟨31, 6, .rw, 0⟩]⟩,
  ⟨0x10, 1, 0, [⟨15, 0, .rw, 0⟩]⟩,
  ⟨0x14, 1, 0, [⟨31, 16, .rw, 0⟩, ⟨3, 0, .rw, 4⟩]⟩]
/-- HD_TRJ: TRJ_DRBASE_LO, TRJ_DRBASE_HI, TRJ_DDB, TRJ_DPTR, TRJ_RES_LO, TRJ_RES_HI. -/
def rows_HD_TRJ_1 : List RegRow := [
  ⟨0x18, 1, 0, [⟨31, 5, .rw, 0⟩]⟩,
  ⟨0x1c, 1, 0, [⟨15, 0, .rw, 0⟩]⟩,
  ⟨0x20, 1, 0, [⟨9, 0, .wo, 0⟩]⟩,
  ⟨0x24, 1, 0, [⟨25, 16, .ro, 0⟩, ⟨9, 0, .ro, 0⟩]⟩,
  ⟨0x28, 1, 0, [⟨31, 11, .rw, 0⟩]⟩,
  ⟨0x2c, 1, 0, [⟨15, 0, .rw, 0⟩]⟩]
/-- HD_TRJ: TRJ_SEQ, TRJ_PROG, TRJ_FLT, TRJ_EMAC_LO, TRJ_EMAC_HI, TRJ_EVLAN. -/
def rows_HD_TRJ_2 : List RegRow := [
  ⟨0x30, 1, 0, [⟨31, 0, .ro, 0⟩]⟩,
  ⟨0x34, 1, 0, [⟨30, 16, .ro, 0⟩, ⟨14, 0, .ro, 0⟩]⟩,
  ⟨0x38, 1, 0, [⟨9, 8, .ro, 0⟩, ⟨7, 4, .ro, 0⟩, ⟨3, 0, .ro, 0⟩]⟩,
  ⟨0x3c, 1, 0, [⟨31, 0, .rw, 0⟩]⟩,
  ⟨0x40, 1, 0, [⟨15, 0, .rw, 0⟩]⟩,
  ⟨0x44, 1, 0, [⟨15, 0, .rw, 0xe000⟩]⟩]
/-- HD_TRJ: TRJ_CNT0, TRJ_CNT1. -/
def rows_HD_TRJ_3 : List RegRow := [
  ⟨0x48, 1, 0, [⟨31, 16, .cnt, 0⟩, ⟨15, 0, .cnt, 0⟩]⟩,
  ⟨0x4c, 1, 0, [⟨31, 16, .cnt, 0⟩, ⟨15, 0, .cnt, 0⟩]⟩]
/-- The offset table of block HD_TRJ. -/
def rows_HD_TRJ : List RegRow := rows_HD_TRJ_0 ++ rows_HD_TRJ_1 ++ rows_HD_TRJ_2 ++ rows_HD_TRJ_3

/-- HD_CLP: CLP_CTL, CLP_STAT, CLP_RBASE_LO, CLP_RBASE_HI, CLP_DB, CLP_PTR. -/
def rows_HD_CLP_0 : List RegRow := [
  ⟨0, 1, 0, [⟨31, 16, .rw, 0⟩, ⟨11, 8, .rw, 4⟩, ⟨0, 0, .rw, 0⟩]⟩,
  ⟨4, 1, 0, [⟨8, 8, .w1c, 0⟩, ⟨7, 7, .w1c, 0⟩, ⟨6, 6, .w1c, 0⟩, ⟨5, 5, .w1c, 0⟩, ⟨4, 4, .w1c, 0⟩, ⟨3, 3, .ro, 0⟩, ⟨2, 2, .ro, 0⟩, ⟨1, 1, .ro, 0⟩, ⟨0, 0, .ro, 0⟩]⟩,
  ⟨8, 1, 0, [⟨31, 6, .rw, 0⟩]⟩,
  ⟨0xc, 1, 0, [⟨15, 0, .rw, 0⟩]⟩,
  ⟨0x10, 1, 0, [⟨11, 0, .wo, 0⟩]⟩,
  ⟨0x14, 1, 0, [⟨27, 16, .ro, 0⟩, ⟨11, 0, .ro, 0⟩]⟩]
/-- HD_CLP: CLP_HB, CLP_VOTE, CLP_CNT, CLP_CMD. -/
def rows_HD_CLP_1 : List RegRow := [
  ⟨0x18, 1, 0, [⟨6, 0, .wo, 0⟩]⟩,
  ⟨0x1c, 1, 0, [⟨9, 9, .ro, 0⟩, ⟨8, 8, .ro, 0⟩, ⟨7, 4, .ro, 0⟩, ⟨3, 0, .ro, 0⟩]⟩,
  ⟨0x20, 1, 0, [⟨31, 16, .cnt, 0⟩, ⟨15, 0, .cnt, 0⟩]⟩,
  ⟨0x24, 1, 0, [⟨3, 0, .wo, 0⟩]⟩]
/-- The offset table of block HD_CLP. -/
def rows_HD_CLP : List RegRow := rows_HD_CLP_0 ++ rows_HD_CLP_1

/-- MIR: MIR_GEN, MIR_GEN2, MIR_STATE, MIR_SEQREF, MIR_GSEQ, MIR_TASKV. -/
def rows_MIR_0 : List RegRow := [
  ⟨0, 1, 0, [⟨31, 0, .ro, 0⟩]⟩,
  ⟨0xffc, 1, 0, [⟨31, 0, .ro, 0⟩]⟩,
  ⟨4, 1, 0, [⟨23, 16, .ro, 0⟩, ⟨15, 8, .ro, 0⟩, ⟨2, 0, .ro, 0⟩]⟩,
  ⟨8, 1, 0, [⟨31, 0, .ro, 0⟩]⟩,
  ⟨0xc, 1, 0, [⟨31, 0, .ro, 0⟩]⟩,
  ⟨0x10, 4, 4, [⟨31, 0, .ro, 0⟩]⟩]
/-- MIR: MIR_REFUSE, MIR_LINK, MIR_RSP. -/
def rows_MIR_1 : List RegRow := [
  ⟨0x20, 1, 0, [⟨31, 24, .ro, 0⟩, ⟨23, 16, .ro, 0⟩, ⟨15, 0, .ro, 0⟩]⟩,
  ⟨0x24, 1, 0, [⟨31, 16, .ro, 0⟩, ⟨15, 0, .ro, 0⟩]⟩,
  ⟨0x100, 64, 4, [⟨31, 16, .ro, 0⟩, ⟨7, 0, .ro, 0⟩]⟩]
/-- The offset table of block MIR. -/
def rows_MIR : List RegRow := rows_MIR_0 ++ rows_MIR_1

/-- HD_MBX: MBX_CTL, MBX_STAT, MBX_CMD, MBX_IDERRCNT, MBX_ELOG, MBX_FLAG. -/
def rows_HD_MBX_0 : List RegRow := [
  ⟨0, 1, 0, [⟨31, 31, .rwh, 0⟩]⟩,
  ⟨4, 1, 0, [⟨3, 3, .w1c, 0⟩, ⟨2, 2, .w1c, 0⟩, ⟨1, 1, .w1c, 0⟩, ⟨0, 0, .w1c, 0⟩]⟩,
  ⟨8, 1, 0, [⟨0, 0, .wo, 0⟩]⟩,
  ⟨0xc, 1, 0, [⟨31, 0, .cnt, 0⟩]⟩,
  ⟨0x10, 1, 0, [⟨31, 20, .ro, 0⟩, ⟨19, 12, .ro, 0⟩, ⟨4, 0, .ro, 0⟩]⟩,
  ⟨0x100, 64, 4, [⟨31, 0, .rw, 0⟩]⟩]
/-- HD_MBX: MBX_CHTAB0, MBX_CHTAB1, MBX_CHTAB2, MBX_SPTR_LO, MBX_SPTR_HI, MBX_STAG. -/
def rows_HD_MBX_1 : List RegRow := [
  ⟨0x1000, 256, 0x10, [⟨31, 31, .lck, 0⟩, ⟨27, 16, .lck, 0⟩, ⟨11, 0, .lck, 0⟩]⟩,
  ⟨0x1004, 256, 0x10, [⟨31, 29, .lck, 0⟩, ⟨28, 24, .lck, 0⟩, ⟨7, 0, .lck, 0⟩]⟩,
  ⟨0x1008, 256, 0x10, [⟨31, 29, .lck, 0⟩, ⟨28, 24, .lck, 0⟩, ⟨7, 0, .lck, 0⟩]⟩,
  ⟨0x8000, 256, 0x20, [⟨31, 0, .rw, 0⟩]⟩,
  ⟨0x8004, 256, 0x20, [⟨31, 0, .rw, 0⟩]⟩,
  ⟨0x8008, 256, 0x20, [⟨31, 0, .wo, 0⟩]⟩]
/-- HD_MBX: MBX_CST, MBX_RPTR_LO, MBX_RPTR_HI, MBX_RTAG, MBX_RPOP, MBX_CNT. -/
def rows_HD_MBX_2 : List RegRow := [
  ⟨0x800c, 256, 0x20, [⟨9, 9, .ro, 0⟩, ⟨8, 8, .ro, 0⟩, ⟨2, 0, .ro, 0⟩]⟩,
  ⟨0x8010, 256, 0x20, [⟨31, 0, .ro, 0⟩]⟩,
  ⟨0x8014, 256, 0x20, [⟨31, 0, .ro, 0⟩]⟩,
  ⟨0x8018, 256, 0x20, [⟨31, 0, .ro, 0⟩]⟩,
  ⟨0x801c, 256, 0x20, [⟨0, 0, .wo, 0⟩]⟩,
  ⟨0xa000, 256, 4, [⟨31, 16, .ro, 0⟩, ⟨15, 0, .ro, 0⟩]⟩]
/-- The offset table of block HD_MBX. -/
def rows_HD_MBX : List RegRow := rows_HD_MBX_0 ++ rows_HD_MBX_1 ++ rows_HD_MBX_2

/-- HD_ACX: ACX_STAT, ACX_CMD, ACX_CECNT, ACX_UECNT, ACX_ELOG_LO, ACX_ELOG_HI. -/
def rows_HD_ACX_0 : List RegRow := [
  ⟨0, 1, 0, [⟨2, 2, .w1c, 0⟩, ⟨1, 1, .w1c, 0⟩, ⟨0, 0, .w1c, 0⟩]⟩,
  ⟨4, 1, 0, [⟨0, 0, .wo, 0⟩]⟩,
  ⟨8, 1, 0, [⟨31, 0, .cnt, 0⟩]⟩,
  ⟨0xc, 1, 0, [⟨31, 0, .cnt, 0⟩]⟩,
  ⟨0x10, 1, 0, [⟨31, 6, .ro, 0⟩]⟩,
  ⟨0x14, 1, 0, [⟨19, 16, .ro, 0⟩, ⟨15, 0, .ro, 0⟩]⟩]
/-- HD_ACX: MTIMECMP_LO, MTIMECMP_HI. -/
def rows_HD_ACX_1 : List RegRow := [
  ⟨0x100, 8, 8, [⟨31, 0, .rw, 0xffffffff⟩]⟩,
  ⟨0x104, 8, 8, [⟨31, 0, .rw, 0xffffffff⟩]⟩]
/-- The offset table of block HD_ACX. -/
def rows_HD_ACX : List RegRow := rows_HD_ACX_0 ++ rows_HD_ACX_1

/-- HD_IRQ: IRQ_CTL, IRQ_STAT, IRQ_CMD, IRQ_MSIREFCNT, IRQ_MSIREFLOG. -/
def rows_HD_IRQ_0 : List RegRow := [
  ⟨0, 1, 0, [⟨1, 0, .rw, 0⟩]⟩,
  ⟨4, 1, 0, [⟨1, 1, .w1c, 0⟩, ⟨0, 0, .w1c, 0⟩]⟩,
  ⟨8, 1, 0, [⟨0, 0, .wo, 0⟩]⟩,
  ⟨0xc, 1, 0, [⟨31, 0, .cnt, 0⟩]⟩,
  ⟨0x10, 1, 0, [⟨31, 20, .ro, 0⟩, ⟨13, 13, .ro, 0⟩, ⟨12, 8, .ro, 0⟩, ⟨7, 0, .ro, 0⟩]⟩]
/-- The offset table of block HD_IRQ. -/
def rows_HD_IRQ : List RegRow := rows_HD_IRQ_0

/-- HD_HWS: HWS_CTL, HWS_STAT, HWS_CMD, HWS_HKEY, HWS_MAUD, HWS_MTOK_LO. -/
def rows_HD_HWS_0 : List RegRow := [
  ⟨0, 1, 0, [⟨8, 8, .ro, 0⟩, ⟨2, 1, .rw, 0⟩, ⟨0, 0, .rw, 0⟩]⟩,
  ⟨4, 1, 0, [⟨13, 13, .w1c, 0⟩, ⟨12, 12, .w1c, 0⟩, ⟨11, 11, .w1c, 0⟩, ⟨10, 10, .w1c, 0⟩, ⟨9, 9, .w1c, 0⟩, ⟨8, 8, .w1c, 0⟩, ⟨7, 7, .w1c, 0⟩, ⟨3, 3, .ro, 0⟩, ⟨2, 2, .ro, 0⟩, ⟨1, 1, .ro, 0⟩, ⟨0, 0, .ro, 0⟩]⟩,
  ⟨8, 1, 0, [⟨3, 0, .wo, 0⟩]⟩,
  ⟨0xc, 1, 0, [⟨31, 0, .rw, 0⟩]⟩,
  ⟨0x10, 1, 0, [⟨22, 12, .ro, 0⟩, ⟨8, 0, .ro, 0⟩]⟩,
  ⟨0x14, 1, 0, [⟨31, 0, .cnt, 0⟩]⟩]
/-- HD_HWS: HWS_MTOK_HI, HWS_CNT0, HWS_CNT1, HWS_DCFG, HWS_DRBASE_LO, HWS_DRBASE_HI. -/
def rows_HD_HWS_1 : List RegRow := [
  ⟨0x18, 1, 0, [⟨31, 0, .cnt, 0⟩]⟩,
  ⟨0x1c, 1, 0, [⟨31, 16, .cnt, 0⟩, ⟨15, 0, .cnt, 0⟩]⟩,
  ⟨0x20, 1, 0, [⟨31, 16, .cnt, 0⟩, ⟨15, 0, .cnt, 0⟩]⟩,
  ⟨0x24, 1, 0, [⟨31, 16, .rw, 0⟩, ⟨11, 8, .rw, 4⟩]⟩,
  ⟨0x28, 1, 0, [⟨31, 6, .rw, 0⟩]⟩,
  ⟨0x2c, 1, 0, [⟨15, 0, .rw, 0⟩]⟩]
/-- HD_HWS: HWS_DCBASE_LO, HWS_DCBASE_HI, HWS_DDB, HWS_DPTR, HWS_WBASE, HWS_WLIM. -/
def rows_HD_HWS_2 : List RegRow := [
  ⟨0x30, 1, 0, [⟨31, 7, .rw, 0⟩]⟩,
  ⟨0x34, 1, 0, [⟨15, 0, .rw, 0⟩]⟩,
  ⟨0x38, 1, 0, [⟨11, 0, .wo, 0⟩]⟩,
  ⟨0x3c, 1, 0, [⟨27, 16, .ro, 0⟩, ⟨11, 0, .ro, 0⟩]⟩,
  ⟨0x100, 16, 0x10, [⟨24, 0, .rw, 0⟩]⟩,
  ⟨0x104, 16, 0x10, [⟨24, 0, .rw, 0⟩]⟩]
/-- HD_HWS: HWS_WCFG. -/
def rows_HD_HWS_3 : List RegRow := [
  ⟨0x108, 16, 0x10, [⟨2, 2, .rw, 0⟩, ⟨1, 1, .rw, 0⟩, ⟨0, 0, .rw, 0⟩]⟩]
/-- The offset table of block HD_HWS. -/
def rows_HD_HWS : List RegRow := rows_HD_HWS_0 ++ rows_HD_HWS_1 ++ rows_HD_HWS_2 ++ rows_HD_HWS_3

/-- HD_PBA: PBA_CTL, PBA_STAT, PBA_CMD, PBA_AUD0, PBA_AUD1, PBA_REQ. -/
def rows_HD_PBA_0 : List RegRow := [
  ⟨0, 1, 0, [⟨12, 0, .rw, 0xfa0⟩]⟩,
  ⟨4, 1, 0, [⟨13, 13, .w1c, 0⟩, ⟨12, 12, .w1c, 0⟩, ⟨11, 11, .w1c, 0⟩, ⟨10, 10, .w1c, 0⟩, ⟨9, 9, .w1c, 0⟩, ⟨8, 8, .w1c, 0⟩, ⟨7, 7, .w1c, 0⟩, ⟨6, 6, .w1c, 0⟩, ⟨3, 2, .ro, 0⟩, ⟨1, 0, .ro, 0⟩]⟩,
  ⟨8, 1, 0, [⟨3, 0, .wo, 0⟩]⟩,
  ⟨0xc, 1, 0, [⟨31, 16, .ro, 0⟩, ⟨15, 0, .ro, 0⟩]⟩,
  ⟨0x10, 1, 0, [⟨31, 16, .ro, 0x64⟩, ⟨15, 0, .ro, 0xfa0⟩]⟩,
  ⟨0x14, 1, 0, [⟨31, 28, .wo, 0⟩, ⟨22, 16, .wo, 0⟩, ⟨12, 0, .wo, 0⟩]⟩]
/-- HD_PBA: PBA_RSP, PBA_DOM, PBA_E_LO, PBA_E_HI. -/
def rows_HD_PBA_1 : List RegRow := [
  ⟨0x18, 1, 0, [⟨31, 28, .ro, 0⟩, ⟨22, 16, .ro, 0⟩, ⟨3, 0, .ro, 0⟩]⟩,
  ⟨0x100, 74, 4, [⟨31, 29, .ro, 0⟩, ⟨17, 17, .ro, 0⟩, ⟨16, 16, .ro, 0⟩, ⟨12, 0, .ro, 0⟩]⟩,
  ⟨0x400, 74, 8, [⟨31, 0, .cnt, 0⟩]⟩,
  ⟨0x404, 74, 8, [⟨31, 0, .cnt, 0⟩]⟩]
/-- The offset table of block HD_PBA. -/
def rows_HD_PBA : List RegRow := rows_HD_PBA_0 ++ rows_HD_PBA_1

/-- HD_THM: THM_CTL, THM_STAT, THM_CMD, THM_FLOW, THM_TCOOL, THM_TRIP. -/
def rows_HD_THM_0 : List RegRow := [
  ⟨0, 1, 0, [⟨7, 0, .rw, 0x6e⟩]⟩,
  ⟨4, 1, 0, [⟨11, 11, .w1c, 0⟩, ⟨10, 10, .w1c, 0⟩, ⟨9, 9, .w1c, 0⟩, ⟨8, 8, .w1c, 0⟩, ⟨7, 7, .w1c, 0⟩, ⟨6, 6, .w1c, 0⟩, ⟨5, 5, .w1c, 0⟩, ⟨4, 4, .w1c, 0⟩, ⟨1, 1, .ro, 0⟩, ⟨0, 0, .ro, 0⟩]⟩,
  ⟨8, 1, 0, [⟨0, 0, .wo, 0⟩]⟩,
  ⟨0xc, 1, 0, [⟨31, 16, .cnt, 0⟩, ⟨15, 0, .ro, 0⟩]⟩,
  ⟨0x10, 1, 0, [⟨31, 16, .ro, 0⟩, ⟨15, 0, .ro, 0⟩]⟩,
  ⟨0x14, 1, 0, [⟨8, 0, .w1c, 0⟩]⟩]
/-- HD_THM: THM_DIE_A, THM_DIE_B. -/
def rows_HD_THM_1 : List RegRow := [
  ⟨0x100, 9, 8, [⟨31, 16, .ro, 0⟩, ⟨15, 0, .ro, 0⟩]⟩,
  ⟨0x104, 9, 8, [⟨31, 16, .ro, 0⟩, ⟨15, 0, .ro, 0⟩]⟩]
/-- The offset table of block HD_THM. -/
def rows_HD_THM : List RegRow := rows_HD_THM_0 ++ rows_HD_THM_1

/-- HD_HUP: HUP_STAT, HUP_V, HUP_P, HUP_E, HUP_CNT, HUP_EIN_LO. -/
def rows_HD_HUP_0 : List RegRow := [
  ⟨0, 1, 0, [⟨9, 9, .w1c, 0⟩, ⟨8, 8, .w1c, 0⟩, ⟨7, 7, .w1c, 0⟩, ⟨6, 6, .w1c, 0⟩, ⟨5, 5, .w1c, 0⟩, ⟨4, 4, .w1c, 0⟩, ⟨2, 0, .ro, 0⟩]⟩,
  ⟨4, 1, 0, [⟨31, 16, .ro, 0⟩, ⟨15, 0, .ro, 0⟩]⟩,
  ⟨8, 1, 0, [⟨31, 16, .ro, 0⟩, ⟨15, 0, .ro, 0⟩]⟩,
  ⟨0xc, 1, 0, [⟨31, 16, .ro, 0⟩, ⟨15, 0, .ro, 0⟩]⟩,
  ⟨0x10, 1, 0, [⟨31, 16, .cnt, 0⟩, ⟨15, 0, .cnt, 0⟩]⟩,
  ⟨0x14, 1, 0, [⟨31, 0, .cnt, 0⟩]⟩]
/-- HD_HUP: HUP_EIN_HI, HUP_CMD. -/
def rows_HD_HUP_1 : List RegRow := [
  ⟨0x18, 1, 0, [⟨31, 0, .cnt, 0⟩]⟩,
  ⟨0x1c, 1, 0, [⟨0, 0, .wo, 0⟩]⟩]
/-- The offset table of block HD_HUP. -/
def rows_HD_HUP : List RegRow := rows_HD_HUP_0 ++ rows_HD_HUP_1

/-- HD_TST: TST_STAT, TST_CMD, TST_CNT, TST_RES, TST_BUMP. -/
def rows_HD_TST_0 : List RegRow := [
  ⟨0, 1, 0, [⟨15, 12, .ro, 0⟩, ⟨7, 7, .w1c, 0⟩, ⟨6, 6, .w1c, 0⟩, ⟨5, 5, .w1c, 0⟩, ⟨4, 4, .w1c, 0⟩, ⟨0, 0, .ro, 0⟩]⟩,
  ⟨4, 1, 0, [⟨27, 16, .wo, 0⟩, ⟨11, 8, .wo, 0⟩, ⟨3, 0, .wo, 0⟩]⟩,
  ⟨8, 1, 0, [⟨31, 16, .cnt, 0⟩, ⟨15, 0, .cnt, 0⟩]⟩,
  ⟨0x10, 8, 4, [⟨31, 0, .ro, 0⟩]⟩,
  ⟨0x40, 8, 4, [⟨15, 0, .ro, 0⟩]⟩]
/-- The offset table of block HD_TST. -/
def rows_HD_TST : List RegRow := rows_HD_TST_0

/-- HD_RST: RST_STAT, RST_CMD, RST_CNT. -/
def rows_HD_RST_0 : List RegRow := [
  ⟨0, 1, 0, [⟨9, 9, .w1c, 0⟩, ⟨8, 8, .w1c, 0⟩, ⟨3, 0, .ro, 1⟩]⟩,
  ⟨4, 1, 0, [⟨9, 8, .wo, 0⟩, ⟨3, 0, .wo, 0⟩]⟩,
  ⟨8, 1, 0, [⟨31, 16, .cnt, 0⟩, ⟨15, 0, .cnt, 0⟩]⟩]
/-- The offset table of block HD_RST. -/
def rows_HD_RST : List RegRow := rows_HD_RST_0

/-- HD_SEC: SEC_LC, SEC_BOOT, SEC_STAT, SEC_UPD_LO, SEC_UPD_HI, SEC_UPDCMD. -/
def rows_HD_SEC_0 : List RegRow := [
  ⟨0, 1, 0, [⟨1, 0, .ro, 0⟩]⟩,
  ⟨4, 1, 0, [⟨10, 10, .ro, 0⟩, ⟨9, 9, .ro, 0⟩, ⟨8, 8, .ro, 0⟩, ⟨6, 0, .ro, 0⟩]⟩,
  ⟨8, 1, 0, [⟨2, 2, .w1c, 0⟩, ⟨1, 1, .w1c, 0⟩, ⟨0, 0, .w1c, 0⟩]⟩,
  ⟨0xc, 1, 0, [⟨31, 12, .rw, 0⟩]⟩,
  ⟨0x10, 1, 0, [⟨15, 0, .rw, 0⟩]⟩,
  ⟨0x14, 1, 0, [⟨3, 0, .wo, 0⟩]⟩]
/-- HD_SEC: SEC_UPDSTAT, SEC_VER. -/
def rows_HD_SEC_1 : List RegRow := [
  ⟨0x18, 1, 0, [⟨16, 16, .ro, 0⟩, ⟨15, 8, .ro, 0⟩, ⟨2, 0, .ro, 0⟩]⟩,
  ⟨0x24, 7, 4, [⟨31, 0, .ro, 0⟩]⟩]
/-- The offset table of block HD_SEC. -/
def rows_HD_SEC : List RegRow := rows_HD_SEC_0 ++ rows_HD_SEC_1

/-- HD_DBG: DBG_STAT, DBG_HSTAT, DBG_AUTHCNT. -/
def rows_HD_DBG_0 : List RegRow := [
  ⟨0, 1, 0, [⟨9, 9, .w1c, 0⟩, ⟨8, 8, .w1c, 0⟩, ⟨7, 7, .w1c, 0⟩, ⟨6, 6, .w1c, 0⟩, ⟨5, 5, .w1c, 0⟩, ⟨4, 4, .ro, 0⟩, ⟨2, 2, .ro, 0⟩, ⟨1, 0, .ro, 0⟩]⟩,
  ⟨4, 1, 0, [⟨24, 24, .ro, 0⟩, ⟨23, 0, .ro, 0⟩]⟩,
  ⟨8, 1, 0, [⟨31, 0, .cnt, 0⟩]⟩]
/-- The offset table of block HD_DBG. -/
def rows_HD_DBG : List RegRow := rows_HD_DBG_0

/-- HD_CAN: CAN_CTL, CAN_STAT, CAN_RBASE_LO, CAN_RBASE_HI, CAN_DB, CAN_PTR. -/
def rows_HD_CAN_0 : List RegRow := [
  ⟨0x100, 4, 0x40, [⟨31, 16, .rw, 0⟩, ⟨11, 8, .rw, 4⟩, ⟨7, 6, .rw, 2⟩, ⟨5, 3, .rw, 0⟩, ⟨2, 2, .rw, 0⟩, ⟨0, 0, .rw, 0⟩]⟩,
  ⟨0x104, 4, 0x40, [⟨7, 7, .w1c, 0⟩, ⟨6, 6, .w1c, 0⟩, ⟨5, 5, .w1c, 0⟩, ⟨4, 4, .w1c, 0⟩, ⟨1, 0, .ro, 0⟩]⟩,
  ⟨0x108, 4, 0x40, [⟨31, 7, .rw, 0⟩]⟩,
  ⟨0x10c, 4, 0x40, [⟨15, 0, .rw, 0⟩]⟩,
  ⟨0x110, 4, 0x40, [⟨11, 0, .wo, 0⟩]⟩,
  ⟨0x114, 4, 0x40, [⟨27, 16, .ro, 0⟩, ⟨11, 0, .ro, 0⟩]⟩]
/-- HD_CAN: CAN_ERR, CAN_CMD, CAN_CNT. -/
def rows_HD_CAN_1 : List RegRow := [
  ⟨0x118, 4, 0x40, [⟨23, 16, .ro, 0⟩, ⟨8, 0, .ro, 0⟩]⟩,
  ⟨0x11c, 4, 0x40, [⟨3, 0, .wo, 0⟩]⟩,
  ⟨0x120, 4, 0x40, [⟨31, 16, .cnt, 0⟩, ⟨15, 0, .cnt, 0⟩]⟩]
/-- The offset table of block HD_CAN. -/
def rows_HD_CAN : List RegRow := rows_HD_CAN_0 ++ rows_HD_CAN_1

/-- HD_ID: ID_MODULE, ID_SERIAL_LO, ID_SERIAL_HI, ID_HD, ID_CD, ID_BT. -/
def rows_HD_ID_0 : List RegRow := [
  ⟨0, 1, 0, [⟨31, 16, .ro, 0x4800⟩, ⟨15, 8, .ro, 0⟩, ⟨1, 1, .ro, 0⟩, ⟨0, 0, .ro, 0⟩]⟩,
  ⟨4, 1, 0, [⟨31, 0, .ro, 0⟩]⟩,
  ⟨8, 1, 0, [⟨31, 0, .ro, 0⟩]⟩,
  ⟨0xc, 1, 0, [⟨31, 0, .ro, 0⟩]⟩,
  ⟨0x10, 4, 4, [⟨31, 0, .ro, 0⟩]⟩,
  ⟨0x20, 4, 4, [⟨31, 0, .ro, 0⟩]⟩]
/-- HD_ID: ID_CLA, ID_CLB, ID_GS, ID_VALID. -/
def rows_HD_ID_1 : List RegRow := [
  ⟨0x30, 1, 0, [⟨31, 0, .ro, 0⟩]⟩,
  ⟨0x34, 1, 0, [⟨31, 0, .ro, 0⟩]⟩,
  ⟨0x38, 1, 0, [⟨31, 0, .ro, 0⟩]⟩,
  ⟨0x3c, 1, 0, [⟨11, 0, .ro, 0⟩]⟩]
/-- The offset table of block HD_ID. -/
def rows_HD_ID : List RegRow := rows_HD_ID_0 ++ rows_HD_ID_1

/-- CD_ID: CD_ID_WORD, CD_ID_POS. -/
def rows_CD_ID_0 : List RegRow := [
  ⟨0, 1, 0, [⟨31, 0, .ro, 0⟩]⟩,
  ⟨4, 1, 0, [⟨1, 0, .ro, 0⟩]⟩]
/-- The offset table of block CD_ID. -/
def rows_CD_ID : List RegRow := rows_CD_ID_0

/-- BT_ID: BT_ID_WORD, BT_ID_POS. -/
def rows_BT_ID_0 : List RegRow := [
  ⟨0, 1, 0, [⟨31, 0, .ro, 0⟩]⟩,
  ⟨4, 1, 0, [⟨1, 0, .ro, 0⟩]⟩]
/-- The offset table of block BT_ID. -/
def rows_BT_ID : List RegRow := rows_BT_ID_0

/-- HD_GLB: GLB_STAT, GLB_CMD, GLB_LOCKS, GLB_CNT, GLB_DECLOG_LO, GLB_DECLOG_HI. -/
def rows_HD_GLB_0 : List RegRow := [
  ⟨0, 1, 0, [⟨7, 4, .ro, 1⟩, ⟨2, 2, .w1c, 0⟩, ⟨1, 1, .w1c, 0⟩, ⟨0, 0, .w1c, 0⟩]⟩,
  ⟨4, 1, 0, [⟨0, 0, .wo, 0⟩]⟩,
  ⟨8, 1, 0, [⟨5, 0, .ro, 0⟩]⟩,
  ⟨0xc, 1, 0, [⟨31, 16, .cnt, 0⟩, ⟨15, 0, .cnt, 0⟩]⟩,
  ⟨0x10, 1, 0, [⟨31, 0, .ro, 0⟩]⟩,
  ⟨0x14, 1, 0, [⟨31, 29, .ro, 0⟩, ⟨28, 28, .ro, 0⟩, ⟨27, 16, .ro, 0⟩, ⟨15, 0, .ro, 0⟩]⟩]
/-- HD_GLB: GLB_ACCLOG_LO, GLB_ACCLOG_HI, GLB_IRQLVL, GLB_SCRATCH. -/
def rows_HD_GLB_1 : List RegRow := [
  ⟨0x18, 1, 0, [⟨31, 0, .ro, 0⟩]⟩,
  ⟨0x1c, 1, 0, [⟨31, 29, .ro, 0⟩, ⟨28, 28, .ro, 0⟩, ⟨27, 16, .ro, 0⟩, ⟨15, 0, .ro, 0⟩]⟩,
  ⟨0x20, 8, 4, [⟨31, 0, .ro, 0⟩]⟩,
  ⟨0x40, 4, 4, [⟨31, 0, .rw, 0⟩]⟩]
/-- The offset table of block HD_GLB. -/
def rows_HD_GLB : List RegRow := rows_HD_GLB_0 ++ rows_HD_GLB_1

/-- HD_ETH: ETH_BSTAT, ETH_CMD, ETH_PSTAT, ETH_PCNT. -/
def rows_HD_ETH_0 : List RegRow := [
  ⟨0, 1, 0, [⟨0, 0, .w1c, 0⟩]⟩,
  ⟨4, 1, 0, [⟨0, 0, .wo, 0⟩]⟩,
  ⟨0x100, 8, 0x40, [⟨5, 5, .w1c, 0⟩, ⟨4, 4, .w1c, 0⟩, ⟨3, 3, .w1c, 0⟩, ⟨2, 2, .ro, 0⟩, ⟨1, 1, .ro, 0⟩, ⟨0, 0, .ro, 0⟩]⟩,
  ⟨0x104, 8, 0x40, [⟨31, 16, .cnt, 0⟩, ⟨15, 0, .cnt, 0⟩]⟩]
/-- The offset table of block HD_ETH. -/
def rows_HD_ETH : List RegRow := rows_HD_ETH_0

end Sys2Proof.Machine
end

