-- ==== Sys2Proof/Machine/Sparse.lean ====
section
/-! DEFINITION.  Sparse tables in one canonical form: pairs (key, value) with strictly rising keys and
no entry equal to what an unlisted key reads as.  Memory, the register file and the block's tables are
held so; equal contents are equal data. -/

namespace Sys2Proof.Machine

/-- The value at key `k`; an unlisted key reads as `d k`. -/
def sget {α : Type} (d : Nat → α) : List (Nat × α) → Nat → α
  | [], k => d k
  | (j, v) :: xs, k => if j = k then v else sget d xs k

/-- The table with the pair `(k, v)` put before the first greater key, in place of an entry of that key. -/
def sins {α : Type} : List (Nat × α) → Nat → α → List (Nat × α)
  | [], k, v => [(k, v)]
  | (j, w) :: xs, k, v =>
    if k < j then (k, v) :: (j, w) :: xs
    else if k = j then (k, v) :: xs
    else (j, w) :: sins xs k v

/-- The table with the value `v` at key `k`: unlisted where that is what an unlisted key reads as. -/
def sset {α : Type} [DecidableEq α] (d : Nat → α) (t : List (Nat × α)) (k : Nat) (v : α) : List (Nat × α) :=
  if v = d k then t.filter (fun e => e.1 != k) else sins t k v

/-- Keys strictly rise from `lo` on, and no entry equals what an unlisted key reads as. -/
def swfFrom {α : Type} [DecidableEq α] (d : Nat → α) : Nat → List (Nat × α) → Bool
  | _, [] => true
  | lo, (j, v) :: xs => decide (lo ≤ j) && decide (v ≠ d j) && swfFrom d (j + 1) xs

/-- The canonical form. -/
def swf {α : Type} [DecidableEq α] (d : Nat → α) (t : List (Nat × α)) : Bool := swfFrom d 0 t

/-- A log of writes, newest first, applied oldest first. -/
def ssetAll {α : Type} [DecidableEq α] (d : Nat → α) (t : List (Nat × α)) : List (Nat × α) → List (Nat × α)
  | [] => t
  | (k, v) :: log => sset d (ssetAll d t log) k v

/-- The newest logged value at key `k`. -/
def logGet {α : Type} : List (Nat × α) → Nat → Option α
  | [], _ => none
  | (j, v) :: xs, k => if j = k then some v else logGet xs k

/-- A table of records whose unlisted entries hold the record's default. -/
abbrev Tab (α : Type) := List (Nat × α)

/-- Entry `k` of a table of records. -/
def Tab.at {α : Type} [Inhabited α] (t : Tab α) (k : Nat) : α := sget (fun _ => default) t k

/-- The table with entry `k` replaced. -/
def Tab.put {α : Type} [Inhabited α] [DecidableEq α] (t : Tab α) (k : Nat) (v : α) : Tab α :=
  sset (fun _ => default) t k v

/-- The table with entry `k` changed by `f`. -/
def Tab.upd {α : Type} [Inhabited α] [DecidableEq α] (t : Tab α) (k : Nat) (f : α → α) : Tab α :=
  t.put k (f (t.at k))

end Sys2Proof.Machine
end

