-- ==== Sys2Proof/Machine/Blocks.lean ====
section
/-! DEFINITION.  The blocks of configuration space (R619, R624, R625): where each lies, its power
domain, who may write it, where its access-error and lost-write bits are, and what each of its registers
holds at reset. -/

namespace Sys2Proof.Machine

/-- Who may write a block's registers (R624, R625). -/
inductive Writers where
  /-- no master: identity blocks and the Cleats' mirrors -/
  | none
  /-- the steward alone -/
  | steward
  /-- the steward and the harts -/
  | both
  /-- the steward and debug -/
  | debug
  deriving DecidableEq, Repr

/-- A block of configuration space. -/
structure Blk where
  base : Nat
  span : Nat
  /-- its power domain, by the index of R504 -/
  dom : Nat
  writers : Writers
  rows : List RegRow
  /-- the bit that records an access error -/
  accerr : FRef
  /-- the bit that records a discarded write, where the block has one -/
  swlost : Option FRef := Option.none
  deriving Repr

/-! The power domains, by the index of the table of R504. -/

def domAON : Nat := 0
def domCleat (c : Nat) : Nat := 1 + c
def domGS : Nat := 3
def domAC (k : Nat) : Nat := 4 + k
def domSC (i : Nat) : Nat := 7 + i
def domMCA : Nat := 9
def domMCB : Nat := 10
def domMCS : Nat := 11
def domNET : Nat := 12
def domING : Nat := 13
def domTRJ : Nat := 14
def domFAB : Nat := 15
def domSEC : Nat := 16
def domSTW : Nat := 17
def domBQ (n q : Nat) : Nat := 18 + 14 * n + q
def domSP (n p : Nat) : Nat := 22 + 14 * n + p
def domWS (n : Nat) : Nat := 26 + 14 * n
def domCD (n : Nat) : Nat := 27 + 14 * n
def domBT (n : Nat) : Nat := 28 + 14 * n
def domSH (n g : Nat) : Nat := 29 + 14 * n + g
/-- The number of power domains (R504). -/
def domCount : Nat := 74
/-- The domain of memory controller `m` (R624). -/
def domMC (m : Nat) : Nat := if m < 4 then domMCA else if m < 8 then domMCB else domMCS

/-- The link registers of a base tile: eight modules (R327). -/
def rowsBtLnk : List RegRow := rows_LNK.map fun r => { r with count := min r.count 8 }

/-- The block of hub configuration space that holds offset `off` (R624). -/
def hubBlock (off : Nat) : Option Blk :=
  let b (o : Nat) (dom : Nat) (w : Writers) (rows : List RegRow) (a : FRef) (l : Option FRef := none) : Option Blk :=
    some ⟨hdBase + o, 0x1000, dom, w, rows, a, l⟩
  let page := off / 0x1000
  match page with
  | 0x00 => b 0 domAON .none rows_HD_ID GLB_STAT_ACCERR
  | 0x10 => b 0x10000 domAON .both rows_HD_GLB GLB_STAT_ACCERR
  | 0x20 => b 0x20000 domNET .both rows_HD_ETH ETH_BSTAT_ACCERR
  | 0x30 => b 0x30000 domFAB .both rows_HD_SHF HD_SHF_STAT_ACCERR (some HD_SHF_STAT_SWLOST)
  | 0x40 => b 0x40000 domFAB .both rows_HD_SC HD_SC_STAT_ACCERR
  | 0x50 => b 0x50000 domFAB .both rows_XLT (XLT_STAT_ACCERR (xltBase 4))
  | 0x60 => b 0x60000 domAON .steward rows_HD_DMAP HD_DMAP_MSTAT_ACCERR (some HD_DMAP_MSTAT_SWLOST)
  | 0x70 => b 0x70000 domSEC .steward rows_HD_MEE HD_MEE_STAT_ACCERR (some HD_MEE_STAT_SWLOST)
  | 0x80 => b 0x80000 domFAB .steward rows_LNK (LNK_STAT_ACCERR hdLnk) (some (LNK_STAT_SWLOST hdLnk))
  | 0x90 => b 0x90000 domFAB .both rows_REG (REG_BSTAT_ACCERR hdReg)
  | 0xA0 => b 0xA0000 domFAB .steward rows_HD_FW FW_STAT_ACCERR (some FW_STAT_SWLOST)
  | 0xB0 => b 0xB0000 domFAB .both rows_HD_DMA DMA_STAT_ACCERR
  | 0xC0 => b 0xC0000 domAON .both rows_HD_TB TB_STAT_ACCERR
  | 0x110 => b 0x110000 domING .both rows_HD_EGO EGO_STAT_ACCERR
  | 0x120 => b 0x120000 domING .both rows_HD_ALN ALN_STAT_ACCERR (some ALN_STAT_SWLOST)
  | 0x130 => b 0x130000 domTRJ .both rows_HD_TRJ TRJ_STAT_ACCERR
  | 0x140 => b 0x140000 domFAB .both rows_HD_CLP CLP_STAT_ACCERR
  | 0x160 => b 0x160000 domFAB .steward rows_HD_IRQ IRQ_STAT_ACCERR
  | 0x170 => b 0x170000 domNET .both rows_HD_HWS HWS_STAT_ACCERR
  | 0x180 | 0x181 => some ⟨hdBase + 0x180000, 0x2000, domAON, .both, rows_HD_PBA, PBA_STAT_ACCERR, none⟩
  | 0x190 => b 0x190000 domAON .both rows_HD_THM THM_STAT_ACCERR
  | 0x1A0 => b 0x1A0000 domAON .both rows_HD_HUP HUP_STAT_ACCERR
  | 0x1B0 => b 0x1B0000 domSTW .steward rows_HD_TST TST_STAT_ACCERR
  | 0x1C0 => b 0x1C0000 domAON .both rows_HD_RST RST_STAT_ACCERR
  | 0x1D0 => b 0x1D0000 domSEC .both rows_HD_SEC SEC_STAT_ACCERR
  | 0x1E0 => b 0x1E0000 domAON .debug rows_HD_DBG DBG_STAT_ACCERR
  | 0x1F0 => b 0x1F0000 domNET .both rows_HD_CAN (CAN_STAT_ACCERR (off % 0x1000 / 0x40 - 4))
  | _ =>
    if 0xD0 ≤ page ∧ page < 0xD4 then some ⟨hdBase + 0xD0000, 0x4000, domING, .both, rows_HD_ING, ING_STAT_ACCERR, none⟩
    else if 0x100 ≤ page ∧ page < 0x109 then
      let m := page - 0x100
      b (0x100000 + m * 0x1000) (domMC m) .both rows_HD_MC (HD_MC_STAT_ACCERR m)
    else if 0x150 ≤ page ∧ page < 0x153 then
      let k := page - 0x150
      b (0x150000 + k * 0x1000) (domAC k) .both rows_HD_ACX (ACX_STAT_ACCERR k)
    else if 0x200 ≤ page ∧ page < 0x210 then
      some ⟨hdBase + 0x200000, 0x10000, domFAB, .both, rows_HD_MBX, MBX_STAT_ACCERR, some MBX_STAT_SWLOST⟩
    else none

/-- The block of compute die `n` that holds offset `off` (R625). -/
def cdBlock (n off : Nat) : Option Blk :=
  let b (o span : Nat) (w : Writers) (rows : List RegRow) (a : FRef) (l : Option FRef := none) : Option Blk :=
    if off < o + span then some ⟨cdBase n + o, span, domCD n, w, rows, a, l⟩ else none
  match off / 0x10000 with
  | 0 => b 0 0x1000 .none rows_CD_ID (CD_SCH_STAT_ACCERR n)
  | 1 => b 0x10000 0x1000 .both rows_CD_SCH (CD_SCH_STAT_ACCERR n) (some (CD_SCH_STAT_SWLOST n))
  | 2 => b 0x20000 0x1000 .both rows_CD_BRD (CD_BRD_QSTAT_ACCERR n) (some (CD_BRD_QSTAT_SWLOST n))
  | 3 => b 0x30000 0x1000 .both rows_CD_STR (CD_STR_STAT_ACCERR n)
  | 4 => b 0x40000 0x1000 .both rows_CD_WSP (CD_WSP_STAT_ACCERR n)
  | 5 => b 0x50000 0x1000 .both rows_RTM (RTM_STAT_ACCERR (cdRtm n)) (some (RTM_STAT_SWLOST (cdRtm n)))
  | 6 => b 0x60000 0x4000 .both rows_CD_SEQ (CD_SEQ_STAT_ACCERR n) (some (CD_SEQ_STAT_SWLOST n))
  | 7 => b 0x70000 0x2000 .both rows_CD_ACT (CD_ACT_STAT_ACCERR n)
  | 8 => b 0x80000 0x1000 .both rows_XLT (XLT_STAT_ACCERR (xltBase n))
  | 9 => b 0x90000 0x1000 .both rows_REG (REG_BSTAT_ACCERR (cdReg n))
  | _ => none

/-- The block of base tile `n` that holds offset `off` (R625). -/
def btBlock (n off : Nat) : Option Blk :=
  let b (o : Nat) (w : Writers) (rows : List RegRow) (a : FRef) (l : Option FRef := none) : Option Blk :=
    if off < o + 0x1000 then some ⟨btBase n + o, 0x1000, domBT n, w, rows, a, l⟩ else none
  match off / 0x10000 with
  | 0 => b 0 .none rows_BT_ID (BT_SHF_STAT_ACCERR n)
  | 2 => b 0x20000 .both rows_BT_SHF (BT_SHF_STAT_ACCERR n)
  | 3 => b 0x30000 .steward rowsBtLnk (LNK_STAT_ACCERR (btLnk n)) (some (LNK_STAT_SWLOST (btLnk n)))
  | 5 => b 0x50000 .both rows_RTM (RTM_STAT_ACCERR (btRtm n)) (some (RTM_STAT_SWLOST (btRtm n)))
  | _ => none

/-- The block that holds address `a`, registers of the standards' own layout apart (R619). -/
def blockAt (a : Nat) : Option Blk :=
  if a < hdBase then none
  else if a < hdBase + 0x1000000 then hubBlock (a - hdBase)
  else if cdBase 0 ≤ a ∧ a < cdBase 4 then
    let n := (a - cdBase 0) / 0x2000000
    let o := (a - cdBase 0) % 0x2000000
    if o < 0x1000000 then cdBlock n o else btBlock n (o - 0x1000000)
  else if mirBase 0 ≤ a ∧ a < mirBase 0 + 0x1000 then
    some ⟨mirBase 0, 0x1000, domAON, .none, rows_MIR, CLP_STAT_ACCERR, none⟩
  else if mirBase 1 ≤ a ∧ a < mirBase 1 + 0x1000 then
    some ⟨mirBase 1, 0x1000, domAON, .none, rows_MIR, CLP_STAT_ACCERR, none⟩
  else none

/-- Row `r` holds a register at offset `off`. -/
def RegRow.has (r : RegRow) (off : Nat) : Bool :=
  if r.count ≤ 1 then off == r.off
  else decide (r.off ≤ off) && decide ((off - r.off) % r.stride = 0) && decide ((off - r.off) / r.stride < r.count)

/-- The row of block `b` that holds the register at address `a`. -/
def Blk.rowAt (b : Blk) (a : Nat) : Option RegRow := b.rows.find? (·.has (a - b.base))

/-- The value the fields of a row take at reset. -/
def RegRow.resetValue (r : RegRow) : Nat := r.flds.foldl (fun w f => putBits w f.hi f.lo f.reset) 0

/-- The same, its counter fields alone: what a snapshot alias reads before the first SNAP (R630). -/
def RegRow.cntResetValue (r : RegRow) : Nat :=
  r.flds.foldl (fun w f => if f.acc = .cnt then putBits w f.hi f.lo f.reset else w) 0

/-- The offset of the snapshot alias (R630). -/
def aliasOff : Nat := 0x80000000

/-- Reset values that depend on the instance or on what manufacture fixed: identity words and positions
(R562, R636), the fixed bits of a compute die's regulators (R329), and region 0's enable (R295). -/
def resetOverride (a : Nat) : Option Nat :=
  if cdBase 0 ≤ a ∧ a < cdBase 4 then
    let n := (a - cdBase 0) / 0x2000000
    let o := (a - cdBase 0) % 0x2000000
    if o = 0 then some (0x02480000 + Config.fusedId n % 2 ^ 16)
    else if o = 0x1000000 then some (0x03480000 + Config.fusedId (4 + n) % 2 ^ 16)
    else if o = 4 ∨ o = 0x1000004 then some n
    else if 0x90100 ≤ o ∧ o < 0x90200 ∧ o % 0x20 = 4 then
      let i := (o - 0x90100) / 0x20
      some ((i % 2) * 2 ^ 11 + (if i / 2 = 1 then 16 else 0) + (if i / 2 = 0 then 2 ^ n else 0))
    else none
  else if a = HD_MEE_RCFG 0 then some 0x100
  else none

/-- What the register at address `a` holds at reset; 0 where no register lies. -/
def resetNat (a : Nat) : Nat :=
  match blockAt a with
  | some b =>
    match resetOverride a with
    | some v => v
    | none => ((b.rowAt a).map RegRow.resetValue).getD 0
  | none =>
    match blockAt (a - aliasOff) with
    | some b => if aliasOff ≤ a then ((b.rowAt (a - aliasOff)).map RegRow.cntResetValue).getD 0 else 0
    | none => 0

/-- What the register at address `a` holds at reset, as a register word. -/
def resetWord (a : Nat) : Word := BitVec.ofNat 32 (resetNat a)

end Sys2Proof.Machine
end

