-- ==== Sys2Proof/Machine/State.lean ====
section
/-! DEFINITION.  The state of the module: the queue of waiting commands, device time, memory, the
register file, and what the spec gives each unit beyond its registers.  Everything is plain data. -/

namespace Sys2Proof.Machine

/-- Why the machine stops. -/
inductive Fault where
  /-- A command names a unit that the module does not have.  No meaning raises it: the operands' types name only units that exist.
  Safe. -/
  | noSuchUnit
  deriving DecidableEq, Repr

/-- Why a command has no meaning. -/
inductive Refusal where
  /-- The command of this mnemonic has no meaning here.  No arm of the dispatch answers it; safe. -/
  | notModelled (mnemonic : String)
  deriving DecidableEq, Repr

/-- Something the module sends or raises towards the outside world or another unit, kept in the order
it was sent (DESIGN CHOICE, log entry 2). -/
structure Out where
  /-- the port or path it leaves by -/
  port : String
  /-- its kind, as the spec names it -/
  kind : String
  /-- its fields, in the spec's order -/
  data : List Nat
  deriving DecidableEq, Repr, Inhabited

/-- The latch of a 64-bit pair (R629). -/
structure Latch where
  mid : Nat := 0
  high : Nat := 0
  held : Bool := false
  deriving DecidableEq, Repr, Inhabited

/-- A power domain (R504, R514). -/
inductive Pwr where
  | off | powering | on
  deriving DecidableEq, Repr, Inhabited

/-- A device context as a translation unit holds it (R252). -/
structure Dcx where
  flags : Nat := 0
  root : Nat := 0
  midlo : Nat := 0
  midhi : Nat := 0
  deriving DecidableEq, Repr, Inhabited

/-- A leaf of the page tables as a translation unit holds it (R253): its context, the base of the page
it maps, its level (0 for 4 KiB), its physical base and its permissions. -/
structure Leaf where
  ctx : Nat := 0
  va : Nat := 0
  level : Nat := 0
  pa : Nat := 0
  r : Bool := false
  w : Bool := false
  a : Bool := false
  d : Bool := false
  deriving DecidableEq, Repr, Inhabited

/-- A translation unit beyond its registers (R254, R255). -/
structure Xlt where
  dcs : List (Nat × Dcx) := []
  tlb : List Leaf := []
  locked : List Leaf := []
  /-- the LOCK under way: its context and address -/
  walk : Option (Nat × Nat) := none
  /-- hub unit: the invalidation under way goes to all five units -/
  bcast : Bool := false
  deriving DecidableEq, Repr, Inhabited

/-- Where a context stands (R182). -/
inductive CtxState where
  | idle | gated | running | stopping | stopped | suspended | lost | error
  deriving DecidableEq, Repr, Inhabited

/-- How far a decoded step has come. -/
inductive Phase where
  /-- decoded, waiting for its engine or its turn -/
  | waiting
  /-- granted its engine, or a WAIT under way -/
  | granted
  /-- its work done: the handshake steps it took -/
  | ran (steps : Nat)
  deriving DecidableEq, Repr, Inhabited

/-- A step in a context's decode window (R176). -/
structure StepSt where
  idx : Nat := 0
  words : List Nat := []
  /-- a fault held with the step, and the address of its access -/
  fault : Option Nat := none
  fva : Nat := 0
  facc : Nat := 0
  phase : Phase := .waiting
  deriving DecidableEq, Repr, Inhabited

/-- A context of a step scheduler beyond its registers. -/
structure Sctx where
  st : CtxState := .idle
  /-- the copy of its ring entry, 64 bytes -/
  ent : List Byte := []
  next : Nat := 0
  /-- bit i: step NEXT + i has committed -/
  done : Nat := 0
  steps : List StepSt := []
  /-- handshake steps the list has consumed -/
  eng : Nat := 0
  /-- REASON of the record to be written -/
  reason : Nat := 0
  fstep : Nat := 0
  fcode : Nat := 0
  facc : Nat := 0
  fva : Nat := 0
  /-- a SAVE has been made since the stop -/
  saved : Bool := false
  /-- stopped at fetch: only ABORT is accepted (R196, R257) -/
  atFetch : Bool := false
  /-- the first step has been dispatched (R195) -/
  begun : Bool := false
  /-- LISTID of the certificate of an RT list -/
  listid : Nat := 0
  /-- the list is the builder's round -/
  round : Bool := false
  deriving DecidableEq, Repr, Inhabited

/-- A restart record on a die (R183): its slot, its context while that holds it, its 256 bytes. -/
structure Rec where
  slot : Nat := 0
  ctx : Nat := 0
  released : Bool := false
  bytes : List Byte := []
  deriving DecidableEq, Repr, Inhabited

/-- A builder round in flight (R213): the ring slot it was submitted in and every staged change. -/
structure Round where
  slot : Nat := 0
  devctx : Nat := 0
  /-- placed entries: entry, pages held, oldest slot, and whether FRESH was used -/
  placed : List (Nat × Nat × Nat × Bool) := []
  /-- entries admitted from JOIN, and entries that become FREE -/
  joined : List Nat := []
  freed : List Nat := []
  /-- staged writes of page tables and pool slots: virtual address, 8-byte value -/
  writes : List (Nat × Nat) := []
  pool : Nat := 0
  deriving DecidableEq, Repr, Inhabited

/-- The step scheduler, sequence block and engines of a compute die beyond their registers. -/
structure Sch where
  ctx : Tab Sctx := []
  /-- restart records on the die, oldest first -/
  recs : List Rec := []
  /-- per engine (0 Braid, 1 strand, 2 whipping, 3 spectral): context and step it is granted to -/
  cur : Tab (Option (Nat × Nat)) := []
  /-- per engine and class: virtual time (R217) -/
  vt : Tab Nat := []
  /-- per engine: the class most recently granted, plus one -/
  lastCls : Tab Nat := []
  /-- per engine and class: had a ready step when last looked at -/
  rdy : Tab Bool := []
  /-- per engine: the RT context that lost a tie and is granted next, plus one -/
  loser : Tab Nat := []
  /-- the Braid's shape code and quadrants, and the strand pairs, of the step under way -/
  shape : Nat := 0
  qact : Nat := 0
  pairs : Nat := 0
  /-- tile steps the Braid has started, and per quadrant the count at its last mismatch, plus one -/
  started : Nat := 0
  mism : Tab Nat := []
  /-- handshake steps per engine group (0 Braid, 1 strand, 2 whipping and spectral) and class since the
  last energy tick, and per domain the energy below 1 µJ, in nJ -/
  tickSteps : Tab Nat := []
  residue : Tab Nat := []
  /-- the sequence block: TAKE given, builder ticks since the last KICK, GIVE given, the round in flight -/
  takePend : Bool := false
  kicks : Nat := 0
  givePend : Bool := false
  round : Option Round := none
  deriving DecidableEq, Repr, Inhabited

/-- What an entry of a controller's queue is (R268, R273, R284). -/
inductive EntKind where
  /-- a request of a port -/
  | port
  /-- a write-back of a corrected line -/
  | fixed
  /-- a write-back of an uncorrectable line in its poisoned form -/
  | poison
  /-- the second copy of a write to the chunk in migration -/
  | dual
  deriving DecidableEq, Repr, Inhabited

/-- An entry of a controller's queue. -/
structure McEnt where
  kind : EntKind
  req : McReq
  deriving DecidableEq, Repr

/-- A bank as its controller tracks it: the open row, plus one, and the time of its last access. -/
structure Bank where
  row : Nat := 0
  last : Nat := 0
  deriving DecidableEq, Repr, Inhabited

/-- A memory controller beyond its registers (R273 to R277). -/
structure Mc where
  /-- oldest first -/
  queue : List McEnt := []
  /-- bank `16 k + b` of rank-channel `k` -/
  banks : Tab Bank := []
  /-- per rank-channel: banks refreshed in the round under way, one bit each -/
  round : Tab Nat := []
  /-- per rank-channel: a request must issue before any further refresh -/
  owed : Tab Bool := []
  /-- the direction is write, and the bursts since it changed -/
  dirW : Bool := false
  bursts : Nat := 16
  /-- when the conditions of self-refresh were last broken -/
  since : Nat := 0
  /-- the instant its entry began, before the commit point -/
  entering : Option Nat := none
  /-- no command is issued before this time -/
  wake : Nat := 0
  deriving DecidableEq, Repr, Inhabited

/-- The migration engine beyond its registers (R283 to R287). -/
structure Mig where
  /-- pending rank-channels in the order of their failure -/
  order : List Nat := []
  /-- the data are read from a spare -/
  second : Bool := false
  /-- SEQ of the last mirror write asked for -/
  seq : Nat := 0
  /-- the generation of the repair map that records the RETIRE under way -/
  need : Nat := 0
  deriving DecidableEq, Repr, Inhabited

/-- A batch of an MRAM write (R527): its class in the order of service (0 repair map, 1 migration journal,
2 other journals, 3 event log), its offset in the device, its bytes. -/
structure Batch where
  cls : Nat := 0
  off : Nat := 0
  bytes : List Byte := []
  deriving DecidableEq, Repr, Inhabited

/-- The steward's repair map (R545, R546). -/
structure Repair where
  die : Tab Nat := []
  bad : Tab Nat := []
  rmap : Tab Nat := []
  spbad : Nat := 0
  gexcl : Nat := 0
  /-- per group: its row entries and its column entries -/
  shelf : Tab (List Nat × List Nat) := []
  /-- SEQ of the copy in force, and which copy that is -/
  seq : Nat := 0
  copy : Nat := 0
  /-- repairs made, repairs in the write under way, repairs recorded -/
  made : Nat := 0
  writing : Option Nat := none
  done : Nat := 0
  deriving DecidableEq, Repr, Inhabited

/-- A DMA descriptor that has begun (R323, R258): its ring index, its fields, the bytes moved so far, and how
it failed: STATUS, SIDE, CAUSE and address. -/
structure DmaD where
  idx : Nat := 0
  src : Nat := 0
  dst : Nat := 0
  len : Nat := 0
  flags : Nat := 0
  moved : Nat := 0
  fail : Option (Nat × Nat × Nat × Nat) := none
  deriving DecidableEq, Repr, Inhabited

/-- A DMA channel beyond its registers: descriptors begun, in ring order; a fault has stopped it. -/
structure Dma where
  begun : List DmaD := []
  stopped : Bool := false
  deriving DecidableEq, Repr, Inhabited

/-- An end of a link module beyond its registers (R299 to R307). -/
structure LinkEnd where
  /-- the sequence number the receiver expects, and whether it discards until SYNC -/
  rxSeq : Nat := 0
  drop : Bool := false
  /-- the sequence number the sender gives next, and the entries sent and not acknowledged, each with its
  sequence number and its flits' bytes, oldest first -/
  txSeq : Nat := 0
  unacked : List (Nat × List Byte) := []
  /-- its weight in the sender's rotation, and in the receiver's -/
  weight : Nat := 0
  rxWeight : Nat := 0
  /-- per lane: measurements in a row below EYEMIN -/
  low : Tab Nat := []
  /-- retries charged to lanes: lane and device time -/
  retries : List (Nat × Nat) := []
  /-- entries received whose request is held at its target, oldest first -/
  stuck : List (List Byte) := []
  deriving DecidableEq, Repr, Inhabited

/-- The sending end of a bundle: the place in its rotation, its epoch, and the transactions held for want of
credit, each with its virtual channel and flits. -/
structure Bundle where
  cursor : Nat := 0
  dealt : Nat := 0
  epoch : Nat := 0
  waiting : List (Nat × List Byte) := []
  deriving DecidableEq, Repr, Inhabited

/-- The time base's gPTP side (R334, R335). -/
structure Ptp where
  /-- a Sync that waits for its Follow_Up: sequence and stamp -/
  sync : Option (Nat × Nat) := none
  /-- the last eight differences of gPTP time and device time, newest first -/
  hist : List Int := []
  /-- Syncs in a row with a residual of at most 500 ns -/
  good : Nat := 0
  /-- when the last valid Sync came -/
  last : Nat := 0
  /-- holdover: OFFSET is frozen -/
  frozen : Bool := false
  /-- the grandmaster's priority1, as Announce messages give it -/
  gm : Option Nat := none
  /-- a peer-delay measurement under way: sequence, the times of request, its receipt and the response -/
  pdelay : Option (Nat × Nat × Nat × Nat) := none
  delay : Int := 0
  deriving DecidableEq, Repr, Inhabited

/-- A line group under way (R338). -/
structure Group where
  lines : List Byte := []
  count : Nat := 0
  stamp : Nat := 0
  crcerr : Bool := false
  trunc : Bool := false
  short : Bool := false
  /-- the frame-start stamp, in the first group of a frame -/
  fs : Option Nat := none
  deriving DecidableEq, Repr, Inhabited

/-- An IMU port: the stamp of the read under way, and the time of the last edge, plus one (R340). -/
structure ImuPort where
  reading : Option Nat := none
  edge : Nat := 0
  deriving DecidableEq, Repr, Inhabited

/-- The ingest beyond its registers. -/
structure Ing where
  /-- the stream table while it runs: 64 descriptors of 64 bytes -/
  table : List (List Byte) := []
  /-- per stream: records produced, and a drop not yet told by GAP -/
  seq : Tab Nat := []
  gap : Tab Bool := []
  group : Tab Group := []
  /-- per CSI port and channel: the stamp of a Frame Start for the next group -/
  start : Tab (Option Nat) := []
  /-- per CSI port: packets discarded -/
  discard : Tab Nat := []
  imu : Tab ImuPort := []
  /-- per ring: the take that waits, its count and when it was written -/
  take : Tab (Option (Nat × Nat)) := []
  deriving DecidableEq, Repr, Inhabited

/-- An IMU sample (R347): its port, stamp, and six channels as FP32. -/
structure ImuSample where
  imu : Nat
  stamp : Nat
  v : List Nat
  deriving DecidableEq, Repr, Inhabited

/-- A signal received for the integrator (R341, R347): stamp, value, and whether it counts. -/
structure Sig where
  stamp : Nat
  value : Nat
  use : Bool
  deriving DecidableEq, Repr, Inhabited

/-- A pose (R350): floating-point fields as FP32 codes. -/
structure Pose where
  t : Nat := 0
  x : Int := 0
  y : Int := 0
  z : Int := 0
  psi : Nat := 0
  phi : Nat := 0
  theta : Nat := 0
  v : Nat := 0
  alon : Nat := 0
  /-- WX, WY, WZ -/
  w : List Nat := [0, 0, 0]
  /-- ART1, ART2, ARTR1, ARTR2 -/
  art : List Nat := [0, 0, 0, 0]
  flags : Nat := 0
  k : Nat := 0
  deriving DecidableEq, Repr, Inhabited

/-- The ego-motion integrator beyond its registers (R347 to R352). -/
structure Ego where
  /-- the tick that runs next -/
  next : Nat := 0
  samples : List ImuSample := []
  /-- per role (0 to 11 wheels, 12 and 13 articulations): signals, newest first -/
  sigs : Tab (List Sig) := []
  /-- the pose buffer, newest first -/
  poses : List Pose := []
  /-- the integrator's state, as the newest pose holds it, and the held rates and accelerations -/
  cur : Pose := {}
  accel : List Nat := [0, 0, 0]
  /-- consecutive ticks without wheels, and without IMUs; INVALID stands -/
  noWheel : Nat := 0
  noImu : Nat := 0
  invalid : Bool := false
  /-- biases BG0, BA0, BG1, BA1, and the twelve wheel corrections; a read of the record is under way -/
  bias : List (List Nat) := [[0, 0, 0], [0, 0, 0], [0, 0, 0], [0, 0, 0]]
  wc : List Nat := []
  biasRead : Bool := false
  deriving DecidableEq, Repr, Inhabited

/-- A sensor's calibration (R359): nominal, applied and target sets, limits, LIMHIT since the last grid. -/
structure Cal where
  n : List Int := []
  a : List Int := []
  tgt : List Int := []
  lrot : Nat := 0
  ltrn : Nat := 0
  hit : Bool := false
  deriving DecidableEq, Repr, Inhabited

/-- The alignment engine beyond its registers. -/
structure Aln where
  /-- the calibration table it holds: 64 entries, or none -/
  cal : List Cal := []
  calseq : Nat := 0
  /-- a failed read: it does not start until EN is cleared and set -/
  failed : Bool := false
  halted : Bool := false
  /-- the last instant of a calibration step, plus one -/
  stepped : Nat := 0
  deriving DecidableEq, Repr, Inhabited

/-- What the trajectory engine knows of a completed candidate (R383, R384). -/
structure CandRes where
  ok : Bool := false
  terms : List Nat := []
  cost : Nat := 0
  deriving DecidableEq, Repr, Inhabited

/-- A delta batch under application (R388): the grid after it, the entries applied, their least source time,
the entries skipped and rejected, the tail it reaches, the cells whose occupied-ness changes. -/
structure Delta where
  grid : List Byte := []
  applied : Nat := 0
  told : Nat := 0
  skipped : Nat := 0
  bad : Nat := 0
  upto : Nat := 0
  changed : List Nat := []
  deriving DecidableEq, Repr, Inhabited

/-- What a planning cycle does next. -/
inductive TrjAct where
  /-- the load phase -/
  | load
  /-- the distance field -/
  | field
  /-- a wave of these candidates, a repair wave when `repair` -/
  | wave (cands : List Nat) (repair : Bool)
  /-- a delta batch -/
  | delta (b : Delta)
  /-- nothing more can end by STOP -/
  | spent
  /-- the reduction -/
  | reduce
  /-- the record is on its way -/
  | publish (rec : List Byte)
  deriving DecidableEq, Repr, Inhabited

/-- A planning cycle (R374 to R390).  Instants of waves are in sixths of a nanosecond: a cycle of 1.2 GHz is
five. -/
structure Cycle where
  start : Nat := 0
  /-- the descriptor once read -/
  desc : Option (List Byte) := none
  grid : List Byte := []
  objs : List Byte := []
  paths : List Byte := []
  profs : List Byte := []
  cands : List Byte := []
  act : TrjAct := .load
  /-- when `act` ends -/
  due : Nat := 0
  /-- the next wave -/
  next : Nat := 0
  results : Tab (Option CandRes) := []
  dirty : List Nat := []
  told : Nat := 0
  ndelta : Nat := 0
  /-- the ring is left alone for the rest of the cycle -/
  stuck : Bool := false
  aborted : Bool := false
  deriving DecidableEq, Repr, Inhabited

/-- A record in the egress queue (R392): its SEQ, when it was published, its bytes, the releases it has. -/
structure Egress where
  seq : Nat := 0
  pub : Nat := 0
  bytes : List Byte := []
  relA : Bool := false
  relB : Bool := false
  deriving DecidableEq, Repr, Inhabited

/-- The trajectory engine beyond its registers. -/
structure Trj where
  cycle : Option Cycle := none
  egress : List Egress := []
  deriving DecidableEq, Repr, Inhabited

/-- A rate monitor and rail of a compute die (0 to 3) or base tile (4 to 7) beyond its registers (R141, R142). -/
structure Rtm where
  /-- a rail change took effect at the start of the window under way -/
  changed : Bool := false
  /-- the last window was settled, and the one before it -/
  settled : Bool := false
  before : Bool := false
  /-- RATE of the window before the last -/
  rateBefore : Nat := 0
  /-- the last window's end, plus one -/
  last : Nat := 0
  deriving DecidableEq, Repr, Inhabited

/-- A request that the power budget arbiter holds (R513). -/
structure PbaReq where
  op : Nat := 0
  dom : Nat := 0
  tokens : Nat := 0
  deriving DecidableEq, Repr, Inhabited

/-- The power budget arbiter, the thermal model and the input beyond their registers (R500 to R528). -/
structure Pba where
  /-- per compute domain: the grant asked for -/
  want : Tab Nat := []
  pending : Option PbaReq := none
  /-- grant increases and decreases of the tick under way and of the nine before it -/
  ramp : List (Nat × Nat) := []
  /-- causes of the survival envelope that stand: coolant, input, SHED -/
  coolant : Bool := false
  input : Bool := false
  shed : Bool := false
  /-- domains to power again when the envelope is left -/
  restore : List Nat := []
  /-- when an allocation set FLOORREQ because level 4 did not fit (R509) -/
  floorAt : Option Nat := none
  /-- compute dies with a domain above its grant, and dies withheld for their prediction, one bit each -/
  overdraw : Nat := 0
  hot : Nat := 0
  /-- the last tick, plus one -/
  last : Nat := 0
  /-- per domain: energy over the last tick, µJ -/
  used : List Nat := []
  /-- per die: sum and number of its sensors, 1/16 °C -/
  sens : List (Int × Nat) := []
  /-- newest first, one a tick: input power in mW and ΔT in mK (R520), and each die's sensor sums -/
  flowHist : List (Nat × Int) := []
  sumHist : List (List Int) := []
  tin : Int := 0
  /-- the flow estimate in mL/min, once one was formed; the derate target is below BUDGET -/
  flow : Option Nat := none
  derated : Bool := false
  /-- per die: the tick of the last grant increase, plus one -/
  raised : Tab Nat := []
  /-- since when F and the inlet allow the envelope to be left, plus one -/
  coolSince : Nat := 0
  /-- input power samples of the last 1 ms in mW, newest first; since when the input is below 16.0 V, at or above
  17.0 V, or gone, each plus one; the input is disconnected -/
  pins : List Nat := []
  below : Nat := 0
  above : Nat := 0
  dropAt : Nat := 0
  overV : Bool := false
  /-- the module is without power: nothing but the Cleats runs -/
  dark : Bool := false
  /-- the shutdown-record slot written next, and E_avail in mJ of a record that has not been read into the log -/
  slot : Nat := 0
  shut : Option Nat := none
  deriving DecidableEq, Repr, Inhabited

/-- A Cleat's state (R419). -/
inductive CSt where
  | boot | restricted | ready | engaged | stopping | expelled
  /-- in SAFE with its power removed by a thermal trip (R401) -/
  | tripped
  deriving DecidableEq, Repr, Inhabited

/-- A Cleat's role view (R479). -/
inductive View where
  | solo | source | follower
  deriving DecidableEq, Repr, Inhabited

/-- An input entry of the SPB as a Cleat tracks it (R408): the counter of its last valid frame, and when that
came by the Cleat's own clock, plus one. -/
structure CanIn where
  ctr : Option Nat := none
  last : Nat := 0
  deriving DecidableEq, Repr, Inhabited

/-- A supervised task (R415): in violation; its due instant by CT; the last event, plus one; the admitted budget in
ps, and a revocation that waits; the first dispatch under way: its EPOCH and CT; the die last named; the next
activation; est at the last commit. -/
structure CTask where
  viol : Bool := false
  due : Option Nat := none
  last : Nat := 0
  budget : Option Nat := none
  revoke : Bool := false
  run : Option (Nat × Nat) := none
  die : Nat := 0
  act : Nat := 0
  commit : Option Int := none
  /-- what MOVEGRACE adds to the next due instant, in ns -/
  grace : Nat := 0
  deriving DecidableEq, Repr, Inhabited

/-- A computed stop (R422), as the stop record carries it. -/
structure StopFix where
  t0 : Int := 0
  v0 : Int := 0
  k0 : Int := 0
  a0 : Int := 0
  tstop : Nat := 0
  sstop : Nat := 0
  art1 : Int := 0
  art2 : Int := 0
  old : Bool := false
  deriving DecidableEq, Repr, Inhabited

/-- A partner Cleat as a Cleat knows it (R481, R487): CT of its last relayed message and of its last stop record
heard, each plus one; what it last reported. -/
structure Partner where
  relay : Nat := 0
  heard : Nat := 0
  state : Nat := 0
  view : Nat := 0xFF
  aside : Bool := false
  synced : Bool := false
  reason : Nat := 0
  pver : Nat := 1
  deriving DecidableEq, Repr, Inhabited

/-- A digest a Cleat holds (R485). -/
structure Dig where
  cls : Nat := 0
  modid : Nat := 0
  die : Nat := 0
  key : Nat := 0
  replay : Bool := false
  hash : List Byte := []
  told : Nat := 0
  deriving DecidableEq, Repr, Inhabited

/-- A dispute (R486): its class and key, its originals, its replays, and when it closes by CT. -/
structure Dispute where
  cls : Nat := 0
  key : Nat := 0
  a0 : Dig := {}
  b0 : Dig := {}
  a1 : Option Dig := none
  b1 : Option Dig := none
  close : Nat := 0
  deriving DecidableEq, Repr, Inhabited

/-- The pair side of a Cleat. -/
structure Pair where
  view : View := .solo
  synced : Bool := false
  aside : Bool := false
  /-- when it stood aside, by CT, plus one -/
  asideAt : Nat := 0
  /-- the partner Cleats, by letter -/
  partner : Tab Partner := []
  /-- the module's other Cleat, and whether the partner was driving when last judged -/
  sib : Partner := {}
  drove : Bool := false
  /-- COUNTER of its relay messages -/
  ctr : Nat := 0
  /-- the bounds of θ and the CT at which they held; t1 of the exchange under way; when a follower last accepted one -/
  theta : Option (Int × Int × Nat) := none
  t1 : Option Int := none
  /-- trajectory records waiting for their counterpart: module, PLANID, bytes, due -/
  recs : List (Nat × Nat × List Byte × Nat) := []
  digs : List (Dig × Nat) := []
  disputes : List Dispute := []
  /-- an unequal comparison that waits for an attribution until this CT -/
  mism : List Nat := []
  matched : Nat := 0
  /-- pairs of trajectory records that were not comparable (R484) -/
  uncompared : Nat := 0
  equalRun : Nat := 0
  unmatched : Nat := 0
  /-- disputes resolved: CT and module -/
  resolved : List (Nat × Nat) := []
  /-- reports of standing aside: CT and module -/
  asides : List (Nat × Nat) := []
  /-- the handover under way: KEY, CT of the request, origins that acknowledged -/
  hand : Option (Nat × Nat × Nat) := none
  /-- the key at which the view swaps -/
  swap : Option Nat := none
  /-- greatest PLANID accepted, plus one, and of the last partner record accepted, plus one -/
  maxPlan : Nat := 0
  partnerPlan : Nat := 0
  /-- module votes held, per module: origins, one bit each; its own module votes cast -/
  mvotes : Tab Nat := []
  cast : Nat := 0
  deriving DecidableEq, Repr, Inhabited

/-- A Cleat (R400 to R430). -/
structure Cleat where
  st : CSt := .boot
  /-- without its own supply -/
  dark : Bool := false
  /-- its own clock, in ns -/
  ct : Nat := 0
  reason : Nat := 0
  /-- REASON of the stop record -/
  stopReason : Nat := 0
  degraded : Bool := false
  latent : Bool := false
  /-- the boot stream so far, the SPB once valid, and whether every die and image is qualified -/
  stream : List Byte := []
  /-- its own OTP counter for its image (R566) -/
  otp : Nat := 0
  spb : Option (List Byte) := none
  qualified : Bool := false
  /-- the basis of est (DT, CT), and the summaries of the last 100 ms (DT, CT), newest first -/
  basis : Option (Nat × Nat) := none
  sums : List (Nat × Nat) := []
  /-- CT of the link faults of the last 100 ms; the hub link is lost; counts for the mirror -/
  faults : List Nat := []
  linkLost : Bool := false
  gaps : Nat := 0
  badfrm : Nat := 0
  lseq : Option Nat := none
  /-- notices received, by KIND; poses are INVALID; the survival envelope stands -/
  ncount : Tab Nat := []
  poseBad : Bool := false
  envelope : Bool := false
  /-- summaries in a row whose gate state differs from its own; the last GATES -/
  gateBad : Nat := 0
  gates : Nat := 0
  canin : Tab CanIn := []
  /-- per KIND 1 to 4: stamped values, newest first -/
  hist : Tab (List (Int × Int)) := []
  vehLost : Bool := false
  tasks : Tab CTask := []
  /-- the certificate request under way: OP, TASK, TAG, CERTLEN, bytes streamed -/
  req : Option (Nat × Nat × Nat × Nat) := none
  cert : List Byte := []
  /-- response slots -/
  rsp : Tab Nat := []
  /-- records accepted in a row; SEQREF; the last SEQ received, per source module; skip the next check of it -/
  run : Nat := 0
  seqref : Nat := 0
  lastSeq : Tab (Option Nat) := []
  skipSeq : Bool := false
  refuse : Nat := 0xFF0000
  /-- the accepted grid record and the stamps the calibration check needs: TCAL, CALSEQ -/
  grid : Option (List Byte) := none
  /-- COUNTER of the stop records, the stop computed last, and the CT of the last record published, plus one -/
  counter : Nat := 0
  stop : StopFix := {}
  published : Nat := 0
  /-- evidence against dies: CT and die; dies voted against, and dies expelled, one bit each -/
  evidence : List (Nat × Nat) := []
  vote : Nat := 0
  gone : Nat := 0
  /-- CT of the last passed test, and since when it is outside ENGAGED and STOPPING -/
  tested : Nat := 0
  outside : Nat := 0
  /-- since when the speed is below 0.1 m/s, plus one -/
  slow : Nat := 0
  /-- generation of its STATUS frames -/
  gen : Nat := 0
  pair : Pair := {}
  deriving DecidableEq, Repr, Inhabited

/-- The hub's side of the Cleats' ports beyond its registers (R403, R405, R417, R426). -/
structure Clp where
  txSeq : Tab Nat := []
  ncount : Tab Nat := []
  /-- a fetch fault has halted the ring -/
  halted : Bool := false
  /-- per Cleat and die (8 c + n): when the vote came, plus one -/
  voteAt : Tab Nat := []
  /-- the device time of the last SUMMARY, plus one -/
  summary : Nat := 0
  deriving DecidableEq, Repr, Inhabited

/-- A mirror entry (R475): its number, its address and its bytes, which lie within one line. -/
structure MirEnt where
  seq : Nat := 0
  pa : Nat := 0
  bytes : List Byte := []
  deriving DecidableEq, Repr, Inhabited

/-- A packet sent on a Hawser port and not acknowledged (R470): its number, what it carries, and the mirror
entry's number, plus one. -/
structure HwsPkt where
  psn : Nat := 0
  sent : Nat := 0
  kind : String := ""
  bytes : List Byte := []
  entry : Nat := 0
  deriving DecidableEq, Repr, Inhabited

/-- A message delivered to a queue pair (R494): its pair, its address and length, and the immediate, plus one. -/
structure QpMsg where
  q : Nat := 0
  va : Nat := 0
  len : Nat := 0
  imm : Nat := 0
  deriving DecidableEq, Repr, Inhabited

/-- The Hawser block beyond its registers. -/
structure Hws where
  queue : List MirEnt := []
  /-- the number the next entry gets, the number the receiver expects, and entries that came early -/
  txSeq : Nat := 0
  rxSeq : Nat := 0
  early : List MirEnt := []
  /-- per port: the greatest number received, plus one -/
  rxTop : Tab Nat := []
  /-- windows whose disable waits for the queue, one bit each -/
  off : Nat := 0
  /-- lines a RESYNC has still to read: address and length in lines -/
  resync : List (Nat × Nat) := []
  /-- the last entry of the RESYNC, plus one, once it is queued -/
  last : Nat := 0
  /-- per port: packets sent, the next packet number, retries in a row, the expected number -/
  sent : Tab (List HwsPkt) := []
  psn : Tab Nat := []
  retries : Tab Nat := []
  /-- the next port of the rotation, and tokens sent in the current window -/
  port : Nat := 0
  window : Nat := 0
  used : Nat := 0
  /-- digests of originals the hub has carried -/
  digs : List (Nat × Nat × Nat × List Byte) := []
  halted : Bool := false
  /-- messages that wait at the queue pairs, oldest first -/
  qp : List QpMsg := []
  deriving DecidableEq, Repr, Inhabited

/-- The steward's event log (R553 to R556). -/
structure Log where
  /-- entries that wait in the hub buffer, oldest first -/
  buf : List (List Byte) := []
  /-- SEQ of the next entry, the power-on count, and the ring's head, in entries -/
  seq : Nat := 0
  boot : Nat := 0
  head : Nat := 0
  /-- entries in the ring -/
  stored : Nat := 0
  /-- when the oldest waiting entry arrived; entries lost and not yet told -/
  since : Nat := 0
  lost : Nat := 0
  /-- highest SEV since the last health report -/
  sev : Nat := 0
  /-- software entries accepted in the second under way, and that second -/
  soft : Nat := 0
  second : Nat := 0
  /-- the device time of the last health report, plus one -/
  health : Nat := 0
  deriving DecidableEq, Repr, Inhabited

/-- A domain of the APLIC (R453, and the layout of the Advanced Interrupt Architecture). -/
structure Apl where
  ie : Bool := false
  /-- per source: sourcecfg, pending, enabled, target -/
  cfg : Tab Nat := []
  ip : Tab Bool := []
  en : Tab Bool := []
  target : Tab Nat := []
  genmsi : Nat := 0
  deriving DecidableEq, Repr, Inhabited

/-- The interrupt logic beyond HD_IRQ (R453 to R456): the last level of each source, the two APLIC domains, and the
pending identities of each file (hart `h`: M level at `h`, S level at `32 + h`). -/
structure Irq where
  level : Tab Bool := []
  m : Apl := {}
  s : Apl := {}
  files : Tab (List Nat) := []
  /-- eidelivery, eithreshold and the enabled identities of each file, by the same number -/
  csr : Tab (Nat × Nat × List Nat) := []
  deriving DecidableEq, Repr, Inhabited

/-- A hart as the block sees it (R434 to R441, R586). -/
structure HartSt where
  /-- released from reset -/
  running : Bool := false
  halted : Bool := false
  /-- a halt deferred by a hitch, and when it takes effect, plus one; a halt held until reset is released -/
  haltAt : Nat := 0
  haltHeld : Bool := false
  /-- machine and supervisor timer interrupts -/
  mtip : Bool := false
  stip : Bool := false
  /-- the stimecmp CSR as last seen -/
  stimecmp : Nat := 0
  /-- the line its reservation names -/
  resv : Option Nat := none
  /-- the last trap it took: cause and value -/
  trap : Option (Nat × Nat) := none
  deriving DecidableEq, Repr, Inhabited

/-- A line of the Shelf in the harts' caches (R439): its key's line, its bytes, written since it was filled. -/
structure CLine where
  line : Nat := 0
  bytes : List Byte := []
  dirty : Bool := false
  deriving DecidableEq, Repr, Inhabited

/-- A mailbox channel beyond its registers (R448): messages (pointer, tag), oldest first, and the tag of a held post. -/
structure MbxChan where
  slots : List (Nat × Nat) := []
  held : Option Nat := none
  deriving DecidableEq, Repr, Inhabited

/-- A lease (R539): identifier, kind, unit, granted. -/
structure Lease where
  id : Nat := 0
  kind : Nat := 0
  unit : Nat := 0
  granted : Bool := false
  deriving DecidableEq, Repr, Inhabited

/-- The test controller and the steward's schedule (R535 to R543). -/
structure Tst where
  /-- the test under way: TEST, UNIT and when it began -/
  cur : Option (Nat × Nat × Nat) := none
  lease : Option Lease := none
  nextLease : Nat := 0
  /-- QOFF and PAIROFF before a KAT -/
  saved : Nat × Nat := (0, 0)
  /-- per unit (64 TEST + UNIT): when it last ran, and when it was last reported overdue, each plus one -/
  ran : Tab Nat := []
  told : Tab Nat := []
  /-- the module end tested next by LANE, and the weights it had -/
  lane : Nat := 0
  /-- unit of a LANE test with its weights set to 0 -/
  weight : Option (Nat × Nat) := none
  /-- the device time of the last wear sample, plus one -/
  wearAt : Nat := 0
  /-- corrected lines of the day: group g, rank-channel 16 + q -/
  ce : Tab Nat := []
  /-- a hub array failed its power-on test: the module does not start (R537) -/
  hubBad : Bool := false
  deriving DecidableEq, Repr, Inhabited

/-- The wear of a die (R549, R550): equivalent time in 1/1,024 s, cycles in 1/32, the turning point before, the running
extreme, and the direction (0 not yet sampled, 1 up, 2 down, 3 not yet known). -/
structure Wear where
  eq : Nat := 0
  cycles : Nat := 0
  turn : Int := 0
  /-- the highest reading of the second under way -/
  peak : Option Int := none
  extreme : Int := 0
  dir : Nat := 0
  deriving DecidableEq, Repr, Inhabited

/-- A reset under way (R560): its kind (2 module, 3 warm, 4 cluster, 5 die), the domains it covers, and when it is released. -/
structure Rst where
  kind : Nat := 0
  doms : List Nat := []
  release : Nat := 0
  deriving DecidableEq, Repr, Inhabited

/-- The security block, OTP and boot beyond their registers (R563 to R581). -/
structure Sec where
  /-- bits set in the three lifecycle fields -/
  lcBits : Tab Nat := []
  /-- keys present and revoked: Belpetre 0 to 3, integrator 4 and 5, manufacturing 6 -/
  keys : Nat := 0x4F
  revoked : Nat := 0
  /-- anti-rollback counters -/
  ctr : Tab Nat := []
  /-- the pair and configuration keys are destroyed (R579) -/
  wiped : Bool := false
  /-- the boot control record in force, one byte per TYPE -/
  bcr : Tab Nat := []
  /-- ACTIVATE is pending; this boot follows an activation reset; the update command under way -/
  pend : Bool := false
  act : Bool := false
  upd : Nat := 0
  /-- the object that STAGE verified: TYPE and bytes -/
  stage : Option (Nat × List Byte) := none
  /-- the module configuration in force -/
  cfg : Option (List Byte) := none
  /-- the running copy of each TYPE, plus one; 0 where it is missing -/
  sel : Tab Nat := []
  /-- the steward's boot: 0 not started, 1 copies selected, 2 configuration applied, 3 core boot done -/
  boot : Nat := 0
  /-- a preferred copy was not used at the last selection -/
  fallback : Bool := false
  /-- the reset under way -/
  rst : Option Rst := none
  deriving DecidableEq, Repr, Inhabited

/-- The debug port beyond its registers (R583 to R586): when the session opened; failures in a row; the end of a
lockout; the steward's halt. -/
structure Dbg where
  opened : Nat := 0
  fails : Nat := 0
  lockEnd : Nat := 0
  stw : HartSt := {}
  deriving DecidableEq, Repr, Inhabited

/-- A hub CAN FD port beyond its registers (R606). -/
structure CanTx where
  /-- the entry fetched, and whether its LAUNCH had passed -/
  entry : Option (List Byte × Bool) := none
  /-- its frame is on the bus since this time, plus one -/
  sof : Nat := 0
  halted : Bool := false
  /-- an ABORT waits for the frame on the bus -/
  aborting : Bool := false
  deriving DecidableEq, Repr, Inhabited

/-- Everything but the queue, device time, memory and the register file. -/
structure Dev where
  /-- the model's counter of open values drawn -/
  free : Nat := 0
  out : List Out := []
  /-- lines whose data are poisoned, by line address -/
  poison : List Nat := []
  latches : Tab Latch := []
  /-- power domains, by index -/
  pwr : Tab Pwr := []
  /-- compute dies expelled on both Cleats' vote (R190), one bit each -/
  expelled : Nat := 0
  /-- translation units: compute dies 0 to 3, the hub 4 -/
  xlt : Tab Xlt := []
  /-- step schedulers, by compute die -/
  sch : Tab Sch := []
  /-- compute dies whose non-real-time contexts the arbiter withholds (R145, R146), one bit each -/
  withhold : Nat := 0
  /-- memory controllers -/
  mc : Tab Mc := []
  mig : Mig := {}
  /-- MRAM batches waiting, oldest first, and the one under way -/
  batches : List Batch := []
  batch : Option Batch := none
  repair : Repair := {}
  dma : Tab Dma := []
  /-- link ends: module `k` of base tile `n` at `32 n + k`, of the hub at `128 + k` -/
  link : Tab LinkEnd := []
  /-- sending ends of bundles, by the key of their first module -/
  bundle : Tab Bundle := []
  /-- effective guarantees that take effect at the next window: block, instance, EFF word, CAUSE -/
  regNext : List (Nat × Nat × Nat × Nat) := []
  /-- tokens each firewall window has carried in the current window -/
  fwUsed : Tab Nat := []
  ptp : Ptp := {}
  ing : Ing := {}
  ego : Ego := {}
  aln : Aln := {}
  trj : Trj := {}
  rtm : Tab Rtm := []
  pba : Pba := {}
  clp : Clp := {}
  /-- Cleat A and Cleat B -/
  cleat : Tab Cleat := []
  hws : Hws := {}
  log : Log := {}
  irq : Irq := {}
  harts : Tab HartSt := []
  cache : List CLine := []
  mbx : Tab MbxChan := []
  tst : Tst := {}
  /-- wear of the hub (0), CD0 to CD3 (1 to 4) and BT0 to BT3 (5 to 8) -/
  wear : Tab Wear := []
  /-- the wear as the steward's journal last recorded it, which power-on reads back (R549) -/
  wearJ : Tab Wear := []
  /-- per compute die and base tile: lowest RATE of the hour, plus one, and the first in life, plus one (R551) -/
  rateLow : Tab (Nat × Nat) := []
  /-- monitors that stand above NOTICE or WARN (R552), by a key -/
  wearTold : List Nat := []
  sec : Sec := {}
  dbg : Dbg := {}
  can : Tab CanTx := []
  /-- PCIe root ports: PERST_N released, and when REFCLK became stable, plus one -/
  perst : Tab Bool := []
  refclk : Tab Nat := []
  /-- width of each root port's link; 0 while it is down -/
  pcie : Tab Nat := []
  /-- MOD_PWRGOOD is released (R600) -/
  pwrgood : Bool := false
  deriving DecidableEq, Repr

/-- The state. -/
structure State where
  /-- the commands that wait, first in first out -/
  pending : List Instr
  /-- device time in nanoseconds (R8) -/
  now : Nat
  /-- bytes of memory; an unlisted byte reads as 0 (log entry 1) -/
  mem : List Host.Cell
  /-- register words by address; an unlisted register holds its reset value -/
  regs : List (Nat × Word)
  dev : Dev
  deriving DecidableEq, Repr

/-- What an unlisted byte of memory reads as. -/
def emptyByte (_ : Nat) : Byte := 0#8

/-- The machine right after power-on reset. -/
def State.reset : State :=
  { pending := [], now := 0, mem := [], regs := [], dev := {} }

end Sys2Proof.Machine
end

