-- ==== Sys2Proof/Machine/Ops.lean ====
section
/-! DEFINITION.  One command's work on the state.  A command reads the state as it stood and logs its
writes to memory and to registers; committing applies the logs, so both keep their canonical form. -/

namespace Sys2Proof.Machine

/-- A command under way: the state it found, the logs of its writes (newest first), and the rest of the
state as it now stands. -/
structure Tx where
  s : State
  d : Dev
  m : List (Nat × Byte) := []
  r : List (Nat × Word) := []
  deriving Repr

/-- The start of a command's work on `s`. -/
def Tx.start (s : State) : Tx := { s := s, d := s.dev }

/-- `s` after the work of `t`: queue and device time stand; memory and registers take the logs. -/
def State.commit (s : State) (t : Tx) : State :=
  { s with mem := ssetAll emptyByte s.mem t.m, regs := ssetAll resetWord s.regs t.r, dev := t.d }

/-- A command that works by `f` answers the next state. -/
def State.does (s : State) (f : Tx → Tx) : Host.Outcome State Fault Refusal :=
  .next (s.commit (f (Tx.start s)))

/-! Registers. -/

/-- The word of the register at address `a`. -/
def State.reg (s : State) (a : Nat) : Word := sget resetWord s.regs a

/-- A field of a register of `s`. -/
def State.rd (s : State) (f : FRef) : Nat := bits (s.reg f.addr).toNat f.hi f.lo

/-- The word of the register at address `a`, as the command has left it so far. -/
def Tx.word (t : Tx) (a : Nat) : Nat :=
  match logGet t.r a with
  | some w => w.toNat
  | none => (t.s.reg a).toNat

/-- A field of a register. -/
def Tx.rd (t : Tx) (f : FRef) : Nat := bits (t.word f.addr) f.hi f.lo

/-- A one-bit field of a register. -/
def Tx.is (t : Tx) (f : FRef) : Bool := t.rd f == 1

/-- The register at address `a` takes the word `w`. -/
def Tx.setWord (t : Tx) (a w : Nat) : Tx := { t with r := (a, BitVec.ofNat 32 w) :: t.r }

/-- The field `f` takes the value `v`, cut to its width. -/
def Tx.wr (t : Tx) (f : FRef) (v : Nat) : Tx := t.setWord f.addr (putBits (t.word f.addr) f.hi f.lo v)

/-- The sticky bit `f` sets. -/
def Tx.set1 (t : Tx) (f : FRef) : Tx := t.wr f 1

/-- The width of a field. -/
def FRef.width (f : FRef) : Nat := f.hi + 1 - f.lo

/-- The counter field `f` counts `k`, saturating (R17, CNT). -/
def Tx.inc (t : Tx) (f : FRef) (k : Nat := 1) : Tx := t.wr f (satAdd f.width (t.rd f) k)

/-- A 64-bit pair with its low word at `a` (R14). -/
def Tx.pair (t : Tx) (a : Nat) : Nat := t.word a + t.word (a + 4) * 2 ^ 32

/-- The 64-bit pair with its low word at `a` takes the value `v`. -/
def Tx.setPair (t : Tx) (a v : Nat) : Tx := (t.setWord a v).setWord (a + 4) (v / 2 ^ 32)

/-- The 64-bit counter with its low word at `a` counts `k`. -/
def Tx.incPair (t : Tx) (a k : Nat) : Tx := t.setPair a (min (t.pair a + k) (2 ^ 64 - 1))

/-! Memory, by byte address. -/

/-- The byte of `s` at address `a`. -/
def State.byte (s : State) (a : Nat) : Byte := sget emptyByte s.mem a

/-- The byte at address `a`, as the command has left it so far. -/
def Tx.rb (t : Tx) (a : Nat) : Byte :=
  match logGet t.m a with
  | some b => b
  | none => t.s.byte a

/-- The `n` bytes from address `a` on, as a little-endian number. -/
def Tx.rdLE (t : Tx) (a n : Nat) : Nat := leNat ((List.range n).map fun i => t.rb (a + i))

/-- The `n` bytes from address `a` on. -/
def Tx.rdBytes (t : Tx) (a n : Nat) : List Byte := (List.range n).map fun i => t.rb (a + i)

/-- The byte at address `a` takes the value `b`. -/
def Tx.wb (t : Tx) (a : Nat) (b : Byte) : Tx := { t with m := (a, b) :: t.m }

/-- The bytes from address `a` on take the values of `bs`. -/
def Tx.wrBytes (t : Tx) (a : Nat) : List Byte → Tx
  | [] => t
  | b :: bs => (t.wb a b).wrBytes (a + 1) bs

/-- The `n` bytes from address `a` on take the little-endian number `v`. -/
def Tx.wrLE (t : Tx) (a n v : Nat) : Tx := t.wrBytes a (leBytes n v)

/-! Open values, and what leaves the module. -/

/-- A fresh open value below `2 ^ w`, and the counter advanced. -/
def Tx.fresh (t : Tx) (w : Nat) : Nat × Tx :=
  (Config.freeNat t.d.free w % 2 ^ w, { t with d := { t.d with free := t.d.free + 1 } })

/-- A fresh open choice among `n`, and the counter advanced. -/
def Tx.pick (t : Tx) (n : Nat) : Nat × Tx :=
  (Config.freePick t.d.free n % n, { t with d := { t.d with free := t.d.free + 1 } })

/-- `o` leaves the module. -/
def Tx.send (t : Tx) (port kind : String) (data : List Nat) : Tx :=
  { t with d := { t.d with out := t.d.out ++ [⟨port, kind, data⟩] } }

/-- Device time (R8). -/
def Tx.now (t : Tx) : Nat := t.s.now

/-- The logic of domain `i` is held in reset (R560). -/
def Tx.inReset (t : Tx) (i : Nat) : Bool := (t.d.sec.rst.map fun r => r.doms.contains i).getD false

/-- The domain of index `i` is powered (R621), AON unless the whole module is without power (R528), and not held in reset. -/
def Tx.powered (t : Tx) (i : Nat) : Bool := ((i = domAON && !t.d.pba.dark) || t.d.pwr.at i = Pwr.on) && !t.inReset i

/-- A sequence of like pieces of work. -/
def Tx.each {α : Type} (t : Tx) (xs : List α) (f : Tx → α → Tx) : Tx := xs.foldl f t

/-- Work done only when `b` holds. -/
def Tx.when (t : Tx) (b : Bool) (f : Tx → Tx) : Tx := if b then f t else t

end Sys2Proof.Machine
end

