-- ==== Sys2Proof/Machine/Access.lean ====
section
/-! DEFINITION.  Access to configuration space: who reaches it, what an access meets, what a software
write does to each field, the snapshot aliases, and the latches of 64-bit pairs (R12 to R18, R619 to
R621, R627 to R631, R640). -/

namespace Sys2Proof.Machine

/-- A hart's identity (R19, R434). -/
def isHart (mid : Nat) : Bool := mid < 0x18
/-- The steward's identity. -/
def steward : Nat := 0x710
/-- Debug's identity. -/
def debugMid : Nat := 0x7F0
/-- An identity that configuration space accepts (R620). -/
def cfgMid (mid : Nat) : Bool := isHart mid || mid == steward || mid == debugMid

/-- The registers of a block that the steward alone may write, in a block the harts may write too
(R624: HD_SHF_GCFG, EGO_BIAS, ALN_CALCTL, ALN_CALBASE, MBX_CTL, MBX_CHTAB; all but the commands named of
HD_ETH, HD_PBA, HD_THM and HD_HUP). -/
def stewardOnly (a : Nat) : Bool :=
  let o := a - hdBase
  (o == 0x30000) || (o == 0x110008) || (o == 0x11000C) || (o == 0x12002C) || (o == 0x120030) || (o == 0x120034)
    || (o == 0x200000) || (decide (0x201000 ≤ o) && decide (o < 0x203000))
    || (o / 0x1000 == 0x20 && o != 0x20004)
    || ((o / 0x1000 == 0x180 || o / 0x1000 == 0x181) && o != 0x180008 && o != 0x180014)
    || (o / 0x1000 == 0x190 && o != 0x190008)
    || (o / 0x1000 == 0x1A0 && o != 0x1A001C)

/-- Master `mid` may write the register at `a` of block `b` (R624, R625). -/
def mayWrite (b : Blk) (mid a : Nat) : Bool :=
  match b.writers with
  | .none => false
  | .steward => mid == steward
  | .both => mid == steward || (isHart mid && !(a ≥ hdBase && a < hdBase + 0x1000000 && stewardOnly a))
  | .debug => mid == steward || mid == debugMid

/-- The compute die whose configuration region holds `a`, if any. -/
def dieOfCfg (a : Nat) : Option Nat :=
  if cdBase 0 ≤ a ∧ a < cdBase 4 ∧ (a - cdBase 0) % 0x2000000 < 0x1000000 then some ((a - cdBase 0) / 0x2000000)
  else none

/-- What an access meets. -/
inductive Hit where
  /-- a decode error -/
  | decode
  /-- held: the block is in reset (R20, R560) -/
  | held
  /-- an access error of the block, with its kind (R638) -/
  | bad (b : Blk) (kind : Nat)
  /-- the register of row `row` of block `b` -/
  | reg (b : Blk) (row : RegRow)
  /-- the snapshot alias of that register -/
  | snapAlias (b : Blk) (row : RegRow)

/-- The block accepts accesses: its domain is on and its die is not expelled (R621). -/
def Tx.blockOn (t : Tx) (b : Blk) : Bool :=
  t.powered b.dom && (match dieOfCfg b.base with
    | some n => !bit t.d.expelled n
    | none => true)

/-- What an access by `mid` to `size` bytes at `a` meets, before any question of the writer (R12, R15,
R619 to R621, R630). -/
def Tx.meets (t : Tx) (mid a size : Nat) : Hit :=
  if !cfgMid mid then .decode
  else
    let viaAlias := decide (0x6080000000 ≤ a) && decide (a < 0x60A0000000)
    let ra := if viaAlias then a - aliasOff else a
    match blockAt ra with
    | none => .decode
    | some b =>
      if t.inReset b.dom then .held
      else if !t.blockOn b then .decode
      else if size ≠ 4 ∨ a % 4 ≠ 0 then .bad b 1
      else match b.rowAt ra with
        | none => .bad b 2
        | some row => if viaAlias then .snapAlias b row else .reg b row

/-- A decode error of the hub's decoder is logged (R637, R638). -/
def Tx.decodeError (t : Tx) (mid a : Nat) (wr : Bool) : Tx :=
  let hi := bits a 47 32 + mid * 2 ^ 16 + (if wr then 2 ^ 28 else 0)
  (((t.setWord GLB_DECLOG_LO a).setWord GLB_DECLOG_HI hi).set1 GLB_STAT_DECERR).inc GLB_CNT_DECCNT

/-- An access error of block `b` is recorded and logged (R12, R637, R638). -/
def Tx.accError (t : Tx) (b : Blk) (kind mid a : Nat) (wr : Bool) : Tx :=
  let hi := bits a 47 32 + mid * 2 ^ 16 + (if wr then 2 ^ 28 else 0) + kind * 2 ^ 29
  ((((t.set1 b.accerr).setWord GLB_ACCLOG_LO a).setWord GLB_ACCLOG_HI hi).set1 GLB_STAT_ACCANY).inc GLB_CNT_ACCCNT

/-- An access error of the block that holds the register at `a`. -/
def Tx.accErrorAt (t : Tx) (kind mid a : Nat) : Tx :=
  match blockAt a with
  | some b => t.accError b kind mid a true
  | none => t

/-- A write to a snapshot alias is ignored and sets ACCERR; the log's kind is open (R630, R638). -/
def Tx.aliasWrite (t : Tx) (b : Blk) (mid a : Nat) : Tx :=
  let (k, t) := t.pick 3
  t.accError b (k + 1) mid a true

/-- A software write of 32 bits by `mid` to the register at `a`: it reaches the register and does `f`,
or it meets a decode error, an access error or a master not permitted. -/
def Tx.swWrite (t : Tx) (mid a : Nat) (f : Tx → Tx) : Tx :=
  match t.meets mid a 4 with
  | .decode => t.decodeError mid a true
  | .held => t
  | .bad b k => t.accError b k mid a true
  | .snapAlias b _ => t.aliasWrite b mid a
  | .reg b _ => if mayWrite b mid a then f t else t.accError b 3 mid a true

/-- The lock that freezes the LCK fields of the block that holds `a` (R627). -/
def lockOf (a : Nat) : Option FRef :=
  match (a - hdBase) / 0x1000 with
  | 0x30 => some HD_SHF_GCFG_LOCK
  | 0x60 => some HD_DMAP_CFG_LOCK
  | 0x70 => some HD_MEE_CTL_LOCK
  | 0xA0 => some FW_CTL_LOCK
  | 0x120 => some ALN_CALCTL_LOCK
  | o => if 0x200 ≤ o ∧ o < 0x210 then some MBX_CTL_LOCK else none

/-- The lock of `a` is set. -/
def Tx.lockedAt (t : Tx) (a : Nat) : Bool :=
  match lockOf a with
  | some l => t.is l
  | none => false

/-- What a field of the word `w` becomes when software writes the word `v` (R17). -/
def applyField (locked : Bool) (v w : Nat) (f : Fld) : Nat :=
  match f.acc with
  | .rw | .rwh => putBits w f.hi f.lo (bits v f.hi f.lo)
  | .lck => if locked then w else putBits w f.hi f.lo (bits v f.hi f.lo)
  | .w1c => putBits w f.hi f.lo (bits w f.hi f.lo &&& (bits v f.hi f.lo ^^^ (2 ^ (f.hi + 1 - f.lo) - 1)))
  | .ro | .wo | .cnt => w

/-- Every field of the register at `a` takes the write of `v` under its own class, in one action (R17,
R628). -/
def Tx.applyWrite (t : Tx) (row : RegRow) (a v : Nat) : Tx :=
  t.setWord a (row.flds.foldl (applyField (t.lockedAt a) v) (t.word a))

/-- The same, the row looked up. -/
def Tx.applyAt (t : Tx) (a v : Nat) : Tx :=
  match blockAt a with
  | some b => match b.rowAt a with
    | some row => t.applyWrite row a v
    | none => t
  | none => t

/-- A field restricted to certain masters keeps its value when another writes, and an access error is
recorded only when the write carries another value for it (R640). -/
def Tx.keepRestricted (t : Tx) (mid : Nat) (allowed : Bool) (f : FRef) (v : Nat) (act : Tx → Nat → Tx) : Tx :=
  if allowed then act t v
  else
    let held := t.rd f
    let t' := act t (putBits v f.hi f.lo held)
    if bits v f.hi f.lo = held then t' else t'.accErrorAt 3 mid f.addr

/-- A discarded write of an RWH field: the block's SWLOST sets (R17). -/
def Tx.lostWrite (t : Tx) (a : Nat) : Tx :=
  match blockAt a with
  | some b => match b.swlost with
    | some f => t.set1 f
    | none => t
  | none => t

/-- A snapshot-and-clear of the register at `a`: the counter fields are copied to the alias with the
values they held, and take their cleared values (R630; RMIN clears to 0xFFFF, R163). -/
def Tx.snapReg (t : Tx) (row : RegRow) (a : Nat) : Tx :=
  if row.flds.any (fun f => f.acc == .cnt) then
    let w := t.word a
    let copy := row.flds.foldl (fun x f => if f.acc = .cnt then putBits x f.hi f.lo (bits w f.hi f.lo) else x) 0
    let clear := row.flds.foldl (fun x f => if f.acc = .cnt then putBits x f.hi f.lo f.reset else x) w
    (t.setWord (a + aliasOff) copy).setWord a clear
  else t

/-- The addresses of the registers of a row. -/
def Blk.addrs (b : Blk) (r : RegRow) : List Nat :=
  if r.count ≤ 1 then [b.base + r.off] else (List.range r.count).map fun i => b.base + r.off + i * r.stride

/-- SNAP of a whole block: every counter field, in one atomic action (R630). -/
def Tx.snapBlock (t : Tx) (a : Nat) : Tx :=
  match blockAt a with
  | some b => t.each b.rows fun t r => t.each (b.addrs r) fun t x => t.snapReg r x
  | none => t

/-- SNAP of the registers of block `a` that `sel` selects. -/
def Tx.snapSome (t : Tx) (a : Nat) (sel : Nat → Bool) : Tx :=
  match blockAt a with
  | some b => t.each b.rows fun t r => t.each ((b.addrs r).filter sel) fun t x => t.snapReg r x
  | none => t

/-- The registers between `lo` and `hi` that may differ from their reset values: those listed, and those the command has written. -/
def Tx.listedRegs (t : Tx) (lo hi : Nat) : List Nat :=
  (t.r.map (·.1) ++ t.s.regs.map (·.1)).filter fun k => decide (lo ≤ k) && decide (k < hi)

/-- What the register at `x` of row `r` holds after a reset, lock bits and LCK fields kept when `keepLocks` (R626). -/
def Tx.resetTo (t : Tx) (r : RegRow) (x : Nat) (keepLocks : Bool) : Nat :=
  let w := t.word x
  let kept := fun (f : Fld) => keepLocks && (f.acc == .lck ||
    (match lockOf x with
    | some l => l.addr == x && l.lo == f.lo
    | none => false))
  r.flds.foldl (fun y f => if kept f then putBits y f.hi f.lo (bits w f.hi f.lo) else y) (resetNat x)

/-- Every register of the block that holds `a` and its snapshot alias take their reset values (R626). -/
def Tx.resetBlock (t : Tx) (a : Nat) (keepLocks : Bool) : Tx :=
  match blockAt a with
  | some b =>
    let t := t.each (t.listedRegs b.base (b.base + b.span)) fun t x =>
      match b.rowAt x with
      | some r => t.setWord x (t.resetTo r x keepLocks)
      | none => t
    t.each (t.listedRegs (b.base + aliasOff) (b.base + b.span + aliasOff)) fun t x => t.setWord x (resetNat x)
  | none => t

end Sys2Proof.Machine
end

