-- ==== Sys2Proof/Machine/DramMap.lean ====
section
/-! DEFINITION.  The LPDDR5X address map: decode of an address (R266), its place in the devices (R267),
the controller that serves it with sparing and migration (R284, R289), and whether it answers (R269,
R271, R278). -/

namespace Sys2Proof.Machine

/-- Where an access resolves to. -/
inductive Loc where
  /-- bytes kept from this key on -/
  | at (key : Nat)
  /-- a decode error -/
  | decode
  /-- held until the target is ready (R20) -/
  | held
  deriving DecidableEq, Repr

/-- The end of the LPDDR5X range. -/
def dramEnd : Nat := 0x1E00000000

/-- A decoded LPDDR5X address (R266). -/
structure DLoc where
  mc : Nat
  ch : Nat
  rk : Nat
  u : Nat
  line : Nat
  deriving DecidableEq, Repr

/-- `dram_locate` of R266; none is a decode error. -/
def dramLocate (locsz pa : Nat) : Option DLoc :=
  if pa ≥ dramEnd then none
  else
    let gi := (15 - locsz) * 32768
    let lw := locsz * 2 ^ 30
    let line := pa / 64 % 64
    if pa < 8 * lw then
      let w := pa % lw / 4096
      some ⟨pa / lw, w % 4, w / 4 % 2, gi + w / 8, line⟩
    else
      let i := (pa - 8 * lw) / 4096
      let j := i / 8
      some ⟨i % 8, j % 4, j / 4 % 2, j / 8, line⟩

/-- The logical rank-channel. -/
def DLoc.q (l : DLoc) : Nat := 8 * l.mc + 4 * l.rk + l.ch

/-- The lowest address of line `line` of chunk `u` of rank-channel `q`. -/
def dramAddr (locsz q u line : Nat) : Nat :=
  let gi := (15 - locsz) * 32768
  let lw := locsz * 2 ^ 30
  let mc := q / 8
  let k := q % 8
  if u ≥ gi then mc * lw + ((u - gi) * 8 + k) * 4096 + line * 64
  else 8 * lw + ((u * 8 + k) * 8 + mc) * 4096 + line * 64

/-- The line's number within its rank-channel (R267). -/
def DLoc.lineNo (l : DLoc) : Nat := l.u * 64 + l.line
/-- Its bank. -/
def DLoc.bank (l : DLoc) : Nat := l.lineNo % 16
/-- Its row. -/
def DLoc.row (l : DLoc) : Nat := l.lineNo / 16 / 30
/-- Its slot in the row: data at column byte `64 slot`, check bytes at `1920 + 4 slot`. -/
def DLoc.slot (l : DLoc) : Nat := l.lineNo / 16 % 30

/-- The sparing-map field of `q`: bit 3 spared, bits 2:0 the spare (R294). -/
def Tx.rmap (t : Tx) (q : Nat) : Nat := bits (t.word (HD_DMAP_RMAP (q / 8))) (4 * (q % 8) + 3) (4 * (q % 8))

/-- `q` is the rank-channel under migration. -/
def Tx.migrating (t : Tx) (q : Nat) : Bool := t.rd HD_DMAP_MSTAT_STATE ≠ 0 ∧ t.rd HD_DMAP_MSTAT_SRC = q

/-- The spare that serves chunk `u` of `q`, if one does: the target below the chunk pointer, else the
spare of the map (R284, R289). -/
def Tx.spareFor (t : Tx) (q u : Nat) : Option Nat :=
  if t.migrating q ∧ u < t.rd HD_DMAP_MPTR_PTR then some (t.rd HD_DMAP_MSTAT_SPARE)
  else if bit (t.rmap q) 3 then some (t.rmap q % 8)
  else none

/-- The controller that serves a decoded address, and its rank-channel there. -/
def Tx.server (t : Tx) (l : DLoc) : Nat × Nat :=
  match t.spareFor l.q l.u with
  | some s => (8, s)
  | none => (l.mc, 4 * l.rk + l.ch)

/-- An LPDDR5X address, kept at itself whichever devices hold it: held until its controller is READY
(R269); a decode error before the encryption regions are locked, for every master but the steward
(R271), and while its controller is off or in retention (R278). -/
def Tx.dramLoc (t : Tx) (mid pa : Nat) : Loc :=
  match dramLocate (t.rd HD_DMAP_CFG_LOCSZ) pa with
  | none => .decode
  | some l =>
    let m := (t.server l).1
    if !t.is HD_MEE_CTL_LOCK && mid != steward then .decode
    else if t.is (HD_MC_STAT_RETAIN l.mc) || t.is (HD_MC_STAT_RETAIN m) then .decode
    else if !t.powered (domMC m) then .decode
    else if t.is (HD_MC_STAT_READY m) then .at pa
    else .held

end Sys2Proof.Machine
end

