-- ==== Sys2Proof/Machine/Aplic.lean ====
section
/-! DEFINITION.  Interrupts: levels of the sources (R455, R456), the two APLIC domains (R453, R461) and the interrupt files
(R454, R458).  Offsets, bit places and the conditions of pending bits follow the Advanced Interrupt Architecture, which the spec
names (PRESUMED, log entry 60). -/

namespace Sys2Proof.Machine

def Tx.onIrq (t : Tx) (f : Irq → Irq) : Tx := { t with d := { t.d with irq := f t.d.irq } }

/-- A domain: the S level's when `s`. -/
def Irq.dom (q : Irq) (s : Bool) : Apl := if s then q.s else q.m
def Tx.onApl (t : Tx) (s : Bool) (f : Apl → Apl) : Tx := t.onIrq fun q => if s then { q with s := f q.s } else { q with m := f q.m }

/-- A source that R455 lists. -/
def sourceOk (i : Nat) : Bool := decide (1 ≤ i) && decide (i < 192) && !(decide (54 ≤ i) && decide (i < 64))

/-- The number of an interrupt file. -/
def fileKey (s : Bool) (h : Nat) : Nat := if s then 32 + h else h

/-- An identity becomes pending in a file; one that is not 1 to 255 changes nothing (R454). -/
def Tx.fileSet (t : Tx) (s : Bool) (h id : Nat) : Tx :=
  if id = 0 ∨ 255 < id ∨ 24 ≤ h then t
  else t.onIrq fun q => { q with files := q.files.upd (fileKey s h) fun l => if l.contains id then l else (l ++ [id]) }

/-- The domain that owns source `i`, and its mode there: 0 inactive, 1 detached, 4 rising edge, 6 high level. -/
def Irq.mode (q : Irq) (i : Nat) : Bool × Nat :=
  if bit (q.m.cfg.at i) 10 then (true, bits (q.s.cfg.at i) 2 0) else (false, bits (q.m.cfg.at i) 2 0)

/-- An MSI of a domain toward `target` (R453): hart index in 31:18, identity in 10:0.  A hart above 23 gets nothing, and the flag
says so. -/
def Tx.msi (t : Tx) (s : Bool) (target : Nat) : Tx × Bool :=
  if 24 ≤ bits target 31 18 then (t, true) else (t.fileSet s (bits target 31 18) (bits target 10 0), false)

/-- Source `i` is pending and enabled in an enabled domain: its message leaves and its pending bit clears. -/
def Tx.forward1 (t : Tx) (i : Nat) : Tx × Bool :=
  let (s, _) := t.d.irq.mode i
  let a := t.d.irq.dom s
  if a.ie && a.ip.at i && a.en.at i then (t.onApl s fun a => { a with ip := a.ip.put i false }).msi s (a.target.at i) else (t, false)

/-- The level of source `i` changes (R456): a rise makes it pending in an edge or level mode; a fall clears a level. -/
def Tx.level1 (t : Tx) (i : Nat) (b : Bool) : Tx × Bool :=
  let q := t.d.irq
  let was := q.level.at i
  let (s, mode) := q.mode i
  let t := t.onIrq fun q => { q with level := q.level.put i b }
  if b && !was && (mode == 4 || mode == 6) then (t.onApl s fun a => { a with ip := a.ip.put i true }).forward1 i
  else if !b && mode == 6 then (t.onApl s fun a => { a with ip := a.ip.put i false }, false)
  else (t, false)

/-- A refusal sets MSIREF, which raises source 53 (R453, R469); a refusal of that source's own message sets nothing more. -/
def Tx.msiref (x : Tx × Bool) : Tx := if x.2 then ((x.1.set1 IRQ_STAT_MSIREF).level1 53 true).1 else x.1

/-- The level of source `i` at the APLIC. -/
def Tx.setLevel (t : Tx) (i : Nat) (b : Bool) : Tx := if sourceOk i then Tx.msiref (t.level1 i b) else t

/-- Pending enabled source `i` is sent on. -/
def Tx.forward (t : Tx) (i : Nat) : Tx := Tx.msiref (t.forward1 i)

/-- A line rises: at the hub at once; on a compute stack, a change of level leaves as a MSG entry of KIND 2 (R456). -/
def Tx.irq (t : Tx) (i : Nat) : Tx :=
  if i < 128 then t.setLevel i true
  else if t.d.irq.level.at (256 + i) then t
  else (t.onIrq fun q => { q with level := q.level.put (256 + i) true }).send "MSG" "LEVEL" [i, 1]

/-- A line falls. -/
def Tx.irqFall (t : Tx) (i : Nat) : Tx :=
  if i < 128 then t.setLevel i false
  else if t.d.irq.level.at (256 + i) then (t.onIrq fun q => { q with level := q.level.put (256 + i) false }).send "MSG" "LEVEL" [i, 0]
  else t

/-- The levels of a compute die's and its base tile's sources go to 0 at the hub (R456). -/
def Tx.dieLevels (t : Tx) (n : Nat) : Tx :=
  t.each (List.range 16) fun t k =>
    (t.onIrq fun q => { q with level := q.level.put (256 + 128 + 16 * n + k) false }).setLevel (128 + 16 * n + k) false

/-- A write to an interrupt file by a master that may not: a decode error, counted and logged (R458, R469). -/
def Tx.msiRefuse (t : Tx) (mid a : Nat) (s : Bool) (h id : Nat) : Tx :=
  let t := (t.decodeError mid a true).inc IRQ_MSIREFCNT_COUNT
  let t := t.setWord IRQ_MSIREFLOG (id % 256 + 256 * h + (if s then 2 ^ 13 else 0) + mid * 2 ^ 20)
  Tx.msiref (t, true)

/-- A write of `seteipnum` (R454, R458): by a hart or the steward. -/
def Tx.seteipnum (t : Tx) (mid : Nat) (s : Bool) (h v : Nat) : Tx :=
  if isHart mid || mid == steward then t.fileSet s h v
  else t.msiRefuse mid (0x6000400000 + (if s then 0x100000 else 0) + 0x1000 * h) s h v

/-! The registers of a domain. -/

/-- A write of `sourcecfg` (R453, R461): the mode takes effect first, then the level is evaluated under it. -/
def Tx.sourcecfg (t : Tx) (s : Bool) (i v : Nat) : Tx :=
  if !sourceOk i || (s && !bit (t.d.irq.m.cfg.at i) 10) then t
  else
    let m := bits v 2 0
    let keep := if !s ∧ bit v 10 then 0x400 else if m = 1 ∨ m = 4 ∨ m = 6 then m else 0
    let t := t.onApl s fun a => { a with cfg := a.cfg.put i keep }
    let t := if !s ∧ keep = 0x400 then t else if s then t else t.onApl true fun a => { a with cfg := a.cfg.put i 0 }
    let (o, mode) := t.d.irq.mode i
    if mode = 0 then
      (t.onApl false fun a => { a with ip := a.ip.put i false, en := a.en.put i false }).onApl true fun a =>
        { a with ip := a.ip.put i false, en := a.en.put i false }
    else if mode = 6 then
      let high := t.d.irq.level.at i
      (t.onApl o fun a => { a with ip := a.ip.put i high }).forward i
    else t

/-- A pending bit is set by software: in a level mode only while the level is high. -/
def Tx.setip (t : Tx) (s : Bool) (i : Nat) : Tx :=
  let (o, mode) := t.d.irq.mode i
  if o ≠ s ∨ mode = 0 ∨ !sourceOk i ∨ (mode = 6 ∧ !t.d.irq.level.at i) then t
  else (t.onApl s fun a => { a with ip := a.ip.put i true }).forward i
def Tx.clrip (t : Tx) (s : Bool) (i : Nat) : Tx :=
  if (t.d.irq.mode i).1 = s then t.onApl s fun a => { a with ip := a.ip.put i false } else t
def Tx.setie (t : Tx) (s : Bool) (i : Nat) : Tx :=
  let (o, mode) := t.d.irq.mode i
  if o ≠ s ∨ mode = 0 ∨ !sourceOk i then t else (t.onApl s fun a => { a with en := a.en.put i true }).forward i
def Tx.clrie (t : Tx) (s : Bool) (i : Nat) : Tx :=
  if (t.d.irq.mode i).1 = s then t.onApl s fun a => { a with en := a.en.put i false } else t

/-- The set bits of a word of a bit array. -/
def wordBits (k v : Nat) : List Nat := ((List.range 32).filter (bit v)).map (32 * k + ·)

/-- A write of `genmsi` (R453). -/
def Tx.genmsi (t : Tx) (s : Bool) (v : Nat) : Tx := Tx.msiref ((t.onApl s fun a => { a with genmsi := v &&& 0xFFFC07FF }).msi s v)

/-- A write at offset `o` of a domain. -/
def Tx.aplWrite (t : Tx) (s : Bool) (o v : Nat) : Tx :=
  let inRange (lo n : Nat) : Bool := decide (lo ≤ o) && decide (o < lo + 4 * n)
  if o = 0 then t.each (List.range 192) fun t i => (if i = 0 then t.onApl s fun a => { a with ie := bit v 8 } else if (t.d.irq.mode i).1 = s then t.forward i else t)
  else if o < 0x1000 then t.sourcecfg s (o / 4) v
  else if inRange 0x1C00 32 then t.each (wordBits ((o - 0x1C00) / 4) v) fun t i => t.setip s i
  else if o = 0x1CDC ∨ o = 0x2000 then t.setip s v
  else if o = 0x2004 then t.setip s (v / 2 ^ 24 + v / 2 ^ 16 % 256 * 2 ^ 8 + v / 2 ^ 8 % 256 * 2 ^ 16 + v % 256 * 2 ^ 24)
  else if inRange 0x1D00 32 then t.each (wordBits ((o - 0x1D00) / 4) v) fun t i => t.clrip s i
  else if o = 0x1DDC then t.clrip s v
  else if inRange 0x1E00 32 then t.each (wordBits ((o - 0x1E00) / 4) v) fun t i => t.setie s i
  else if o = 0x1EDC then t.setie s v
  else if inRange 0x1F00 32 then t.each (wordBits ((o - 0x1F00) / 4) v) fun t i => t.clrie s i
  else if o = 0x1FDC then t.clrie s v
  else if o = 0x3000 then t.genmsi s v
  else if inRange 0x3004 1023 then
    let i := (o - 0x3000) / 4
    if sourceOk i && (t.d.irq.mode i).1 == s && (t.d.irq.mode i).2 != 0 then t.onApl s fun a => { a with target := a.target.put i (v &&& 0xFFFC07FF) } else t
  else t

/-- A read at offset `o` of a domain; sources 256 to 1023 read as 0 (R453). -/
def Tx.aplRead (t : Tx) (s : Bool) (o : Nat) : Nat :=
  let a := t.d.irq.dom s
  let word (f : Nat → Bool) (lo : Nat) : Nat := (List.range 32).foldl (fun w k => if f (8 * (o - lo) + k) then w + 2 ^ k else w) 0
  let inRange (lo n : Nat) : Bool := decide (lo ≤ o) && decide (o < lo + 4 * n)
  if o = 0 then 0x80000004 + (if a.ie then 256 else 0)
  else if o < 0x1000 then a.cfg.at (o / 4)
  else if inRange 0x1C00 32 then word a.ip.at 0x1C00
  else if inRange 0x1D00 32 then word (fun i => t.d.irq.level.at i && decide (i < 256) && (t.d.irq.mode i).1 == s && (t.d.irq.mode i).2 != 0) 0x1D00
  else if inRange 0x1E00 32 then word a.en.at 0x1E00
  else if o = 0x3000 then a.genmsi
  else if inRange 0x3004 1023 then a.target.at ((o - 0x3000) / 4)
  else 0

end Sys2Proof.Machine
end

