-- ==== Sys2Proof/Machine/MbxCore.lean ====
section
/-! DEFINITION.  Mailbox channels (R446 to R452, R464 to R467): posts, pops, notices, and the steward's own use of them. -/

namespace Sys2Proof.Machine

def Tx.onMbx (t : Tx) (ch : Nat) (f : MbxChan → MbxChan) : Tx := { t with d := { t.d with mbx := t.d.mbx.upd ch f } }

/-- The registers of a channel follow its slots; the head reads 0 while it is empty (R448). -/
def Tx.mbxShow (t : Tx) (ch : Nat) : Tx :=
  let c := t.d.mbx.at ch
  let (ptr, tag) := c.slots.headD (0, 0)
  ((((t.wr (MBX_CST_OCC ch) c.slots.length).wr (MBX_CST_HELD ch) (if c.held.isSome then 1 else 0)).setWord (MBX_RPTR_LO ch) ptr).setWord
    (MBX_RPTR_HI ch) (ptr / 2 ^ 32)).setWord (MBX_RTAG ch) tag

/-- A notice goes to its target (R447). -/
def Tx.mbxNotify (t : Tx) (ch w : Nat) : Tx :=
  let idx := bits w 28 24
  let id := bits w 7 0
  match bits w 31 29 with
  | 1 => t.fileSet false idx id
  | 2 => t.fileSet true idx id
  | 3 => t.send "MSG" "EVENT" [1, idx % 4, id % 16]
  | 4 => t.send "STEWARD" "MAILBOX" [ch]
  | _ => t

/-- A refused access of a channel (R449, R465). -/
def Tx.mbxIdErr (t : Tx) (mid ch ofs : Nat) : Tx :=
  let t := (t.set1 MBX_STAT_IDERR).inc MBX_IDERRCNT_COUNT
  (((t.wr MBX_ELOG_MID mid).wr MBX_ELOG_CH ch).wr MBX_ELOG_OFS ofs).irq 51

/-- Master `mid` may post to the channel; it may take from it. -/
def Tx.mbxSends (t : Tx) (mid ch : Nat) : Bool := t.is (MBX_CHTAB0_EN ch) && t.rd (MBX_CHTAB0_SMID ch) == mid
def Tx.mbxTakes (t : Tx) (mid ch : Nat) : Bool := t.is (MBX_CHTAB0_EN ch) && t.rd (MBX_CHTAB0_RMID ch) == mid

/-- A message enters the next free slot, and the receiver is told (R448). -/
def Tx.mbxEnter (t : Tx) (ch tag : Nat) : Tx :=
  let t := t.onMbx ch fun c => { c with slots := c.slots ++ [(t.pair (MBX_SPTR_LO ch), tag)] }
  ((t.wr (MBX_CNT_POSTS ch) (t.rd (MBX_CNT_POSTS ch) + 1)).mbxNotify ch (t.word (MBX_CHTAB1 ch))).mbxShow ch

/-- A write of MBX_STAG (R448, R449): held while the channel is full. -/
def Tx.mbxPost (t : Tx) (mid ch tag : Nat) : Tx :=
  if !t.mbxSends mid ch then t.mbxIdErr mid ch 2
  else if (t.d.mbx.at ch).slots.length < 4 then t.mbxEnter ch tag
  else (t.onMbx ch fun c => { c with held := some (c.held.getD tag) }).mbxShow ch

/-- A write of MBX_RPOP (R448, R451): the head is taken; a held post takes its slot in the same cycle, else an emptied channel's
sender is told. -/
def Tx.mbxPop (t : Tx) (mid ch v : Nat) : Tx :=
  if !t.mbxTakes mid ch then t.mbxIdErr mid ch 7
  else if v % 2 = 0 then t
  else
    let c := t.d.mbx.at ch
    match c.slots with
    | [] => t.set1 MBX_STAT_CMDREF
    | _ :: rest =>
      let t := (t.onMbx ch fun c => { c with slots := rest, held := none }).wr (MBX_CNT_POPS ch) (t.rd (MBX_CNT_POPS ch) + 1)
      match c.held with
      | some tag => t.mbxEnter ch tag
      | none => (if rest.isEmpty then t.mbxNotify ch (t.word (MBX_CHTAB2 ch)) else t).mbxShow ch

def execMbxStag (mid : Mid) (ch : Chan) (tag : Word) (s : State) : Host.Outcome State Fault Refusal :=
  s.does fun t => t.swWrite mid.toNat (MBX_STAG ch) (·.mbxPost mid.toNat ch tag.toNat)

def execMbxRpop (mid : Mid) (ch : Chan) (value : Word) (s : State) : Host.Outcome State Fault Refusal :=
  s.does fun t => t.swWrite mid.toNat (MBX_RPOP ch) (·.mbxPop mid.toNat ch value.toNat)

/-- The steward posts a message; without the hub's fabric there is no channel. -/
def Tx.stewardPost (t : Tx) (ch ptr tag : Nat) : Tx :=
  if !t.powered domFAB then t
  else if !t.mbxSends steward ch then t.mbxIdErr steward ch 2 else (t.setPair (MBX_SPTR_LO ch) ptr).mbxPost steward ch tag

/-- The message at the head of a channel, when the steward is its receiver. -/
def Tx.stewardHead (t : Tx) (ch : Nat) : Option (Nat × Nat) :=
  if t.powered domFAB && t.mbxTakes steward ch then (t.d.mbx.at ch).slots.head? else none

/-- A field of the module configuration in force (R568). -/
def Tx.cfgFld (t : Tx) (o n : Nat) : Nat := fld (t.d.sec.cfg.getD []) o n

/-- The steward relays an event on the channel that the module configuration names (R530, R617): the message's form is open. -/
def Tx.stewardRelay (t : Tx) : Tx :=
  if t.d.sec.cfg.isNone || !t.powered domSTW then t
  else
    let (p, t) := t.fresh 48
    let (g, t) := t.fresh 32
    t.stewardPost (t.cfgFld 0x1C 1) p g

end Sys2Proof.Machine
end

