-- ==== Sys2Proof/Machine/Phys.lean ====
section
/-! DEFINITION.  Physical memory as requesters reach it: where an address resolves to (R236, R237, R246,
R266, R619), whether it answers (R238, R247), and reads and writes of runs of bytes with poison (R239).
Bytes of the Shelf are kept at their home-window address, whichever pool the group is in. -/

namespace Sys2Proof.Machine

/-! The ranges of R619. -/
def poolBase : Nat := 0x4000000000
def poolEnd : Nat := 0x4030000000
def homeBase : Nat := 0x4100000000
def homeEnd : Nat := 0x4140000000
def scrBase : Nat := 0x5000000000
def scrEnd : Nat := 0x5002000000
def mramBase : Nat := 0x6040000000
def mramEnd : Nat := 0x6041000000
def norBase : Nat := 0x6044000000
def norEnd : Nat := 0x604C000000
def pcieBase : Nat := 0x7000000000
def pcieEnd : Nat := 0x8000000000

/-- Where the staging SRAM of compute die `d` is kept: byte `a` at `stagingKey d + a`. -/
def stagingKey (d : Nat) : Nat := 2 ^ 52 + d * 2 ^ 32

/-- The slots of the interleaved groups in ascending order of `4 g + n` (R236). -/
def intlSlots (intl : Nat) : List Nat :=
  (List.range 12).filter fun s => bit intl (3 * (s % 4) + s / 4)

/-- `intl_locate` of R236: tile, group and offset within the group. -/
def intlLocate (intl pa : Nat) : Option (Nat × Nat × Nat) :=
  let list := intlSlots intl
  let ni := list.length
  let off := pa - poolBase
  if off ≥ ni * 0x4000000 then none
  else
    let i := off / 4096
    let slot := list.getD (i % ni) 0
    some (slot % 4, slot / 4, i / ni * 4096 + off % 4096)

/-- Where a byte of a Shelf group is kept. -/
def shelfKey (tile group goff : Nat) : Nat := homeBase + tile * 0x10000000 + group * 0x4000000 + goff

/-- A Shelf group answers once powered and initialised; powered alone it holds accesses (R238). -/
def Tx.shelfLoc (t : Tx) (tile group goff : Nat) : Loc :=
  if !t.powered (domSH tile group) then .decode
  else if bit (t.rd HD_SHF_STAT_READY) (3 * tile + group) then .at (shelfKey tile group goff)
  else .held

/-- The scratch partition (R246, R247). -/
def Tx.scratchLoc (t : Tx) (pa : Nat) : Loc :=
  let way := (pa - scrBase) / 0x400000
  if way < t.rd HD_SC_STAT_SCRACT then .at pa
  else if t.is HD_SC_STAT_CONV ∧ way < t.rd HD_SC_CTL_SCRWAYS then .held
  else .decode

/-- The carrier devices: MRAM for the steward and debug, NOR read only (R622). -/
def carrierLoc (mid pa : Nat) (write : Bool) : Loc :=
  if mid ≠ steward ∧ mid ≠ debugMid then .decode
  else if mramBase ≤ pa ∧ pa < mramEnd then .at pa
  else if norBase ≤ pa ∧ pa < norEnd ∧ write = false then .at pa
  else .decode

/-- The address lies in a PCIe window (R623): the device behind it answers, and what it returns is open. -/
def inPcie (pa : Nat) : Bool := decide (pcieBase ≤ pa) && decide (pa < pcieEnd)

/-- Where an access by `mid` to `pa` resolves to (R619). -/
def Tx.locate (t : Tx) (mid pa : Nat) (write : Bool) : Loc :=
  if pa < dramEnd then t.dramLoc mid pa
  else if poolBase ≤ pa ∧ pa < poolEnd then
    match intlLocate (t.rd HD_SHF_GCFG_INTL) pa with
    | some (n, g, o) => t.shelfLoc n g o
    | none => .decode
  else if homeBase ≤ pa ∧ pa < homeEnd then
    let n := (pa - homeBase) / 0x10000000
    let o := (pa - homeBase) % 0x10000000
    let g := o / 0x4000000
    if g = 3 ∨ bit (t.rd HD_SHF_GCFG_INTL) (3 * n + g) then .decode
    else t.shelfLoc n g (o % 0x4000000)
  else if scrBase ≤ pa ∧ pa < scrEnd then t.scratchLoc pa
  else carrierLoc mid pa write

/-- The answer to a read or a write. -/
inductive Ans (α : Type) where
  | ok (v : α)
  | decode (pa : Nat)
  | poison (pa : Nat)
  | held

/-- The runs of at most 64 bytes, none across a 64-byte line, that `n` bytes from `a` on fall into. -/
def lineRuns (a n : Nat) : List (Nat × Nat) :=
  (List.range (if n = 0 then 0 else (a + n - 1) / 64 - a / 64 + 1)).map fun i =>
    let lo := max a ((a / 64 + i) * 64)
    let hi := min (a + n) ((a / 64 + i + 1) * 64)
    (lo, hi - lo)

/-- The line at key `k` is poisoned. -/
def Tx.poisoned (t : Tx) (k : Nat) : Bool := t.d.poison.contains (k / 64)

/-- The line at key `k` becomes poisoned. -/
def Tx.setPoison (t : Tx) (k : Nat) : Tx :=
  if t.poisoned k then t else { t with d := { t.d with poison := (k / 64) :: t.d.poison } }

/-- The line at key `k` is no longer poisoned. -/
def Tx.clearPoison (t : Tx) (k : Nat) : Tx :=
  { t with d := { t.d with poison := t.d.poison.filter (· != k / 64) } }

/-- Bytes within one line, at key `k`: a full line replaces poison, a shorter write leaves it (R239); a reservation of the line is
lost. -/
def Tx.storeRun (t : Tx) (k : Nat) (bs : List Byte) : Tx :=
  let t := t.wrBytes k bs
  let t := if t.d.harts.any (fun h => h.2.resv == some (k / 64)) then
      { t with d := { t.d with harts := t.d.harts.map fun h => if h.2.resv = some (k / 64) then (h.1, { h.2 with resv := none }) else h } }
    else t
  if bs.length = 64 then t.clearPoison k else t

/-! The harts' caches over the Shelf (R438, R439): one coherent view, snooped by every hub master, not by the compute dies. -/

/-- Master `mid` is an engine of a compute die. -/
def dieMaster (mid : Nat) : Bool := decide (0x200 ≤ mid) && decide (mid < 0x600)

/-- The cached copy of the line at key `k`, when `k` lies in the Shelf. -/
def Tx.cached (t : Tx) (k : Nat) : Option CLine :=
  if homeBase ≤ k ∧ k < homeEnd then t.d.cache.find? fun c => c.line == k / 64 else none

/-- The bytes at key `k` as master `mid` reads them. -/
def Tx.snoopRead (t : Tx) (mid k n : Nat) : List Byte :=
  match (if dieMaster mid then none else t.cached k) with
  | some c => (c.bytes.drop (k % 64)).take n
  | none => t.rdBytes k n

/-- The line at key `k` leaves the caches, its bytes written back if it is dirty. -/
def Tx.cacheOut (t : Tx) (k : Nat) : Tx :=
  match t.cached k with
  | some c =>
    let t := if c.dirty then (t.wrBytes (k / 64 * 64) c.bytes).clearPoison k else t
    { t with d := { t.d with cache := t.d.cache.filter fun x => x.line != c.line } }
  | none => t

/-! Mirroring of accepted writes (R474 to R476). -/

/-- Bytes in the mirror queue, entry headers counted. -/
def Tx.mirrorBytes (t : Tx) : Nat := t.d.hws.queue.foldl (fun n e => n + 16 + e.bytes.length) 0

/-- The address lies in an enabled window of this direction. -/
def Tx.inWindow (t : Tx) (pa : Nat) (tx : Bool) : Bool :=
  (List.range 16).any fun w => t.is (HWS_WCFG_EN w) && (if tx then t.is (HWS_WCFG_TX w) else t.is (HWS_WCFG_RX w)) &&
    decide (t.rd (HWS_WBASE_ADDR w) ≤ pa / 4096) && decide (pa / 4096 ≤ t.rd (HWS_WLIM_ADDR w))

/-- A write by `mid` at `pa` is copied to the partner. -/
def Tx.mirrors (t : Tx) (mid pa : Nat) : Bool :=
  t.is HWS_CTL_EN && t.is HWS_STAT_MIRON && !(decide (0x800 ≤ mid) && decide (mid < 0x900)) && decide (pa < dramEnd) && t.inWindow pa true

/-- The audit shows the queue's occupancy. -/
def Tx.mirrorShow (t : Tx) : Tx := t.wr HWS_MAUD_QKIB (min 2048 (ceilDiv t.mirrorBytes 1024))

/-- Bytes written at `pa` enter the mirror queue: full lines in a row join one entry of up to 4 KiB. -/
def Tx.mirrorPut (t : Tx) (pa : Nat) (bs : List Byte) : Tx :=
  let h := t.d.hws
  let new : MirEnt := ⟨h.txSeq, pa, bs⟩
  let add : Hws := { h with queue := h.queue ++ [new], txSeq := (h.txSeq + 1) % 2 ^ 48 }
  let h := match h.queue.getLast? with
    | some e =>
      if e.pa + e.bytes.length = pa ∧ e.pa % 64 = 0 ∧ pa % 64 = 0 ∧ bs.length = 64 ∧ e.bytes.length + 64 ≤ 4096 then
        { h with queue := h.queue.dropLast ++ [{ e with bytes := e.bytes ++ bs }] }
      else add
    | none => add
  let t := { t with d := { t.d with hws := h } }
  t.mirrorShow

/-- A read of `n` bytes by `mid` at physical address `pa`. -/
def Tx.physRead (t : Tx) (mid pa n : Nat) : Ans (List Byte) :=
  (lineRuns pa n).foldl (fun acc (a, k) =>
    match acc with
    | .ok bs =>
      if inPcie a then .ok (bs ++ (List.range k).map fun i => BitVec.ofNat 8 (Config.pcieByte t.d.free (a + i)))
      else match t.locate mid a false with
      | .at key =>
        if t.poisoned key && (dieMaster mid || (t.cached key).isNone) then .poison a else .ok (bs ++ t.snoopRead mid key k)
      | .decode => .decode a
      | .held => .held
    | e => e) (.ok [])

/-- A write of `bs` by `mid` at physical address `pa`: the runs before the first that does not resolve
are written. -/
def Tx.physWrite (t : Tx) (mid pa : Nat) (bs : List Byte) : Tx × Ans Unit :=
  (lineRuns pa bs.length).foldl (fun (t, acc) (a, k) =>
    match acc with
    | .ok () =>
      if inPcie a then (t.send "PCIE" "WRITE" (a :: ((bs.drop (a - pa)).take k).map (·.toNat)), .ok ())
      else match t.locate mid a true with
      | .at key =>
        let run := (bs.drop (a - pa)).take k
        if t.mirrors mid a then
          if 2 ^ 21 < t.mirrorBytes + 16 + k then (t, .held) else ((t.storeRun key run).mirrorPut a run, .ok ())
        else ((if dieMaster mid then t else t.cacheOut key).storeRun key run, .ok ())
      | .decode => (t, .decode a)
      | .held => (t, .held)
    | e => (t, e)) (t, .ok ())

/-- A little-endian number read at a physical address. -/
def Tx.physLE (t : Tx) (mid pa n : Nat) : Option Nat :=
  match t.physRead mid pa n with
  | .ok bs => some (leNat bs)
  | _ => none

/-- Every kept byte from key `lo` to below `hi` becomes zero, and no line there stays poisoned. -/
def Tx.clearKeys (t : Tx) (lo hi : Nat) : Tx :=
  let ks := (t.m.map (·.1) ++ t.s.mem.map (·.1)).filter fun k => decide (lo ≤ k) && decide (k < hi)
  let t := t.each ks fun t k => t.wb k 0#8
  { t with d := { t.d with poison := t.d.poison.filter fun l => l * 64 < lo || hi ≤ l * 64 } }

/-- Lines of the LPDDR5X range served by the system cache: which hit is open (R245, R248). -/
def Tx.scCount (t : Tx) (lines : Nat) : Tx :=
  let (h, t) := t.pick (lines + 1)
  (t.incPair HD_SC_HIT_LO h).incPair HD_SC_MISS_LO (lines - h)

/-- A corrected line is counted for the steward's daily check (R552): Shelf group `k`, or rank-channel `k - 16`. -/
def Tx.ceCount (t : Tx) (k : Nat) : Tx := { t with d := { t.d with tst := { t.d.tst with ce := t.d.tst.ce.upd k (· + 1) } } }

/-! What blocks tell one another. -/

/-- An entry as the steward completes it (R553): SEQ, BOOT and the CRC. -/
def Log.complete (l : Log) (e : List Byte) : List Byte :=
  let b := e.take 8 ++ leBytes 4 l.seq ++ leBytes 2 l.boot ++ (e.drop 14).take 14
  b ++ leBytes 4 (crc32c b)

/-- SEV of an entry: 0 INFO, 1 NOTICE, 2 WARN, 3 FAULT. -/
def entrySev (e : List Byte) : Nat := (e.getD 15 0).toNat

/-- Identity word `w` of item `i` of ID_VALID is latched in the register at `a` (R634, R635). -/
def Tx.latchId (t : Tx) (i a w : Nat) : Tx := (t.setWord a w).wr ID_VALID_VALID (t.rd ID_VALID_VALID ||| 2 ^ i)

/-- The list without the last of its members that meets `p`. -/
def dropLast {α : Type} (p : α → Bool) (xs : List α) : List α := (xs.reverse.eraseP p).reverse

/-- An entry arrives at the steward's buffer of 2,048 (R555). -/
def Log.takes (l : Log) (now : Nat) (e : List Byte) : Log :=
  let b := l.complete e
  let put (l : Log) (buf : List (List Byte)) : Log := { l with
    buf := buf ++ [b], seq := (l.seq + 1) % 2 ^ 32, since := if l.buf.isEmpty then now else l.since, sev := max l.sev (entrySev e) }
  if l.buf.length < 2048 then put l l.buf
  else if entrySev e = 0 ∨ !l.buf.any (fun x => entrySev x == 0) then { l with lost := l.lost + 1 }
  else { put l (dropLast (fun x => entrySev x == 0) l.buf) with lost := l.lost + 1 }

/-- An entry reaches the steward's log: its fields up to ARG1 are given. -/
def Tx.logBytes (t : Tx) (e : List Byte) : Tx := { t with d := { t.d with log := t.d.log.takes t.now e } }

/-- An entry of the module: SOURCE, SEV, CODE, UNIT, ARG0 and ARG1. -/
def Tx.logEntry (t : Tx) (source sev code unit a0 a1 : Nat) : Tx :=
  t.logBytes (leBytes 8 t.now ++ leBytes 6 0 ++ leBytes 1 source ++ leBytes 1 sev ++ leBytes 2 code ++ leBytes 2 unit ++ leBytes 4 a0 ++
    leBytes 4 a1 ++ leBytes 4 0)

/-- An event of hub hardware for the log (R553, R554): its class where the spec gives one; the rest of CODE, and SEV, are open. -/
def Tx.event (t : Tx) (kind : String) (data : List Nat) : Tx :=
  let cls : Option Nat := match kind with
    | "CONNECTION_LOST" | "LINK_CHANGE" => some 6
    | "DRAM_CMDERR" | "DRAM_UE" | "SHELF_UE" => some 5
    | "POWER" => some 4
    | _ => none
  let (c, t) := t.fresh 8
  let (d, t) := t.fresh 8
  let (v, t) := t.pick 4
  t.logEntry 1 v (256 * cls.getD c + d) (data.getD 0 0) (data.getD 1 0) (data.getD 2 0)

/-- A sticky of HD_PBA, HD_THM or HD_HUP sets: when it is new, the steward logs it under class 0x04 (the number of the block, and SEV, are open)
and relays it (R530, R554). -/
def Tx.pwrSticky (t : Tx) (f : FRef) : Tx :=
  if t.is f then t
  else
    let t := t.set1 f
    let (v, t) := t.pick 4
    let (u, t) := t.fresh 16
    (t.logEntry 1 v (0x400 + f.lo) u (t.word f.addr) 0).stewardRelay

/-- A frame to Cleat `c` (R403): LSEQ counts the frames of the port. -/
def Tx.cleatFrame (t : Tx) (c : Nat) (kind : String) (payload : List Byte) : Tx :=
  let n := t.d.clp.txSeq.at c
  let t := t.send (if c = 0 then "CLEAT-A" else "CLEAT-B") kind (n :: payload.map (·.toNat))
  { t with d := { t.d with clp := { t.d.clp with txSeq := t.d.clp.txSeq.put c ((n + 1) % 2 ^ 32) } } }
/-- A frame to both Cleats. -/
def Tx.cleatFrames (t : Tx) (kind : String) (payload : List Byte) : Tx := (t.cleatFrame 0 kind payload).cleatFrame 1 kind payload
/-- A notice to both Cleats: its unit and up to two arguments (R404, R418). -/
def Tx.notice (t : Tx) (kind : Nat) (data : List Nat) : Tx :=
  let n := (t.d.clp.ncount.at kind + 1) % 2 ^ 32
  let t := { t with d := { t.d with clp := { t.d.clp with ncount := t.d.clp.ncount.put kind n } } }
  t.cleatFrames "NOTICE" (leBytes 2 kind ++ leBytes 2 (data.getD 0 0) ++ leBytes 4 n ++ leBytes 8 t.now ++
    leBytes 8 (data.getD 1 0) ++ leBytes 8 (data.getD 2 0))
/-- This module's identity (R471). -/
def modid : Nat := Config.modid % 2
/-- The payload of a pair frame: its prefix and its body (R480). -/
def pairPayload (rectype origin : Nat) (body : List Byte) : List Byte := leBytes 1 rectype ++ leBytes 1 origin ++ leBytes 6 0 ++ body
/-- The Hawser runs and a port is up (R470). -/
def Tx.hawserUp (t : Tx) : Bool := t.is HWS_CTL_EN && (t.is HWS_STAT_UP0 || t.is HWS_STAT_UP1)
/-- A pair frame to the partner hub, when the Hawser is up (R480). -/
def Tx.pairPartner (t : Tx) (rectype : Nat) (body : List Byte) : Tx :=
  if t.hawserUp then t.send "HAWSER" "PAIR" ((pairPayload rectype modid body).map (·.toNat)) else t
end Sys2Proof.Machine
end

