-- ==== Sys2Proof/Machine/Persist.lean ====
section
/-! DEFINITION.  Persistent stores: MRAM batches and their energy check (R527), the repair map (R545,
R546), and the migration journal's mirror (R287). -/

namespace Sys2Proof.Machine

/-- A batch waits to be written. -/
def Tx.batch (t : Tx) (cls off : Nat) (bytes : List Byte) : Tx :=
  { t with d := { t.d with batches := t.d.batches ++ [⟨cls, off, bytes⟩] } }

/-- The batch to serve next: the first class that waits, its oldest first (R527). -/
def nextBatch (bs : List Batch) : Option Batch :=
  (List.range 4).findSome? fun c => bs.find? (·.cls == c)

/-- The energy check for `n` bytes: with 3 J kept back, E_avail covers
`P_1 (20 µs + 16 ns n + 50 µs)`; E_avail in mJ, P_1 in units of 0.1 W (R527). -/
def energyOk (eavail p1 n : Nat) : Bool :=
  decide (3000 ≤ eavail) && decide (p1 * (70000 + 16 * n) ≤ (eavail - 3000) * 10 ^ 7)

/-! The repair map. -/

/-- Word `i` of the map's image after its header (R545). -/
def Repair.word (r : Repair) (i : Nat) : Nat :=
  let b := i * 4
  if b < 0x40 then 0
  else if b < 0x50 then r.die.at ((b - 0x40) / 4)
  else if b < 0x118 then r.bad.at ((b - 0x50) / 4)
  else if b < 0x138 then r.rmap.at ((b - 0x118) / 4)
  else if b = 0x138 then r.spbad
  else if b = 0x13C then r.gexcl
  else if b < 0x170 then
    let (rows, cols) := r.shelf.at ((b - 0x140) / 4)
    rows.length + cols.length * 2 ^ 16
  else if b < 0x400 then 0
  else
    let (rows, cols) := r.shelf.at ((b - 0x400) / 8192)
    (rows ++ cols).getD ((b - 0x400) % 8192 / 4) 0

/-- The image of a copy with sequence `seq`: 99,328 bytes (R545). -/
def Repair.image (r : Repair) (seq : Nat) : List Byte :=
  let head (crc : Nat) := [0x524D4150, 1, seq, 0x18400, 0, 0, 0, 0, 0, 0, 0, 0, 0, 0, 0, crc]
  let body := (List.range 24816).map fun i => r.word (i + 16)
  let bytes (ws : List Nat) := ws.flatMap (leBytes 4)
  bytes (head (crc32c (bytes (head 0 ++ body))) ++ body)

/-- A change of the repair map. -/
def Tx.onRepair (t : Tx) (f : Repair → Repair) : Tx := { t with d := { t.d with repair := f t.d.repair } }

/-- A write of the whole older copy begins when repairs wait and no write is under way: 25 batches of at
most 4 KiB, the one with the header last (R546). -/
def Tx.repairWrite (t : Tx) : Tx :=
  let r := t.d.repair
  if r.writing.isSome ∨ r.made = r.done then t
  else
    let copy := 1 - r.copy
    let img := r.image (r.seq + 1)
    let piece (i : Nat) := (img.drop (i * 4096)).take 4096
    let t := t.each (((List.range 25).drop 1) ++ [0]) fun t i => t.batch 0 (copy * 0x40000 + i * 4096) (piece i)
    t.onRepair fun r => { r with writing := some r.made }

/-- A repair is recorded in the map, goes into the next write (R546) and is logged (class 0x02 of R554, SEV open). -/
def Tx.repair (t : Tx) (detail unit value : Nat) (f : Repair → Repair) : Tx :=
  let t := (t.onRepair fun r => { f r with made := r.made + 1 }).repairWrite
  let (v, t) := t.pick 4
  t.logEntry 0 v (0x200 + detail) unit value 0

/-! The migration journal. -/

/-- The journal record as it now stands, under mirror sequence `seq` (R287). -/
def Tx.journal (t : Tx) (seq : Nat) : List Byte :=
  let g := t.d.mig
  let body := leBytes 2 1 ++ leBytes 1 (t.rd HD_DMAP_MSTAT_STATE) ++ leBytes 1 (t.rd HD_DMAP_MSTAT_SRC)
    ++ leBytes 1 (t.rd HD_DMAP_MSTAT_SPARE + (if g.second then 8 else 0)) ++ leBytes 3 0
    ++ leBytes 4 (t.rd HD_DMAP_MPTR_PTR) ++ leBytes 4 seq ++ leBytes 8 (t.pair HD_DMAP_PEND_LO) ++ leBytes 4 0
  body ++ leBytes 4 (crc32c body)

/-- A mirror write of the journal is asked for; the two slots are written alternately (R287). -/
def Tx.mirrorJournal (t : Tx) : Tx :=
  let seq := (t.d.mig.seq + 1) % 2 ^ 32
  let t := t.batch 1 (0x80000 + seq % 2 * 32) (t.journal seq)
  { t with d := { t.d with mig := { t.d.mig with seq := seq } } }

/-- MRAM_BATCH (R527): the next batch starts if the energy check passes; otherwise it completes as
deferred-energy, is counted, and waits for its retry. -/
def execMramBatch (s : State) : Host.Outcome State Fault Refusal :=
  s.does fun t =>
    match t.d.batch, nextBatch t.d.batches with
    | none, some b =>
      if energyOk (t.rd HUP_E_EAVAIL) (t.rd HUP_P_PMAX1) b.bytes.length then
        { t with d := { t.d with batch := some b, batches := t.d.batches.erase b } }
      else ((t.inc HUP_CNT_DEFERS).pwrSticky HUP_STAT_DEFER).when (b.cls == 1) (·.inc HD_DMAP_JDEF_JDEF)
    | _, _ => t

/-- A batch's bytes are in the MRAM: a journal mirror shows its sequence (R294), and the header of a repair
map copy completes the recording (R546). -/
def Tx.batchDone (t : Tx) (b : Batch) : Tx :=
  let t := { t with d := { t.d with batch := none } }
  let t := t.wrBytes (mramBase + b.off) b.bytes
  let t := t.when (b.cls == 1) (·.wr HD_DMAP_JSEQ_SEQ (leNat ((b.bytes.drop 12).take 4)))
  if b.cls = 0 ∧ b.off % 0x40000 = 0 then
    (t.onRepair fun r => { r with seq := r.seq + 1, copy := b.off / 0x40000, done := r.writing.getD r.done, writing := none }).repairWrite
  else t

/-- MRAM_BATCH_DONE (R527): the batch that started completes. -/
def execMramBatchDone (s : State) : Host.Outcome State Fault Refusal :=
  s.does fun t =>
    match t.d.batch with
    | some b => t.batchDone b
    | none => t

end Sys2Proof.Machine
end

