-- ==== Sys2Proof/Machine/Dram.lean ====
section
/-! DEFINITION.  The LPDDR5X controllers and rank-channel sparing: queue and issue (R273, R274), inline
ECC (R268), refresh (R276), self-refresh (R277), initialisation and scrub (R269), migration (R283 to
R288).  A line's data are kept at its physical address whichever devices hold them. -/

namespace Sys2Proof.Machine

/-- A change of controller `m`'s own state. -/
def Tx.onMc (t : Tx) (m : Nat) (f : Mc → Mc) : Tx := { t with d := { t.d with mc := t.d.mc.upd m f } }

/-- The controller is ready and neither in self-refresh nor in retention. -/
def Tx.mcRuns (t : Tx) (m : Nat) : Bool :=
  t.powered (domMC m) && t.is (HD_MC_STAT_READY m) && !t.is (HD_MC_STAT_SR m) && !t.is (HD_MC_STAT_RETAIN m)

/-- The refresh debt of rank-channel `k` (R276). -/
def Tx.debt (t : Tx) (m k : Nat) : Nat := bits (t.word (HD_MC_REFAUD m)) (4 * k + 3) (4 * k)
/-- The debt becomes `v`. -/
def Tx.setDebt (t : Tx) (m k v : Nat) : Tx :=
  t.setWord (HD_MC_REFAUD m) (putBits (t.word (HD_MC_REFAUD m)) (4 * k + 3) (4 * k) v)

/-- The audit register shows the queue (R292). -/
def Tx.qAudit (t : Tx) (m : Nat) : Tx :=
  let q := (t.d.mc.at m).queue
  (t.wr (HD_MC_QAUD_QTOT m) q.length).wr (HD_MC_QAUD_Q7 m) (q.filter (·.req.arank == 7)).length

/-- The decoded address of a request. -/
def Tx.reqLoc (t : Tx) (r : McReq) : Option DLoc := dramLocate (t.rd HD_DMAP_CFG_LOCSZ) r.pa.toNat

/-- The rank-channel and bank of a request on controller `m`: a spare holds a line at the same bank, row and
slot (R284). -/
def Tx.reqBank (t : Tx) (m : Nat) (e : McEnt) : Nat × Nat × Nat :=
  match t.reqLoc e.req with
  | none => (0, 0, 0)
  | some l =>
    let k := if m = 8 then (if e.kind = .dual then t.rd HD_DMAP_MSTAT_SPARE else (t.server l).2) else 4 * l.rk + l.ch
    (k, l.bank, l.row)

/-- The queue admits an entry: 128 in all, 32 of them only for arbitration rank 7 (R273). -/
def mcAdmits (q : List McEnt) (r : McReq) : Bool :=
  decide (q.length < 128) &&
    (r.arank == 7 || decide ((q.filter fun e => e.req.arank != 7).length < 96))

/-- The controller's own work enters its queue at arbitration rank 0 with page hint 0 (R268, R274). -/
def Tx.mcOwn (t : Tx) (m : Nat) (kind : EntKind) (pa : Nat) : Tx :=
  (t.onMc m fun c => { c with queue := c.queue ++ [⟨kind, ⟨BitVec.ofNat 48 pa, 0, 0, false, none⟩⟩] }).qAudit m

/-- A request arrives at controller `m`: it enters the queue, or its port is held at the bound; a request that
another controller serves does not arrive here. -/
def Tx.mcArrive (t : Tx) (m : Nat) (r : McReq) : Tx :=
  match t.reqLoc r with
  | none => t
  | some l =>
    if (t.server l).1 ≠ m then t
    else if mcAdmits (t.d.mc.at m).queue r then
      (t.onMc m fun c => { c with queue := c.queue ++ [⟨.port, r⟩], since := t.now }).qAudit m
    else t.send "MC" "HELD" [m, r.port, r.pa.toNat]

/-! Failures and sparing. -/

/-- The lowest free spare: not failed, in no map entry, and not the target of the migration under way
(R283). -/
def Tx.freeSpare (t : Tx) : Option Nat :=
  (List.range 8).find? fun s =>
    !bit t.d.repair.spbad s && !(List.range 64).any (fun q => t.rmap q == 8 + s)
      && !(t.rd HD_DMAP_MSTAT_STATE != 0 && t.rd HD_DMAP_MSTAT_SPARE == s)

/-- The state, source, spare and pointer of the migration (R286). -/
def Tx.migState (t : Tx) (st q s ptr : Nat) : Tx :=
  (((t.wr HD_DMAP_MSTAT_STATE st).wr HD_DMAP_MSTAT_SRC q).wr HD_DMAP_MSTAT_SPARE s).wr HD_DMAP_MPTR_PTR ptr

/-- A migration of `q` starts on the lowest free spare, or none is free (R283). -/
def Tx.migStart (t : Tx) (q : Nat) : Tx :=
  match t.freeSpare with
  | none => (((t.set1 HD_DMAP_MSTAT_SPAREOUT).irq 10).notice 0x0D [q]).event "SPAREOUT" [q]
  | some s =>
    let t := { t with d := { t.d with mig := { t.d.mig with second := bit (t.rmap q) 3 } } }
    let t := ((t.migState 1 q s 0).set1 HD_DMAP_MSTAT_MSTART).irq 10
    ((t.notice 0x0C [q, s, 0]).event "MIGRATION_START" [q, s]).mirrorJournal

/-- The PEND bit of `q` (R283). -/
def Tx.pendBit (t : Tx) (q : Nat) : Bool := bit (t.pair HD_DMAP_PEND_LO) q

/-- Rank-channel `q` goes out of service: its migration starts at once, or it is recorded as pending behind
the one that runs (R283). -/
def Tx.outOfService (t : Tx) (q : Nat) : Tx :=
  if t.pendBit q ∨ t.migrating q then t
  else if t.rd HD_DMAP_MSTAT_STATE = 0 then t.migStart q
  else
    let t := t.setPair HD_DMAP_PEND_LO (t.pair HD_DMAP_PEND_LO ||| 2 ^ q)
    { t with d := { t.d with mig := { t.d.mig with order := t.d.mig.order ++ [q] } } }

/-- An error takes `q` out of service; a spare that held its data is failed for good (R283). -/
def Tx.rankFailed (t : Tx) (q : Nat) : Tx :=
  let t := if bit (t.rmap q) 3 && !t.pendBit q && !t.migrating q && !bit t.d.repair.spbad (t.rmap q % 8) then
      t.repair 7 (t.rmap q % 8) (t.d.repair.spbad ||| 2 ^ (t.rmap q % 8)) fun r => { r with spbad := r.spbad ||| 2 ^ (t.rmap q % 8) }
    else t
  t.outOfService q

/-- The error log of a controller names a line (R292). -/
def Tx.mcElog (t : Tx) (m k typ u line : Nat) : Tx :=
  ((((t.wr (HD_MC_ELOG_TYPE m) typ).wr (HD_MC_ELOG_RK m) (k / 4)).wr (HD_MC_ELOG_CH m) (k % 4)).wr (HD_MC_ELOG_U m) u).wr
    (HD_MC_ELOG_LINE m) line

/-- A corrected line is counted, and its write-back queued (R268). -/
def Tx.lineCorrected (t : Tx) (m pa : Nat) : Tx :=
  ((t.inc (HD_MC_CECNT_COUNT m)).set1 (HD_MC_STAT_CE m)).mcOwn m .fixed pa

/-- What a check finds on a line of controller `m`, rank-channel `k` there, at `pa` (R268): an uncorrectable
line is poisoned and its write-back queued; both errors are counted, logged, reported and take the
rank-channel out of service. -/
def Tx.lineChecked (t : Tx) (m k pa : Nat) (l : DLoc) (found : LineCheck) : Tx :=
  if t.poisoned pa then t
  else match found with
    | .clean => t
    | .corrected => (t.lineCorrected m pa).ceCount (16 + l.q)
    | .uncorrectable =>
      let t := ((t.setPoison pa).inc (HD_MC_UECNT_COUNT m)).set1 (HD_MC_STAT_UE m)
      let t := ((t.mcElog m k 1 l.u l.line).irq (1 + m)).event "DRAM_UE" [l.q, l.u, l.line]
      (t.mcOwn m .poison pa).rankFailed l.q
    | .wrongAddress =>
      let t := (t.inc (HD_MC_UECNT_COUNT m)).set1 (HD_MC_STAT_CMDERR m)
      ((((t.mcElog m k 2 l.u l.line).irq (1 + m)).event "DRAM_CMDERR" [l.q, l.u, l.line])).rankFailed l.q

/-! Issue. -/

/-- A refresh is forced on rank-channel `k`: its debt is 8 and no request is owed to it (R276). -/
def Tx.forced (t : Tx) (m k : Nat) : Bool := t.debt m k == 8 && !(t.d.mc.at m).owed.at k

/-- The entry hits the open row of its bank. -/
def Tx.rowHit (t : Tx) (m : Nat) (e : McEnt) : Bool :=
  let (k, b, row) := t.reqBank m e
  ((t.d.mc.at m).banks.at (16 * k + b)).row == row + 1

/-- The entry writes. -/
def McEnt.writes (e : McEnt) : Bool := e.kind != .port || e.req.data.isSome

/-- The entry the controller issues next (R273): within 16 bursts of its last change of direction the
controller keeps to that direction, unless a request of arbitration rank 7 waits or nothing else is there;
then the highest rank, a row hit, the oldest. -/
def Tx.mcNext (t : Tx) (m : Nat) : Option McEnt :=
  let c := t.d.mc.at m
  let free := c.queue.filter fun e => !t.forced m (t.reqBank m e).1
  let same := free.filter (·.writes == c.dirW)
  let pool := if c.bursts < 16 && !free.any (·.req.arank == 7) && !same.isEmpty then same else free
  let top := pool.foldl (fun r e => max r e.req.arank.val) 0
  let best := pool.filter (·.req.arank.val == top)
  match best.find? (t.rowHit m) with
  | some e => some e
  | none => best.head?

/-- The row, the direction and the debts after the controller has issued `e` (R274, R276). -/
def Tx.mcIssued (t : Tx) (m : Nat) (e : McEnt) : Tx :=
  let (k, b, row) := t.reqBank m e
  (t.onMc m fun c =>
    { c with
      queue := c.queue.erase e
      banks := c.banks.put (16 * k + b) ⟨if e.req.ph then row + 1 else 0, t.now⟩
      owed := c.owed.put k false
      bursts := if e.writes = c.dirW then c.bursts + 1 else 1
      dirW := e.writes
      since := t.now }).qAudit m

/-- A port's request is performed: a read checks the line and answers data or poison; a full-line write
stores; a shorter write is a read-modify-write (R268).  A write to the chunk under migration also goes to
the spare, and completes when both copies have (R284). -/
def Tx.mcPerform (t : Tx) (m : Nat) (r : McReq) (l : DLoc) (k : Nat) (found : LineCheck) : Tx :=
  let pa := r.pa.toNat
  match r.data with
  | none =>
    let t := t.lineChecked m k pa l found
    if t.poisoned pa ∨ found = .wrongAddress then t.send "MC" "READ" [m, r.port, pa, 2]
    else t.send "MC" "READ" ([m, r.port.val, pa, 0] ++ (t.rdBytes (pa / 64 * 64) 64).map (·.toNat))
  | some bs =>
    let bs := bs.take (64 - pa % 64)
    let t := if bs.length = 64 then t else t.lineChecked m k pa l found
    let t := t.storeRun pa bs
    if t.migrating l.q ∧ l.u = t.rd HD_DMAP_MPTR_PTR then
      (t.onMc 8 fun c => { c with queue := c.queue ++ [⟨.dual, r⟩] }).qAudit 8
    else t.send "MC" "WRITTEN" [m, r.port, pa]

/-- CONTROLLER_ISSUE (R273): the requests that have arrived enter the queue, and the next is issued and
checked. -/
def execControllerIssue (m : Fin 9) (arrivals : List McReq) (found : LineCheck) (s : State) : Host.Outcome State Fault Refusal :=
  s.does fun t =>
    if !t.mcRuns m then t
    else
      let t := t.each arrivals fun t r => t.mcArrive m r
      if t.now < (t.d.mc.at m).wake then t
      else match t.mcNext m with
        | some e =>
          match t.reqLoc e.req with
          | none => t
          | some l =>
            let k := (t.reqBank m e).1
            match e.kind with
            | .port => (t.mcIssued m e).mcPerform m e.req l k found
            | .dual => (t.mcIssued m e).send "MC" "WRITTEN" [m, e.req.port, e.req.pa.toNat]
            | .fixed | .poison => t
        | none => t

/-- A queued write-back of kind `kind` is issued when arbitration gives it its turn. -/
def Tx.writeBack (t : Tx) (m : Nat) (kind : EntKind) (found : LineCheck) (f : Tx → Nat → Tx) : Tx :=
  if !t.mcRuns m || decide (t.now < (t.d.mc.at m).wake) then t
  else match t.mcNext m with
    | some e =>
      if e.kind ≠ kind then t
      else
        let k := (t.reqBank m e).1
        let t := f (t.mcIssued m e) e.req.pa.toNat
        match t.reqLoc e.req with
        | some l => t.lineChecked m k e.req.pa.toNat l found
        | none => t
    | none => t

/-- CORRECTED_WRITEBACK (R268): the corrected line is stored; its data stand. -/
def execCorrectedWriteback (m : Fin 9) (found : LineCheck) (s : State) : Host.Outcome State Fault Refusal :=
  s.does fun t => t.writeBack m .fixed found fun t _ => t

/-- POISON_WRITEBACK (R268): the line is stored in its poisoned form, unless a full write has replaced it
since; either way its reads tell the same. -/
def execPoisonWriteback (m : Fin 9) (found : LineCheck) (s : State) : Host.Outcome State Fault Refusal :=
  s.does fun t => t.writeBack m .poison found fun t _ => t

/-- PAGE_IDLE_CLOSE (R274): an open row without an access for PGIDLE × 10 ns closes. -/
def execPageIdleClose (m : Fin 9) (k : Fin 8) (bank : Fin 16) (s : State) : Host.Outcome State Fault Refusal :=
  s.does fun t =>
    let b := (t.d.mc.at m).banks.at (16 * k + bank)
    t.when (b.row ≠ 0 && decide (b.last + t.rd (HD_MC_CTL_PGIDLE m) * 10 ≤ t.now)) fun t =>
      t.onMc m fun c => { c with banks := c.banks.put (16 * k + bank) {} }

/-! Refresh. -/

/-- REFRESH_DEBT_TICK (R276): the debt rises by 1, to at most 8. -/
def execRefreshDebtTick (m : Fin 9) (k : Fin 8) (s : State) : Host.Outcome State Fault Refusal :=
  s.does fun t => t.when (t.is (HD_MC_STAT_READY m)) fun t =>
    let t := t.setDebt m k (min 8 (t.debt m k + 1))
    t.when (t.debt m k == 8) (·.onMc m fun c => { c with since := t.now })

/-- The banks of rank-channel `k` close. -/
def Mc.closeRank (c : Mc) (k : Nat) : Mc :=
  { c with banks := (List.range 16).foldl (fun b i => b.put (16 * k + i) {}) c.banks }

/-- The next bank of the round that no queued request targets (R276). -/
def Tx.refBank (t : Tx) (m k : Nat) : Option Nat :=
  let c := t.d.mc.at m
  (List.range 16).find? fun b => !bit (c.round.at k) b &&
    !c.queue.any fun e => (t.reqBank m e).1 == k && (t.reqBank m e).2.1 == b

/-- REFPB (R276): with debt pending, a per-bank refresh to the next unused bank; the sixteenth completes the
round and pays one interval.  After a forced refresh a request comes first. -/
def execRefpb (m : Fin 9) (k : Fin 8) (s : State) : Host.Outcome State Fault Refusal :=
  s.does fun t =>
    if !t.mcRuns m || t.debt m k == 0 || (t.d.mc.at m).owed.at k then t
    else match t.refBank m k with
      | none => t
      | some b =>
        let r := (t.d.mc.at m).round.at k ||| 2 ^ b
        let full := r == 2 ^ 16 - 1
        let t := t.onMc m fun c =>
          { c with banks := c.banks.put (16 * k + b) {}, round := c.round.put k (if full then 0 else r) }
        t.when full fun t => t.setDebt m k (t.debt m k - 1)

/-- REFAB (R276): at a debt of 8 all banks are precharged and refreshed; the debt falls by 1, and a queued
request is owed before any further refresh. -/
def execRefab (m : Fin 9) (k : Fin 8) (s : State) : Host.Outcome State Fault Refusal :=
  s.does fun t => t.when (t.mcRuns m && t.forced m k) fun t =>
    ((t.onMc m fun c =>
      { c.closeRank k with owed := c.owed.put k true, since := t.now }).setDebt m k 7).inc (HD_MC_FREFCNT_COUNT m)

/-- MR4_READ (R265, R276): the reported multiplier is applied, and a temperature beyond the operating range
recorded. -/
def execMr4Read (m : Fin 9) (mult : Fin 3) (hot : Bool) (s : State) : Host.Outcome State Fault Refusal :=
  s.does fun t => t.when (t.mcRuns m) fun t =>
    (t.wr (HD_MC_STAT_RMULT m) mult).when hot (·.set1 (HD_MC_STAT_TEMPHI m))

/-! Self-refresh. -/

/-- A port of the controller carries a guarantee (R277, R315). -/
def Tx.mcGuaranteed (t : Tx) (m : Nat) : Bool := (List.range 8).any fun p => t.rd (REG_EFF_GREFF (HD_MC_CTL m) p) != 0

/-- A migration uses controller `m`: the failing rank-channel's or the spare's. -/
def Tx.mcMigrates (t : Tx) (m : Nat) : Bool :=
  t.rd HD_DMAP_MSTAT_STATE != 0 && (m == 8 || t.rd HD_DMAP_MSTAT_SRC / 8 == m)

/-- The conditions of self-refresh (R277), but for the time they must hold. -/
def Tx.mcIdle (t : Tx) (m : Nat) : Bool :=
  t.mcRuns m && (t.d.mc.at m).queue.isEmpty && (List.range 8).all (fun k => t.debt m k != 8)
    && !t.mcGuaranteed m && !t.mcMigrates m

/-- SELF_REFRESH_ENTRY (R277).  Uncommitted: once the conditions have held for SRIDLE µs the banks are
precharged and entry begins; a guarantee blocks it and SRBLK reads 1.  Committed: at least 21 ns later the
entry command is issued. -/
def execSelfRefreshEntry (m : Fin 9) (commit : Bool) (s : State) : Host.Outcome State Fault Refusal :=
  s.does fun t =>
    let c := t.d.mc.at m
    let idle := t.rd (HD_MC_CTL_SRIDLE m)
    let t := t.when (t.powered (domMC m)) (·.wr (HD_MC_STAT_SRBLK m) (if t.mcGuaranteed m then 1 else 0))
    if commit then
      match c.entering with
      | some t0 =>
        t.when (t.mcIdle m && decide (t0 + 21 ≤ t.now)) fun t =>
          ((t.onMc m fun c => { c with entering := none, wake := t.now + 15 }).wr (HD_MC_STAT_SR m) 1).inc (HD_MC_SRCNT_COUNT m)
      | none => t
    else t.when (idle ≠ 0 && t.mcIdle m && decide (c.since + idle * 1000 ≤ t.now) && c.entering.isNone) fun t =>
      t.onMc m fun c => { (List.range 8).foldl Mc.closeRank c with entering := some t.now }

/-- SELF_REFRESH_EXIT (R277): a request cancels an entry before its commit point and is served; after it the
controller observes tSR, exits, and issues nothing for tXSR. -/
def execSelfRefreshExit (m : Fin 9) (req : McReq) (s : State) : Host.Outcome State Fault Refusal :=
  s.does fun t =>
    if t.is (HD_MC_STAT_RETAIN m) || !t.powered (domMC m) then t
    else
      let t := (t.onMc m fun c => { c with entering := none }).mcArrive m req
      t.when (t.is (HD_MC_STAT_SR m)) fun t =>
        (t.onMc m fun c => { c with wake := max t.now c.wake + 288, since := t.now }).wr (HD_MC_STAT_SR m) 0

/-! Initialisation and scrub. -/

/-- Every byte kept in the LPDDR5X range that satisfies `p` becomes zero, and no such line stays
poisoned. -/
def Tx.clearDram (t : Tx) (p : Nat → Bool) : Tx :=
  let ks := (t.m.map (·.1) ++ t.s.mem.map (·.1)).filter fun k => decide (k < dramEnd) && p k
  let t := t.each ks fun t k => t.wb k 0#8
  { t with d := { t.d with poison := t.d.poison.filter fun l => !(decide (l * 64 < dramEnd) && p (l * 64)) } }

/-- Controller `m` serves address `a`. -/
def Tx.servedBy (t : Tx) (m a : Nat) : Bool :=
  match dramLocate (t.rd HD_DMAP_CFG_LOCSZ) a with
  | some l => (t.server l).1 == m
  | none => false

/-- DRAM_SCRUB (R269): a patrol read of a line is checked as any read; SCRUBH = 0 disables it. -/
def execDramScrub (q : Fin 64) (u : BitVec 19) (line : Fin 64) (found : LineCheck) (s : State) : Host.Outcome State Fault Refusal :=
  s.does fun t =>
    let pa := dramAddr (t.rd HD_DMAP_CFG_LOCSZ) q u.toNat line
    match dramLocate (t.rd HD_DMAP_CFG_LOCSZ) pa with
    | none => t
    | some l =>
      let (m, k) := t.server l
      if u.toNat < 491520 && t.mcRuns m && t.rd (HD_MC_CTL_SCRUBH m) != 0 then t.lineChecked m k pa l found else t

/-! Migration. -/

/-- A MIGRATE command for `q` (R283, R293). -/
def Tx.migrate (t : Tx) (q : Nat) : Tx :=
  if bit (t.rmap q) 3 ∨ t.pendBit q ∨ t.migrating q then t.set1 HD_DMAP_MSTAT_CMDREF else t.outOfService q

/-- A write of HD_DMAP_MCMD (R293). -/
def Tx.writeMcmd (t : Tx) (v : Nat) : Tx :=
  match bits v 3 0 with
  | 1 => t.migrate (bits v 13 8)
  | 2 => t.snapSome HD_DMAP_JDEF (· == HD_DMAP_JDEF)
  | _ => t.set1 HD_DMAP_MSTAT_CMDREF

def execMigrate (mid : Mid) (q : Fin 64) (s : State) : Host.Outcome State Fault Refusal :=
  s.does fun t => t.swWrite mid.toNat HD_DMAP_MCMD (·.writeMcmd (1 + 256 * q.val))

/-- MIGRATION_CHUNK (R284 to R287).  In COPY the lines of the chunk at PTR are read with correction, those
named being corrected or found uncorrectable, and written to the spare; in PWRINIT the chunk becomes zero on
the spare.  PTR advances; the journal is mirrored every 4,096 chunks and at the change to RETIRE, whose
repair-map entry is then to be written. -/
def execMigrationChunk (fixed bad : List (Fin 64)) (s : State) : Host.Outcome State Fault Refusal :=
  s.does fun t =>
    let st := t.rd HD_DMAP_MSTAT_STATE
    let q := t.rd HD_DMAP_MSTAT_SRC
    let sp := t.rd HD_DMAP_MSTAT_SPARE
    let ptr := t.rd HD_DMAP_MPTR_PTR
    let src := if t.d.mig.second then 8 else q / 8
    if (st ≠ 1 ∧ st ≠ 2) ∨ (st = 1 ∧ t.mcRuns src = false) ∨ t.mcRuns 8 = false then t
    else
      let at_ (line : Nat) := dramAddr (t.rd HD_DMAP_CFG_LOCSZ) q ptr line
      let read (t : Tx) (line : Fin 64) (found : LineCheck) : Tx :=
        match dramLocate (t.rd HD_DMAP_CFG_LOCSZ) (at_ line) with
        | some l => t.lineChecked src (if t.d.mig.second then t.rmap q % 8 else q % 8) (at_ line) l found
        | none => t
      let t := if st = 1 then (t.each fixed fun t x => read t x .corrected).each bad fun t x => read t x .uncorrectable
        else t.clearDram fun a => decide (at_ 0 ≤ a) && decide (a < at_ 0 + 4096)
      let t := t.wr HD_DMAP_MPTR_PTR (ptr + 1)
      if ptr + 1 = 491520 then
        let t := (t.wr HD_DMAP_MSTAT_STATE 3).mirrorJournal
        let w := putBits (t.word (HD_DMAP_RMAP (q / 8))) (4 * (q % 8) + 3) (4 * (q % 8)) (8 + sp)
        let t := t.repair 6 q w fun r => { r with rmap := r.rmap.put (q / 8) w }
        { t with d := { t.d with mig := { t.d.mig with need := t.d.repair.made } } }
      else t.when ((ptr + 1) % 4096 == 0) (·.mirrorJournal)

/-- RETIRE_DONE (R286): once the repair map that records it is written, RMAP routes `q` to the spare, MDONE
sets, the engine is idle, and the next pending migration starts. -/
def execRetireDone (s : State) : Host.Outcome State Fault Refusal :=
  s.does fun t =>
    if t.rd HD_DMAP_MSTAT_STATE ≠ 3 ∨ t.d.repair.done < t.d.mig.need then t
    else
      let q := t.rd HD_DMAP_MSTAT_SRC
      let sp := t.rd HD_DMAP_MSTAT_SPARE
      let t := t.setWord (HD_DMAP_RMAP (q / 8)) (putBits (t.word (HD_DMAP_RMAP (q / 8))) (4 * (q % 8) + 3) (4 * (q % 8)) (8 + sp))
      let t := ((t.wr HD_DMAP_MSTAT_STATE 0).set1 HD_DMAP_MSTAT_MDONE).irq 10
      let t := ((t.notice 0x0C [q, sp, 1]).event "MIGRATION_DONE" [q, sp]).mirrorJournal
      match t.d.mig.order with
      | [] => t
      | p :: rest =>
        let t := t.setPair HD_DMAP_PEND_LO (t.pair HD_DMAP_PEND_LO &&& (2 ^ 64 - 1 - 2 ^ p))
        ({ t with d := { t.d with mig := { t.d.mig with order := rest } } }).migStart p

end Sys2Proof.Machine
end

