-- ==== Sys2Proof/Machine/Regulators.lean ====
section
/-! DEFINITION.  Routes between dies (R25, R308) and the bandwidth regulators: charges (R311, R316), windows
and misses (R317), checks (R318) and effective guarantees (R319, R320). -/

namespace Sys2Proof.Machine

/-! Link ends and routes.  Dies are numbered 0 to 3 for the stacks and 4 for the hub. -/

/-- The link block of a die's end. -/
def lnkBase (e : Nat) : Nat := if e < 4 then btLnk e else hdLnk
/-- The key of an end's state. -/
def lnkKey (e k : Nat) : Nat := 32 * e + k
/-- The modules of end `e`. -/
def lnkCount (e : Nat) : Nat := if e < 4 then 8 else 18
/-- The far end of a module; the guest site's end is not the model's (R298). -/
def lnkPeer (e k : Nat) : Option (Nat × Nat) :=
  if e < 4 then
    if k < 4 then some (4, 4 * e + k) else if k < 6 then some ((e + 1) % 4, k + 2) else some ((e + 3) % 4, k - 2)
  else if k < 16 then some (k / 4, k % 4) else none
/-- The first module, and the modules, of the bundle that module `k` of end `e` belongs to (R298). -/
def lnkBundle (e k : Nat) : Nat × Nat :=
  if e < 4 then (if k < 4 then (0, 4) else if k < 6 then (4, 2) else (6, 2)) else if k < 16 then (k / 4 * 4, 4) else (16, 2)
/-- The die at the far end of a bundle: 5 for the guest site. -/
def lnkFar (e k : Nat) : Nat :=
  match lnkPeer e k with
  | some (p, _) => p
  | none => 5

/-- STATE of a module end (R328): 0 DOWN, 1 TRAIN, 2 ACTIVE, 3 DRAIN, 4 RETRAIN. -/
def Tx.lnkState (t : Tx) (e k : Nat) : Nat := t.rd (LNK_MST_STATE (lnkBase e) k)

/-- The modules of the connection between dies `a` and `b`, at one end: end, first module, count. -/
def connOf (a b : Nat) : Nat × Nat × Nat :=
  if a = 4 then (b, 0, 4) else if b = 4 then (a, 0, 4) else if (a + 1) % 4 = b then (a, 4, 2) else (b, 4, 2)

/-- The connection between `a` and `b` is lost: every module DOWN (R308). -/
def Tx.lost (t : Tx) (a b : Nat) : Bool :=
  let (e, k, n) := connOf a b
  (List.range n).all fun i => t.lnkState e (k + i) == 0

/-- The stack between opposite stacks on the fixed route (R25). -/
def viaStack (a b : Nat) : Nat := if (a = 0 ∨ a = 2) ∧ (b = 0 ∨ b = 2) then 1 else 0

/-- The ring route, as the dies it visits: fixed, or the other way round when an edge it uses is lost
(R25, R308). -/
def Tx.ringRoute (t : Tx) (a b : Nat) : List Nat :=
  if a = b then [a]
  else
    let way (step : Nat) := (List.range 4).foldl (fun (p : List Nat) _ =>
      match p.getLast? with
      | some x => if x = b then p else p ++ [(x + step) % 4]
      | none => p) [a]
    let fixed := if (a + 1) % 4 = b then way 1 else if (b + 1) % 4 = a then way 3
      else if (a + 1) % 4 = viaStack a b then way 1 else way 3
    let other := if fixed = way 1 then way 3 else way 1
    let cut (p : List Nat) := (p.zip p.tail).any fun (x, y) => t.lost x y
    if cut fixed then other else fixed

/-- The ring neighbour of lower index. -/
def lowNeighbour (n : Nat) : Nat := min ((n + 1) % 4) ((n + 3) % 4)

/-- The route in force between dies, 4 being the hub (R25, R308). -/
def Tx.route (t : Tx) (a b : Nat) : List Nat :=
  if a = b then [a]
  else if a = 4 then (if t.lost 4 b then 4 :: t.ringRoute (lowNeighbour b) b else [4, b])
  else if b = 4 then (if t.lost a 4 then t.ringRoute a (lowNeighbour a) ++ [4] else [a, 4])
  else t.ringRoute a b

/-- The directed connections of a route. -/
def edges (p : List Nat) : List (Nat × Nat) := p.zip p.tail

/-- The capacity of a connection, each direction: 640 tokens for an x16 module and 320 for an x8 module that
is active (R318). -/
def Tx.capacity (t : Tx) (a b : Nat) : Nat :=
  let (e, k, n) := connOf a b
  (List.range n).foldl (fun c i =>
    if t.lnkState e (k + i) = 2 then c + (if t.is (LNK_MST_X8 (lnkBase e) (k + i)) then 320 else 640) else c) 0

/-! Charges. -/

/-- The base of the compute dies' engine identities. -/
def dieOfMid (mid : Nat) : Option Nat := if 0x200 ≤ mid ∧ mid < 0x600 then some ((mid - 0x200) / 0x100) else none

/-- The HD_REG group of a hub master (R315); the DMA channels' group follows RT. -/
def hubGroup (mid : Nat) (rt : Bool) : Option Nat :=
  if mid < 0x40 then some 0 else if mid = 0x120 ∨ mid = 0x121 ∨ mid = 0x122 then some 1
  else if mid = 0x130 then some 2 else if mid = 0x140 then some 4
  else if 0x100 ≤ mid ∧ mid < 0x200 then some (if rt then 3 else 4)
  else if 0xD00 ≤ mid ∧ mid < 0xE00 then some 5 else if 0xC00 ≤ mid ∧ mid < 0xD00 then some 6
  else if 0x800 ≤ mid ∧ mid < 0x900 then some 7 else none

/-- The tile whose home window or whose part of the interleaved pool holds `pa`. -/
def Tx.tileOf (t : Tx) (pa : Nat) : Option Nat :=
  if homeBase ≤ pa ∧ pa < homeEnd then some ((pa - homeBase) / 0x10000000)
  else if poolBase ≤ pa ∧ pa < poolEnd then (intlLocate (t.rd HD_SHF_GCFG_INTL) pa).map (·.1)
  else none

/-- The source regulator of a request: block and instance (R315). -/
def Tx.sourceReg (t : Tx) (mid pa : Nat) (rt : Bool) : Option (Nat × Nat) :=
  let r := if rt then 1 else 0
  match dieOfMid mid with
  | some n =>
    let cls :=
      if homeBase ≤ pa ∧ pa < homeEnd then (if (pa - homeBase) / 0x10000000 = n then 0 else 2)
      else if poolBase ≤ pa ∧ pa < poolEnd then 1 else 3
    some (cdReg n, 2 * cls + r)
  | none => if (t.tileOf pa).isSome then (hubGroup mid rt).map fun g => (hdReg, g) else none

/-- The controller port of a requester (R272). -/
def mcPort (mid : Nat) : Nat :=
  match dieOfMid mid with
  | some n => 1 + n
  | none =>
    if mid < 0x40 then 0 else if mid = 0x120 ∨ mid = 0x121 ∨ mid = 0x122 ∨ mid = 0x130 ∨ mid = steward then 5
    else if 0x800 ≤ mid ∧ mid < 0x900 then 7 else 6

/-- The block at `b` is a controller's. -/
def isMcReg (b : Nat) : Bool := decide (mcReg 0 ≤ b) && decide (b ≤ mcReg 8)

/-- `k` tokens of a transaction are charged to regulator `i` of block `b`, or counted as over budget (R316);
the answer tells whether it is within budget. -/
def Tx.charge (t : Tx) (b i k : Nat) (write : Bool) : Tx × Bool :=
  let one := isMcReg b
  let used := if one then t.rd (REG_AUD_USEDR b i) + t.rd (REG_AUD_USEDW b i)
    else t.rd (if write then REG_AUD_USEDW b i else REG_AUD_USEDR b i)
  let eff := t.rd (if write && !one then REG_EFF_GWEFF b i else REG_EFF_GREFF b i)
  if used + k ≤ eff then (t.inc (if write then REG_AUD_USEDW b i else REG_AUD_USEDR b i) k, true)
  else (t.inc (REG_AUD2_OVER b i) k, false)

/-- The tokens of a refused transaction return to their window (R316). -/
def Tx.giveBack (t : Tx) (b i k : Nat) (write : Bool) : Tx :=
  let f := if write then REG_AUD_USEDW b i else REG_AUD_USEDR b i
  t.wr f (t.rd f - k)

/-- The rank a source regulator gives (R311). -/
def Tx.regRank (t : Tx) (b i : Nat) (within : Bool) : Nat :=
  if !within then 0 else if t.is (REG_CTL_RT b i) then 7 else min 6 (t.rd (REG_CTL_RANK b i))

/-! Windows. -/

/-- Every regulator: block and instance (R315). -/
def allRegs : List (Nat × Nat) :=
  (((List.range 4).map cdReg) ++ [hdReg] ++ ((List.range 9).map mcReg)).flatMap fun b => (List.range 8).map fun i => (b, i)

/-- The interrupt source of a regulator block (R455). -/
def regIrq (b : Nat) : Nat :=
  if b = hdReg then 15 else if isMcReg b then 1 + (b - mcReg 0) / 0x1000 else 128 + 16 * ((b - cdReg 0) / 0x2000000) + 14

/-- The block of a regulator index of the table: dies 0 to 3, the hub 4, controllers from 5 on. -/
def regBlock (n : Nat) : Nat := if n < 4 then cdReg n else if n = 4 then hdReg else mcReg (n - 5)

/-- The number by which a notice names regulator `i` of the block at `b`. -/
def regUnit (b i : Nat) : Nat := 8 * (((List.range 14).find? fun n => regBlock n == b).getD 0) + i

/-- A new effective guarantee takes effect: LOW is live, XLOW and XOK record its crossings (R319, R320). -/
def Tx.regEffect (t : Tx) (b i eff cause : Nat) : Tx :=
  let was := t.is (REG_STAT_LOW b i)
  let t := (t.setWord (REG_EFF b i) eff).wr (REG_STAT_CAUSE b i) cause
  let low := decide (bits eff 15 0 < t.rd (REG_CFG_GR b i)) || decide (bits eff 31 16 < t.rd (REG_CFG_GW b i))
  let t := t.wr (REG_STAT_LOW b i) (if low then 1 else 0)
  if low && !was then
    (((t.set1 (REG_STAT_XLOW b i)).inc (REG_CNT_LOWCNT b i)).irq (regIrq b)).notice 0x08 [regUnit b i]
  else if was && !low then (t.set1 (REG_STAT_XOK b i)).inc (REG_CNT_LOWCNT b i)
  else t

/-- A regulator records a miss (R317). -/
def Tx.regMiss (t : Tx) (b i : Nat) : Tx :=
  (((t.set1 (REG_STAT_MISS b i)).inc (REG_CNT_MISSCNT b i)).irq (regIrq b)).notice 0x07 [regUnit b i]



/-- REGULATOR_WINDOW (R316, R317, R319): a window ends.  Each regulator and direction named had a transaction
within budget waiting through the last 500 ns; it misses if fewer tokens than its effective guarantee were
charged.  The counts restart, and guarantees computed in the last window take effect. -/
def execRegulatorWindow (starved : List (Fin 14 × Fin 8 × Bool)) (s : State) : Host.Outcome State Fault Refusal :=
  s.does fun t =>
    let t := t.each starved fun t (n, i, w) =>
      let b := regBlock n
      let used := if isMcReg b then t.rd (REG_AUD_USEDR b i) + t.rd (REG_AUD_USEDW b i)
        else t.rd (if w then REG_AUD_USEDW b i else REG_AUD_USEDR b i)
      let eff := t.rd (if w && !isMcReg b then REG_EFF_GWEFF b i else REG_EFF_GREFF b i)
      t.when (decide (used < eff)) (·.regMiss b i)
    let t := t.each allRegs fun t (b, i) => (t.setWord (REG_AUD b i) 0).setWord (REG_AUD2 b i) 0
    let t := t.each t.d.regNext fun t (b, i, eff, cause) => t.regEffect b i eff cause
    { t with d := { t.d with regNext := [], fwUsed := [] } }

/-! Effective guarantees. -/

/-- The targets of a regulator with their weights, in units of 1 over `max NI 1` (R315): the tile or the hub. -/
def Tx.regTargets (t : Tx) (b i : Nat) : List (Nat × Nat) :=
  let intl := t.rd HD_SHF_GCFG_INTL
  let ni := max 1 (popcount 12 intl)
  let spread := (List.range 4).map fun n => (n, ((List.range 3).filter fun g => bit intl (3 * n + g)).length)
  let masked := ((List.range 4).filter fun n => bit (t.rd (REG_CTL_TMASK b i)) n).map fun n => (n, ni)
  if b = hdReg then (if t.is (REG_CTL_INTL b i) then spread else masked)
  else match i / 2 with
    | 0 => []
    | 3 => [(4, ni)]
    | _ => if t.is (REG_CTL_INTL b i) then spread else masked

/-- The source die of a regulator block. -/
def regSource (b : Nat) : Nat := if b = hdReg then 4 else (b - cdReg 0) / 0x2000000

/-- The regulators the engine computes: CD_REG and HD_REG. -/
def engineRegs : List (Nat × Nat) := allRegs.filter fun (b, _) => !isMcReg b

/-- What a regulator's guarantee adds to direction `e`, in units of 1 over `max NI 1`; reads come from the
target, writes go to it. -/
def Tx.regShare (t : Tx) (b i : Nat) (write : Bool) (e : Nat × Nat) : Nat :=
  let g := t.rd (if write then REG_CFG_GW b i else REG_CFG_GR b i)
  (t.regTargets b i).foldl (fun acc (n, w) =>
    let p := if write then t.route (regSource b) n else t.route n (regSource b)
    if (edges p).contains e then acc + w * g else acc) 0

/-- Every direction of every bundle between the stacks and the hub. -/
def allEdges : List (Nat × Nat) :=
  (List.range 4).flatMap fun n => [(4, n), (n, 4), (n, (n + 1) % 4), ((n + 1) % 4, n)]

/-- The load of each direction (R319). -/
def Tx.loads (t : Tx) : List ((Nat × Nat) × Nat) :=
  allEdges.map fun e => (e, engineRegs.foldl (fun acc (b, i) => acc + t.regShare b i false e + t.regShare b i true e) 0)

/-- The directions that cut a guarantee, each with its load. -/
def Tx.cutting (t : Tx) (loads : List ((Nat × Nat) × Nat)) (b i : Nat) (write : Bool) : List ((Nat × Nat) × Nat) :=
  let ni := max 1 (popcount 12 (t.rd HD_SHF_GCFG_INTL))
  loads.filter fun (e, l) => decide (t.capacity e.1 e.2 * ni < l) && t.regShare b i write e != 0

/-- The effective guarantee in one direction (R319). -/
def Tx.effective (t : Tx) (loads : List ((Nat × Nat) × Nat)) (b i : Nat) (write : Bool) : Nat :=
  let g := t.rd (if write then REG_CFG_GW b i else REG_CFG_GR b i)
  let ni := max 1 (popcount 12 (t.rd HD_SHF_GCFG_INTL))
  (t.cutting loads b i write).foldl (fun acc (e, l) => min acc (g * (t.capacity e.1 e.2 * ni) / l)) g

/-- CAUSE of a shortfall (R320): a lost connection, a module that retrains, a width or DOWN state. -/
def Tx.cutCause (t : Tx) (cut : List ((Nat × Nat) × Nat)) : Nat :=
  let any (p : Nat → Bool) := cut.any fun ((a, b), _) =>
    let (e, k, n) := connOf a b
    (List.range n).any fun i => p (t.rd (LNK_MST_STATE (lnkBase e) (k + i)) * 2 + t.rd (LNK_MST_X8 (lnkBase e) (k + i)))
  if cut.isEmpty then 0
  else if allEdges.any fun (a, b) => t.lost a b then 3
  else if any fun v => v / 2 ≥ 3 then 2
  else if any fun v => v / 2 = 0 || v % 2 = 1 then 1
  else 0

/-- REGULATOR_RECOMPUTE (R319): the engine computes every effective guarantee; the values take effect at the
next window.  A controller port's guarantee is not cut. -/
def execRegulatorRecompute (s : State) : Host.Outcome State Fault Refusal :=
  s.does fun t =>
    let loads := t.loads
    let next := engineRegs.map fun (b, i) =>
      let cut := t.cutting loads b i false ++ t.cutting loads b i true
      (b, i, t.effective loads b i false + 2 ^ 16 * t.effective loads b i true, t.cutCause cut)
    let mc := (allRegs.filter fun (b, _) => isMcReg b).map fun (b, i) => (b, i, t.rd (REG_CFG_GR b i), 0)
    { t with d := { t.d with regNext := next ++ mc } }

/-! Writes. -/

/-- A write of REG_CFG, and the checks of R318. -/
def Tx.writeRegCfg (t : Tx) (b i v : Nat) : Tx :=
  let t := t.setWord (REG_CFG b i) (if isMcReg b then bits v 15 0 else v)
  let sum := (List.range 8).foldl (fun acc i => acc + t.rd (REG_CFG_GR b i) + t.rd (REG_CFG_GW b i)) 0
  let tooMuch := if isMcReg b then decide (568 < sum) else b != hdReg && decide (40000 < sum)
  t.when tooMuch fun t => t.each (List.range 8) fun t i => t.set1 (REG_STAT_OVERSUB b i)

/-- A write of REG_CTL (R329): RT is fixed in a compute die and in the guest's group, TMASK in a HOME instance,
and a controller port has no such register. -/
def Tx.writeRegCtl (t : Tx) (b i v : Nat) : Tx :=
  if isMcReg b then t
  else
    let fixedRt := b != hdReg || i == 6
    let keep (f : FRef) (fixed : Bool) (v : Nat) := if fixed then putBits v f.hi f.lo (t.rd f) else v
    let v := keep (REG_CTL_RT b i) fixedRt v
    t.applyAt (REG_CTL b i) (keep (REG_CTL_TMASK b i) (b != hdReg && decide (i < 2)) v)

end Sys2Proof.Machine
end

