-- ==== Sys2Proof/Machine/Links.lean ====
section
/-! DEFINITION.  Link modules: training, repair and loss (R297, R305 to R308), the sender's rotation and
replay buffer (R298, R299, R302, R303), and the guest firewall (R325, R326). -/

namespace Sys2Proof.Machine

/-- A change of a module end's own state. -/
def Tx.onLink (t : Tx) (e k : Nat) (f : LinkEnd → LinkEnd) : Tx :=
  { t with d := { t.d with link := t.d.link.upd (lnkKey e k) f } }
/-- A change of the sending end of the bundle that module `k` belongs to. -/
def Tx.onBundle (t : Tx) (e k : Nat) (f : Bundle → Bundle) : Tx :=
  { t with d := { t.d with bundle := t.d.bundle.upd (lnkKey e (lnkBundle e k).1) f } }
/-- The state of a module end. -/
def Tx.linkOf (t : Tx) (e k : Nat) : LinkEnd := t.d.link.at (lnkKey e k)

/-- Both ends of a module: the end named, and its peer where the model has it. -/
def lnkEnds (e k : Nat) : List (Nat × Nat) := (e, k) :: (lnkPeer e k).toList

/-- The domain that powers an end. -/
def lnkDom (e : Nat) : Nat := if e < 4 then domBT e else domFAB

/-- The interrupt source of an end (R455). -/
def lnkIrq (e : Nat) : Nat := if e < 4 then 128 + 16 * e + 15 else 14
/-- The number of an end: 8 n + k on a base tile, 32 + k on the hub (R535). -/
def lnkUnit (e k : Nat) : Nat := if e < 4 then 8 * e + k else 32 + k

/-- A width or state change is reported to steward, runtime, Cleats and event log (R307). -/
def Tx.linkReport (t : Tx) (e k : Nat) : Tx :=
  ((t.irq (lnkIrq e)).notice 0x09 [lnkUnit e k]).event "LINK_CHANGE" [lnkUnit e k, t.lnkState e k]

/-! Sending. -/

/-- The CRC of an entry over its bits 111:0 followed by its data and mask flits (R300). -/
def entryCrc (low : Nat) (flits : List Byte) : Nat := crcL 16 0x8BB7 0xFFFF (leBytes 14 low ++ flits)

/-- The fields of an entry to send (R300). -/
structure LEntry where
  seq : Nat := 0
  typ : Nat
  vc : Nat := 0
  rank : Nat := 0
  hitch : Nat := 0
  len : Nat := 0
  ph : Nat := 0
  status : Nat := 0
  mid : Nat := 0
  tag : Nat := 0
  xf : Nat := 0
  addr : Nat := 0
  deriving DecidableEq, Repr, Inhabited

/-- Bits 111:0 of an entry. -/
def LEntry.low (x : LEntry) : Nat :=
  let fs := [(x.addr, 48), (x.xf, 14), (x.tag, 11), (x.mid, 12), (x.status, 3), (x.ph, 1), (x.len, 2), (x.hitch, 2),
    (x.rank, 3), (x.vc, 2), (x.typ, 4), (x.seq, 10)]
  (fs.foldl (fun (acc, p) (v, w) => (acc + v % 2 ^ w * 2 ^ p, p + w)) (0, 0)).1

/-- The 16 bytes of an entry followed by its flits. -/
def LEntry.bytes (x : LEntry) (flits : List Byte) : List Byte :=
  leBytes 14 x.low ++ leBytes 2 (entryCrc x.low flits) ++ flits

/-- An entry's fields from its 128 bits. -/
def LEntry.ofBits (w : Nat) : LEntry :=
  { seq := bits w 111 102, typ := bits w 101 98, vc := bits w 97 96, rank := bits w 95 93, hitch := bits w 92 91,
    len := bits w 90 89, ph := bits w 88 88, status := bits w 87 85, mid := bits w 84 73, tag := bits w 72 62,
    xf := bits w 61 48, addr := bits w 47 0 }

/-- A byte field of the per-VC audit registers (R328). -/
def vcByte (w vc : Nat) : Nat := bits w (8 * vc + 7) (8 * vc)
/-- The word with that field replaced. -/
def putVc (w vc v : Nat) : Nat := putBits w (8 * vc + 7) (8 * vc) v

/-- The slots a transaction takes: its entry, and each flit (R302). -/
def slotsOf (flits : List Byte) : Nat := 1 + flits.length / 64

/-- Flits unacknowledged in a module's replay buffer, four entries to a header flit (R299, R303). -/
def LinkEnd.flits (x : LinkEnd) : Nat := x.unacked.foldl (fun n (_, bs) => n + 1 + (bs.length - 16) / 64) 0

/-- The module that takes the sender's next transaction: the one the rotation points at, or the next with a
weight (R298); none while every weight is 0. -/
def Tx.dealTo (t : Tx) (e k : Nat) : Option (Nat × Nat) :=
  let (k0, n) := lnkBundle e k
  let b := t.d.bundle.at (lnkKey e k0)
  let w (i : Nat) := (t.linkOf e (k0 + i)).weight
  if b.dealt < w (b.cursor % n) then some (b.cursor % n, b.dealt)
  else ((List.range n).map fun i => (b.cursor + 1 + i) % n).findSome? fun i => if w i = 0 then none else some (i, 0)

/-- An entry leaves on module `k` with the module's next sequence number, charged to its credits and kept until
it is acknowledged (R302, R303). -/
def Tx.linkEmit (t : Tx) (e k : Nat) (x : LEntry) (flits : List Byte) : Tx :=
  let x := { x with seq := (t.linkOf e k).txSeq }
  let a := LNK_CRAUD0 (lnkBase e) k
  let t := t.setWord a (putVc (t.word a) x.vc (vcByte (t.word a) x.vc - slotsOf flits))
  let t := t.onLink e k fun l => { l with txSeq := (l.txSeq + 1) % 1024, unacked := l.unacked ++ [(x.seq, x.bytes flits)] }
  t.send "LINK" "ENTRY" ([e, k] ++ (x.bytes flits).map (·.toNat))

/-- A transaction is sent on its bundle, or held for want of a module, of credit or of replay space (R20,
R302). -/
def Tx.linkSend (t : Tx) (e k : Nat) (x : LEntry) (flits : List Byte) : Tx :=
  let (k0, _) := lnkBundle e k
  let hold (t : Tx) : Tx := t.onBundle e k fun b => { b with waiting := b.waiting ++ [(x.vc, x.bytes flits)] }
  match t.dealTo e k with
  | none => hold t
  | some (i, dealt) =>
    let m := k0 + i
    if vcByte (t.word (LNK_CRAUD0 (lnkBase e) m)) x.vc < slotsOf flits ∨ 256 < (t.linkOf e m).flits + slotsOf flits then hold t
    else (t.onBundle e k fun b => { b with cursor := i, dealt := dealt + 1 }).linkEmit e m x flits

/-- The held transactions of a bundle are tried again, oldest first. -/
def Tx.linkFlush (t : Tx) (e k : Nat) : Tx :=
  let ws := (t.d.bundle.at (lnkKey e (lnkBundle e k).1)).waiting
  let t := t.onBundle e k fun b => { b with waiting := [] }
  t.each ws fun t (_, bs) => t.linkSend e k (LEntry.ofBits (leNat (bs.take 16))) (bs.drop 16)

/-- A link-control entry: no sequence of its own, no credit, never replayed (R301). -/
def Tx.linkControl (t : Tx) (e k sub seq payload : Nat) : Tx :=
  let x : LEntry := { typ := 8, seq := seq, xf := sub * 2 ^ 10, addr := payload }
  t.send "LINK" "ENTRY" ([e, k] ++ (x.bytes []).map (·.toNat))

/-- The weights of a bundle are announced on every active module at the next epoch, and the sender deals by
them from there (R298). -/
def Tx.announce (t : Tx) (e k : Nat) : Tx :=
  let (k0, n) := lnkBundle e k
  let t := t.onBundle e k fun b => { b with epoch := (b.epoch + 1) % 2 ^ 16 }
  let ws := (List.range n).foldl (fun acc i => acc + (t.linkOf e (k0 + i)).weight * 4 ^ i) 0
  let ep := (t.d.bundle.at (lnkKey e k0)).epoch
  t.each (List.range n) fun t i => t.when (t.lnkState e (k0 + i) == 2) (·.linkControl e (k0 + i) 4 0 (ep * 2 ^ 32 + ws))

/-- The weight of an end becomes `w`, and is announced. -/
def Tx.setWeight (t : Tx) (e k w : Nat) : Tx :=
  ((t.onLink e k fun l => { l with weight := w }).announce e k)

/-! Training and repair. -/

/-- Physical lanes not excluded. -/
def goodLanes (bad : Nat) : Nat := 18 - popcount 18 bad

/-- TRAIN: from DOWN, both ends begin to train; refused otherwise (R305, R328). -/
def Tx.linkTrain (t : Tx) (e k : Nat) : Tx :=
  if k ≥ lnkCount e ∨ t.lnkState e k ≠ 0 then t.set1 (LNK_STAT_CMDREF (lnkBase e))
  else t.each (lnkEnds e k) fun t (e, k) => t.wr (LNK_MST_STATE (lnkBase e) k) 1

/-- An active module starts to drain: its weight is 0 at both ends at once (R307). -/
def Tx.linkDrain (t : Tx) (e k : Nat) : Tx :=
  let t := t.each (lnkEnds e k) fun t (e, k) => (t.wr (LNK_MST_STATE (lnkBase e) k) 3)
  (t.each (lnkEnds e k) fun t (e, k) => t.setWeight e k 0).linkReport e k

/-- RETRAIN: an active module proceeds as R307 gives; refused otherwise. -/
def Tx.linkRetrain (t : Tx) (e k : Nat) : Tx :=
  if k ≥ lnkCount e ∨ t.lnkState e k ≠ 2 then t.set1 (LNK_STAT_CMDREF (lnkBase e)) else t.linkDrain e k

/-- A write of LNK_CMD (R328). -/
def Tx.writeLnkCmd (t : Tx) (e v : Nat) : Tx :=
  match bits v 3 0 with
  | 1 => t.snapBlock (lnkBase e)
  | 2 => t.linkTrain e (bits v 12 8)
  | 3 => t.linkRetrain e (bits v 12 8)
  | _ => t.set1 (LNK_STAT_CMDREF (lnkBase e))

def execTrain (mid : Mid) (e : Fin 5) (k : Fin 18) (s : State) : Host.Outcome State Fault Refusal :=
  s.does fun t => t.swWrite mid.toNat (LNK_CMD (lnkBase e)) (·.writeLnkCmd e (2 + 256 * k.val))

def execRetrain (mid : Mid) (e : Fin 5) (k : Fin 18) (s : State) : Host.Outcome State Fault Refusal :=
  s.does fun t => t.swWrite mid.toNat (LNK_CMD (lnkBase e)) (·.writeLnkCmd e (3 + 256 * k.val))

/-- The worst lane in use of an end and its margin (R328). -/
def Tx.linkEye (t : Tx) (e k : Nat) (margins : List Nat) : Tx :=
  let bad := t.rd (LNK_LMAP_BAD (lnkBase e) k)
  let used := (List.range 18).filter fun l => !bit bad l
  match used with
  | [] => t
  | l0 :: ls =>
    let worst := ls.foldl (fun w l => if margins.getD l 0 < margins.getD w 0 then l else w) l0
    (t.wr (LNK_EYE_LANE (lnkBase e) k) worst).wr (LNK_EYE_MARGIN (lnkBase e) k) (margins.getD worst 0)

/-- A lane is excluded at a receiving end, and the repair map records it (R306, R547). -/
def Tx.laneBad (t : Tx) (e k lane : Nat) : Tx :=
  let f := LNK_LMAP_BAD (lnkBase e) k
  if bit (t.rd f) lane then t
  else (t.wr f (t.rd f ||| 2 ^ lane)).repair 2 (lnkUnit e k) (t.rd f ||| 2 ^ lane) fun r => { r with bad := r.bad.upd (lnkUnit e k) (· ||| 2 ^ lane) }

/-- The lanes whose margin lies below EYEMIN are excluded (R305). -/
def Tx.linkScan (t : Tx) (e k : Nat) (margins : List Nat) : Tx :=
  (t.each (List.range 18) fun t l => t.when (decide (margins.getD l 0 < t.rd (LNK_CTL_EYEMIN (lnkBase e)))) (·.laneBad e k l)).linkEye e k margins

/-- The stickies and the width of a trained end, `good` lanes being good in its own receive direction and
`weak` in the weaker (R297). -/
def Tx.linkWidth (t : Tx) (e k weak : Nat) : Tx :=
  let b := lnkBase e
  let spares := if weak < 16 then 0 else popcount 18 (t.rd (LNK_LMAP_BAD b k))
  let t := (t.wr (LNK_MST_X8 b k) (if 8 ≤ weak ∧ weak < 16 then 1 else 0)).wr (LNK_MST_SPUSED b k) spares
  let t := t.when (spares != 0) (·.set1 (LNK_MST_SPLICE b k))
  let t := t.when (8 ≤ weak && decide (weak < 16)) (·.set1 (LNK_MST_DEGR b k))
  t.when (decide (weak < 8)) (·.set1 (LNK_MST_DOWNED b k))

/-- A trained end starts afresh: 64 credits for each channel, sequence 0, SYNC first (R299, R305). -/
def Tx.linkStart (t : Tx) (e k : Nat) : Tx :=
  let b := lnkBase e
  let t := ((t.setWord (LNK_CRAUD0 b k) 0x40404040).setWord (LNK_CRAUD1 b k) 0).setWord (LNK_CRAUD2 b k) 0
  let t := t.onLink e k fun l => { l with rxSeq := 0, drop := false, txSeq := 0, unacked := [], low := [] }
  t.linkControl e k 3 0 (64 + 64 * 2 ^ 7 + 64 * 2 ^ 14 + 64 * 2 ^ 21)

/-- The connection of a module that has gone DOWN is lost when every module of it is DOWN: LINKLOSS, and the
report (R308). -/
def Tx.lossCheck (t : Tx) (e k : Nat) : Tx :=
  let (k0, n) := lnkBundle e k
  if (List.range n).all fun i => t.lnkState e (k0 + i) == 0 then
    let t := t.each (lnkEnds e k) fun t (e, _) => (t.set1 (LNK_STAT_LINKLOSS (lnkBase e))).irq (lnkIrq e)
    (t.notice 0x0A [lnkUnit e k0]).event "CONNECTION_LOST" [lnkUnit e k0]
  else t

/-- LINK_TRAINED (R305, R307): a module that trains or retrains ends: each end's lanes with a margin below
EYEMIN are excluded, the width follows, and the module joins its bundle or is DOWN.  `margins` and `far` are
the margins at the end named and at its peer. -/
def execLinkTrained (e : Fin 5) (k : Fin 18) (margins far : List (BitVec 6)) (s : State) : Host.Outcome State Fault Refusal :=
  s.does fun t =>
    if k.val ≥ lnkCount e ∨ (t.lnkState e k ≠ 1 ∧ t.lnkState e k ≠ 4) ∨ t.powered (lnkDom e) = false then t
    else
      let nat (xs : List (BitVec 6)) := xs.map (·.toNat)
      let t := t.linkScan e k (nat margins)
      let t := match lnkPeer e k with
        | some (e', k') => t.linkScan e' k' (nat far)
        | none => t
      let weak : Nat := (lnkEnds e k).foldl (fun (m : Nat) (e, k) => min m (goodLanes (t.rd (LNK_LMAP_BAD (lnkBase e) k)))) 18
      let t := t.each (lnkEnds e k) fun t (e, k) => t.linkWidth e k weak
      let t := t.each (lnkEnds e k) fun t (e, k) => t.wr (LNK_MST_STATE (lnkBase e) k) (if weak < 8 then 0 else 2)
      let t := if weak < 8 then t.lossCheck e k
        else t.each (lnkEnds e k) fun t (e, k) => ((t.linkStart e k).setWeight e k (if weak < 16 then 1 else 2)).linkFlush e k
      let t := t.linkReport e k
      t.when (decide (e.val < 4) && !bit (t.rd ID_VALID_VALID) (5 + e.val) && t.lnkState e k == 2) fun t => t.latchId (5 + e.val) (ID_BT e.val) (t.word (BT_ID_WORD e.val))

/-- A lane becomes marginal: MARG, excluded, and an active module drains (R306, R307). -/
def Tx.laneMarginal (t : Tx) (e k lane : Nat) : Tx :=
  let t := (t.set1 (LNK_MST_MARG (lnkBase e) k)).laneBad e k lane
  t.when (t.lnkState e k == 2) (·.linkDrain e k)

/-- EYE_MEASUREMENT (R306): a 100 µs measurement of an end's lanes; the third in a row below EYEMIN makes a
lane marginal. -/
def execEyeMeasurement (e : Fin 5) (k : Fin 18) (margins : List (BitVec 6)) (s : State) : Host.Outcome State Fault Refusal :=
  s.does fun t =>
    if k.val ≥ lnkCount e ∨ t.lnkState e k ≠ 2 then t
    else
      let ms := margins.map (·.toNat)
      let t := t.linkEye e k ms
      let bad := t.rd (LNK_LMAP_BAD (lnkBase e) k)
      t.each ((List.range 18).filter fun l => !bit bad l) fun t l =>
        let n := if ms.getD l 0 < t.rd (LNK_CTL_EYEMIN (lnkBase e)) then (t.linkOf e k).low.at l + 1 else 0
        let t := t.onLink e k fun x => { x with low := x.low.put l n }
        t.when (decide (3 ≤ n)) (·.laneMarginal e k l)

/-- LANE_LOCK_LOSS (R306): a lane in use that loses lock is marginal at once. -/
def execLaneLockLoss (e : Fin 5) (k : Fin 18) (lane : Fin 18) (s : State) : Host.Outcome State Fault Refusal :=
  s.does fun t =>
    t.when (decide (k.val < lnkCount e) && t.lnkState e k == 2 && !bit (t.rd (LNK_LMAP_BAD (lnkBase e) k)) lane)
      (·.laneMarginal e k lane)

/-- Retries are charged to lanes; RETRYMAX within 1 ms makes a lane marginal (R303, R306). -/
def Tx.chargeRetries (t : Tx) (e k : Nat) (lanes : List (Fin 18)) : Tx :=
  t.each lanes fun t l =>
    let recent := (t.linkOf e k).retries.filter fun (_, at_) => decide (t.now < at_ + 1000000)
    let t := t.onLink e k fun x => { x with retries := (l.val, t.now) :: recent }
    let n := ((t.linkOf e k).retries.filter (·.1 == l.val)).length
    t.when (decide (t.rd (LNK_CTL_RETRYMAX (lnkBase e)) ≤ n) && !bit (t.rd (LNK_LMAP_BAD (lnkBase e) k)) l) (·.laneMarginal e k l)

/-- LINK_DRAINED (R307): every entry sent on a draining module, at either end, is acknowledged, and retraining
starts. -/
def execLinkDrained (e : Fin 5) (k : Fin 18) (s : State) : Host.Outcome State Fault Refusal :=
  s.does fun t =>
    t.when (decide (k.val < lnkCount e) && t.lnkState e k == 3 &&
        (lnkEnds e k).all fun (e, k) => (t.linkOf e k).unacked.isEmpty) fun t =>
      (t.each (lnkEnds e k) fun t (e, k) => t.wr (LNK_MST_STATE (lnkBase e) k) 4).linkReport e k

/-- A write of LNK_LMAP: BAD only while the module is DOWN, otherwise it is lost (R328). -/
def Tx.writeLmap (t : Tx) (e k v : Nat) : Tx :=
  if t.lnkState e k = 0 then t.wr (LNK_LMAP_BAD (lnkBase e) k) (bits v 17 0) else t.set1 (LNK_STAT_SWLOST (lnkBase e))

/-! The guest firewall. -/

/-- Window `w` holds the bytes from `pa` to `last` (R325). -/
def Tx.fwHolds (t : Tx) (w pa last : Nat) : Bool :=
  t.is (FW_WCFG_EN w) && decide (t.pair (FW_WBASE_LO w) ≤ pa) && decide (last ≤ t.pair (FW_WLIM_LO w) / 4096 * 4096 + 4095)

/-- Why the firewall refuses a request, or the window that passes it (R325). -/
def Tx.firewall (t : Tx) (mid pa n : Nat) (write : Bool) : Except Nat Nat :=
  let last := pa + n - 1
  if mid < 0xC00 ∨ 0xD00 ≤ mid then .error 1
  else if !(decide (last < dramEnd) || (decide (scrBase ≤ pa) && decide (last < scrEnd))) then .error 2
  else
    let ws := (List.range 8).filter fun w => t.fwHolds w pa last
    let perm := ws.filter fun w => t.is (if write then FW_WCFG_W w else FW_WCFG_R w)
    let ok := perm.filter fun w => decide (0xC00 + t.rd (FW_WCFG_MIDLO w) ≤ mid) && decide (mid ≤ 0xC00 + t.rd (FW_WCFG_MIDHI w))
    if ws.isEmpty then .error 3 else if perm.isEmpty then .error 4
    else match ok with
      | w :: _ => .ok w
      | [] => .error 5

/-- A refusal is counted and logged, and interrupts the steward (R325). -/
def Tx.fwDeny (t : Tx) (mid pa why : Nat) : Tx :=
  let t := (t.setWord FW_DLOG_LO pa).setWord FW_DLOG_HI (bits pa 47 32 + why * 2 ^ 16 + mid * 2 ^ 20)
  (((t.inc FW_DENYCNT_COUNT).set1 FW_STAT_DENY).irq 16)

/-- A window has carried its ceiling, so credit is withheld on the guest link (R325). -/
def Tx.fwFull (t : Tx) : Bool :=
  (List.range 8).any fun w => t.is (FW_WCFG_EN w) && t.rd (FW_WCFG_RATE w) != 0 && decide (t.rd (FW_WCFG_RATE w) ≤ t.d.fwUsed.at w)

/-- GUEST_REQUEST (R325): a request of the guest site, a read of `len` data flits or a write of bytes, checked
by the firewall: refused, held at a window's ceiling, or served at a rank of at most GRANK. -/
def execGuestRequest (mid : Mid) (pa : Addr) (rank : Fin 8) (len : Fin 4) (data : Option (List Byte)) (s : State) :
    Host.Outcome State Fault Refusal :=
  s.does fun t =>
    if !t.powered domGS || t.fwFull then t
    else
      let n := match data with
        | some bs => max 1 bs.length
        | none => 64 * (len.val + 1)
      let tokens := len.val + 1
      let zeros := List.replicate (64 * tokens) 0
      match t.firewall mid.toNat pa.toNat n data.isSome with
      | .error why =>
        let t := t.fwDeny mid.toNat pa.toNat why
        if data.isSome then t.send "GUEST" "ACK" [mid.toNat, pa.toNat, 3] else t.send "GUEST" "RSP" ([mid.toNat, pa.toNat, 3] ++ zeros)
      | .ok w =>
        let t := { t with d := { t.d with fwUsed := t.d.fwUsed.upd w (· + tokens) } }
        let rank := min rank.val (t.rd FW_CTL_GRANK)
        match data with
        | some bs =>
          match t.physWrite mid.toNat pa.toNat bs with
          | (t, .ok ()) => t.send "GUEST" "ACK" [mid.toNat, pa.toNat, 0, rank]
          | (t, _) => t.send "GUEST" "ACK" [mid.toNat, pa.toNat, 1, rank]
        | none =>
          match t.physRead mid.toNat pa.toNat n with
          | .ok bs => t.send "GUEST" "RSP" ([mid.toNat, pa.toNat, 0, rank] ++ bs.map (·.toNat))
          | .poison _ => t.send "GUEST" "RSP" [mid.toNat, pa.toNat, 2, rank]
          | _ => t.send "GUEST" "RSP" ([mid.toNat, pa.toNat, 1, rank] ++ zeros)

end Sys2Proof.Machine
end

