-- ==== Sys2Proof/Machine/Num.lean ====
section
/-! DEFINITION.  Number formats and their conversions (file 02, R38 to R44 and R51), with the
binary32 arithmetic of the strand units (R59) and the defined exponential and reciprocal (R62, R64).
A value is held exactly, as a dyadic number, an infinity or a NaN; a rounding happens only where the
spec names one. -/

namespace Sys2Proof.Machine

/-- An exact value: a NaN, an infinity, or `(-1)^neg * m * 2^e` (a zero keeps its sign). -/
inductive FVal where
  | nan
  | inf (neg : Bool)
  | fin (neg : Bool) (m : Nat) (e : Int)
  deriving DecidableEq, Repr

/-- The format codes of R76. -/
inductive Fmt where
  | int4 | int8 | e4m3 | e5m2 | mxE4m3 | mxE5m2 | mxfp4 | mxint8 | bf16 | fp32 | int32
  deriving DecidableEq, Repr

/-- R76: the format of a code, none for a reserved code. -/
def Fmt.ofCode : Nat → Option Fmt
  | 0 => some .int4 | 1 => some .int8 | 2 => some .e4m3 | 3 => some .e5m2
  | 4 => some .mxE4m3 | 5 => some .mxE5m2 | 6 => some .mxfp4 | 7 => some .mxint8
  | 8 => some .bf16 | 9 => some .fp32 | 10 => some .int32 | _ => none

/-- Bits of one element. -/
def Fmt.width : Fmt → Nat
  | .int4 | .mxfp4 => 4
  | .int8 | .e4m3 | .e5m2 | .mxE4m3 | .mxE5m2 | .mxint8 => 8
  | .bf16 => 16
  | .fp32 | .int32 => 32

/-- Does an element of the format carry a block scale (R42)? -/
def Fmt.isMx : Fmt → Bool
  | .mxE4m3 | .mxE5m2 | .mxfp4 | .mxint8 => true
  | _ => false

/-- Is the format an integer format (R40)? -/
def Fmt.isInt : Fmt → Bool
  | .int4 | .int8 | .int32 => true
  | _ => false

/-- An integer as an exact value (zero is +0). -/
def FVal.ofInt (v : Int) : FVal := .fin (v < 0) v.natAbs 0

/-- Decode of a format with an IEEE 754 exponent rule: `eb` exponent bits, `mb` mantissa bits. -/
def decIeee (eb mb code : Nat) : FVal :=
  let s := code.testBit (eb + mb)
  let ex := bits code (eb + mb - 1) mb
  let m := code % 2 ^ mb
  let bias : Int := 2 ^ (eb - 1) - 1
  if ex = 2 ^ eb - 1 then (if m = 0 then .inf s else .nan)
  else if ex = 0 then .fin s m (1 - bias - mb)
  else .fin s (2 ^ mb + m) (ex - bias - mb)

/-- Decode of a format without specials: FP4 E2M1 (R42), and the finite codes of FP8 E4M3 (R41). -/
def decFinite (eb mb code : Nat) : FVal :=
  let s := code.testBit (eb + mb)
  let ex := bits code (eb + mb - 1) mb
  let m := code % 2 ^ mb
  let bias : Int := 2 ^ (eb - 1) - 1
  if ex = 0 then .fin s m (1 - bias - mb) else .fin s (2 ^ mb + m) (ex - bias - mb)

def decF32 (code : Nat) : FVal := decIeee 8 23 code
def decBf16 (code : Nat) : FVal := decIeee 8 7 code
def decE5m2 (code : Nat) : FVal := decIeee 5 2 code
def decE4m3 (code : Nat) : FVal := if code % 128 = 127 then .nan else decFinite 4 3 code

/-- The exact value of an element code (R40 to R43), without any block scale. -/
def Fmt.value (f : Fmt) (code : Nat) : FVal :=
  match f with
  | .int4 => .ofInt (sint 4 code)
  | .int8 => .ofInt (sint 8 code)
  | .int32 => .ofInt (sint 32 code)
  | .e4m3 | .mxE4m3 => decE4m3 (code % 256)
  | .e5m2 | .mxE5m2 => decE5m2 (code % 256)
  | .mxfp4 => decFinite 2 1 (code % 16)
  | .mxint8 => match FVal.ofInt (sint 8 code) with
    | .fin s m _ => .fin s m (-6)
    | v => v
  | .bf16 => decBf16 (code % 65536)
  | .fp32 => decF32 (code % 4294967296)

/-! ### Exact operations -/

def FVal.isNan : FVal → Bool
  | .nan => true
  | _ => false

def FVal.isInf : FVal → Bool
  | .inf _ => true
  | _ => false

def FVal.isZero : FVal → Bool
  | .fin _ m _ => m == 0
  | _ => false

def FVal.neg : FVal → FVal
  | .nan => .nan
  | .inf s => .inf (!s)
  | .fin s m e => .fin (!s) m e

def FVal.isNeg : FVal → Bool
  | .nan => false
  | .inf s => s
  | .fin s _ _ => s

/-- The signed integer `m` scaled from exponent `e` down to exponent `e0`. -/
def scaledInt (neg : Bool) (m : Nat) (e e0 : Int) : Int :=
  let v : Int := (m <<< (e - e0).toNat : Nat)
  if neg then -v else v

/-- The exact value of the integer `v` times `2 ^ e`; a zero takes the sign `zneg`. -/
def FVal.ofScaled (v : Int) (e : Int) (zneg : Bool) : FVal :=
  if v = 0 then .fin zneg 0 e else .fin (v < 0) v.natAbs e

/-- Exact addition with the IEEE 754 rules for specials and signed zeros. -/
def FVal.add : FVal → FVal → FVal
  | .nan, _ => .nan
  | _, .nan => .nan
  | .inf a, .inf b => if a = b then .inf a else .nan
  | .inf a, _ => .inf a
  | _, .inf b => .inf b
  | .fin s1 m1 e1, .fin s2 m2 e2 =>
    let e := min e1 e2
    .ofScaled (scaledInt s1 m1 e1 e + scaledInt s2 m2 e2 e) e (s1 && s2)

/-- Exact multiplication with the IEEE 754 rules for specials. -/
def FVal.mul : FVal → FVal → FVal
  | .nan, _ => .nan
  | _, .nan => .nan
  | .inf a, .inf b => .inf (a != b)
  | .inf a, .fin s m _ => if m = 0 then .nan else .inf (a != s)
  | .fin s m _, .inf b => if m = 0 then .nan else .inf (s != b)
  | .fin s1 m1 e1, .fin s2 m2 e2 => .fin (s1 != s2) (m1 * m2) (e1 + e2)

/-- The value times `2 ^ k`. -/
def FVal.scale (v : FVal) (k : Int) : FVal :=
  match v with
  | .fin s m e => .fin s m (e + k)
  | v => v

/-- Numeric comparison of two values that are no NaN: is `a` less than `b`? (−0 is not less than +0.) -/
def FVal.lt (a b : FVal) : Bool :=
  match a, b with
  | .nan, _ => false
  | _, .nan => false
  | .inf s, .inf t => s && !t
  | .inf s, .fin _ _ _ => s
  | .fin _ _ _, .inf t => !t
  | .fin s1 m1 e1, .fin s2 m2 e2 =>
    let e := min e1 e2
    decide (scaledInt s1 m1 e1 e < scaledInt s2 m2 e2 e)

/-- IEEE 754-2019 minimum (R59): a NaN gives NaN, −0 counts as less than +0. -/
def FVal.minimum (a b : FVal) : FVal :=
  if a.isNan || b.isNan then .nan
  else if a.lt b then a else if b.lt a then b
  else if a.isNeg then a else b

/-- IEEE 754-2019 maximum (R59). -/
def FVal.maximum (a b : FVal) : FVal :=
  if a.isNan || b.isNan then .nan
  else if a.lt b then b else if b.lt a then a
  else if a.isNeg then b else a

/-! ### Rounding (R38, R51) -/

/-- `m * 2 ^ (-k)` rounded to an integer, ties to even; a negative `k` shifts up. -/
def rneShift (m : Nat) (k : Int) : Nat :=
  if k ≤ 0 then m <<< (-k).toNat else (rneDiv m (2 ^ k.toNat)).toNat

/-- Is `m * 2 ^ (-k)` no integer? -/
def lostBits (m : Nat) (k : Int) : Bool := decide (0 < k) && m % 2 ^ k.toNat != 0

/-- The shift that brings `m * 2 ^ e` to the quantum of a format of precision `p` whose smallest
subnormal is `2 ^ qmin`. -/
def quantum (p : Nat) (qmin : Int) (m : Nat) (e : Int) : Int :=
  max ((m.log2 : Int) + e - (p - 1)) qmin

/-- The magnitude code of `m * 2 ^ e` rounded to precision `p`, smallest subnormal `2 ^ qmin`. It may
exceed the largest finite code of the format. -/
def roundMag (p : Nat) (qmin : Int) (m : Nat) (e : Int) : Nat :=
  if m = 0 then 0
  else
    let q := quantum p qmin m e
    (q - qmin).toNat * 2 ^ (p - 1) + rneShift m (q - e)

/-- A rounded result and what the rounding met: inexact, overflow, underflow. -/
structure Rounded where
  code : Nat
  nx : Bool := false
  of : Bool := false
  uf : Bool := false
  deriving DecidableEq, Repr

/-- What fixes a floating-point destination: bits of the code, precision, smallest subnormal's
exponent, largest finite magnitude code, infinity's code if it has one, canonical NaN. -/
structure FloatDest where
  width : Nat
  p : Nat
  qmin : Int
  maxFin : Nat
  inf : Option Nat
  nan : Nat
  deriving DecidableEq, Repr

def destF32 : FloatDest := ⟨32, 24, -149, 0x7F7FFFFF, some 0x7F800000, 0x7FC00000⟩
def destBf16 : FloatDest := ⟨16, 8, -133, 0x7F7F, some 0x7F80, 0x7FC0⟩
def destE5m2 : FloatDest := ⟨8, 3, -16, 0x7B, some 0x7C, 0x7F⟩
def destE4m3 : FloatDest := ⟨8, 4, -9, 0x7E, none, 0x7F⟩
def destE2m1 : FloatDest := ⟨4, 2, -1, 0x7, none, 0x7⟩

/-- R51: conversion to a floating-point destination with saturation bit `sat`. -/
def roundTo (d : FloatDest) (sat : Bool) (v : FVal) : Rounded :=
  let sgn (s : Bool) := if s then 2 ^ (d.width - 1) else 0
  match v with
  | .nan => { code := d.nan }
  | .inf s => match d.inf with
    | some i => { code := i + sgn s }
    | none => { code := if sat then d.maxFin + sgn s else d.nan }
  | .fin s m e =>
    let c := roundMag d.p d.qmin m e
    if d.maxFin < c then
      let code := if sat then d.maxFin + sgn s
        else match d.inf with
          | some i => i + sgn s
          | none => d.nan
      { code, nx := true, of := true }
    else
      let nx := m != 0 && lostBits m (quantum d.p d.qmin m e - e)
      { code := c + sgn s, nx, uf := nx && decide ((m.log2 : Int) + e < d.qmin + (d.p - 1)) }

/-- R51 conversion to FP32 with SAT = 0 (`round_f32`). -/
def roundF32 (v : FVal) : Nat := (roundTo destF32 false v).code

/-- The integer nearest to a finite value, ties to even. -/
def rneInt (m : Nat) (e : Int) (neg : Bool) : Int :=
  let v : Int := rneShift m (-e)
  if neg then -v else v

/-- R51: conversion to an `n`-bit integer: saturate, NaN gives 0. -/
def roundInt (n : Nat) (v : FVal) : Rounded :=
  let lo : Int := -(2 ^ (n - 1))
  let hi : Int := 2 ^ (n - 1) - 1
  match v with
  | .nan => { code := 0 }
  | .inf s => { code := scode n (if s then lo else hi) }
  | .fin s m e =>
    let i := rneInt m e s
    { code := scode n (clampI lo hi i), nx := lostBits m (-e), of := decide (i < lo) || decide (hi < i) }

/-- R51: conversion of a value to a plain (not block-scaled) format. -/
def Fmt.convert (f : Fmt) (sat : Bool) (v : FVal) : Rounded :=
  match f with
  | .int4 => roundInt 4 v
  | .int8 => roundInt 8 v
  | .int32 => roundInt 32 v
  | .e4m3 | .mxE4m3 => roundTo destE4m3 sat v
  | .e5m2 | .mxE5m2 => roundTo destE5m2 sat v
  | .bf16 => roundTo destBf16 sat v
  | .fp32 => roundTo destF32 sat v
  | .mxfp4 => roundTo destE2m1 true v
  | .mxint8 => roundInt 8 (v.scale 6)

/-! ### Block-scaled output (R52) -/

/-- `e_max` of R52. -/
def mxEmax : Fmt → Int
  | .mxE4m3 => 8 | .mxE5m2 => 15 | .mxfp4 => 2 | _ => 0

/-- Is `a` smaller in magnitude than `b` (both finite)? -/
def FVal.absLt (a b : FVal) : Bool :=
  match a, b with
  | .fin _ m1 e1, .fin _ m2 e2 => (FVal.fin false m1 e1).lt (.fin false m2 e2)
  | _, _ => false

/-- R52: a group of values converted to an MX block: the scale code and the element codes. -/
def mxGroup (f : Fmt) (vs : List FVal) : Nat × List Nat :=
  if vs.any (fun v => v.isNan || v.isInf) then (0xFF, vs.map fun _ => 0)
  else match vs.foldl (fun a v => if a.absLt v then v else a) (.fin false 0 0) with
    | .fin _ m e =>
      if m = 0 then (0, vs.map fun _ => 0)
      else
        let code := clampI 0 254 ((m.log2 : Int) + e - mxEmax f + 127)
        (code.toNat, vs.map fun v => (f.convert true (v.scale (127 - code))).code)
    | _ => (0, [])

/-! ### Binary32 arithmetic (R59) on codes -/

def fadd (a b : Nat) : Nat := roundF32 ((decF32 a).add (decF32 b))
def fsub (a b : Nat) : Nat := roundF32 ((decF32 a).add (decF32 b).neg)
def fmul (a b : Nat) : Nat := roundF32 ((decF32 a).mul (decF32 b))

/-- The exact square root to more bits than binary32 keeps, with a sticky bit below them. -/
def FVal.sqrtVal : FVal → FVal
  | .nan => .nan
  | .inf s => if s then .nan else .inf false
  | .fin s m e =>
    if m = 0 then .fin s 0 0
    else if s then .nan
    else
      let k := 64 + (e % 2).toNat
      let n := m <<< k
      let r := isqrt n
      .fin false (2 * r + if r * r = n then 0 else 1) ((e - k) / 2 - 1)

/-- Correctly rounded square root (R59). -/
def fsqrt (a : Nat) : Nat := roundF32 (decF32 a).sqrtVal

/-! ### Exponential (R62) -/

/-- `E[j]` of R62: `2 ^ (j / 64) * 2 ^ 30`, correctly rounded. -/
def expTable : List Nat :=
  [0x40000000, 0x40b268fa, 0x4166c34c, 0x421d1462, 0x42d561b4, 0x438fb0cb, 0x444c0740, 0x450a6abb,
  0x45cae0f2, 0x468d6fae, 0x47521cc6, 0x4818ee22, 0x48e1e9ba, 0x49ad1598, 0x4a7a77d4, 0x4b4a169c,
  0x4c1bf829, 0x4cf022ca, 0x4dc69cdd, 0x4e9f6cd4, 0x4f7a9930, 0x50582888, 0x51382182, 0x521a8ad7,
  0x52ff6b55, 0x53e6c9da, 0x54d0ad5a, 0x55bd1cdb, 0x56ac1f75, 0x579dbc57, 0x5891fac1, 0x5988e209,
  0x5a82799a, 0x5b7ec8f2, 0x5c7dd7a4, 0x5d7fad59, 0x5e8451d0, 0x5f8bccdb, 0x60962665, 0x61a3666d,
  0x62b39509, 0x63c6ba64, 0x64dcdec3, 0x65f60a7f, 0x6712460b, 0x683199ed, 0x69540ec9, 0x6a79ad56,
  0x6ba27e65, 0x6cce8ae1, 0x6dfddbcc, 0x6f307a41, 0x70666f76, 0x719fc4b9, 0x72dc8374, 0x741cb528,
  0x75606374, 0x76a7980f, 0x77f25cce, 0x7940bb9e, 0x7a92be8b, 0x7be86fba, 0x7d41d96e, 0x7e9f0606]

/-- R62: `exp_f32`. -/
def expF32 (x : Nat) : Nat :=
  match decF32 x with
  | .nan => 0x7FC00000
  | .inf s => if s then 0 else 0x7F800000
  | .fin s m e =>
    if !(FVal.fin s m e).lt (.fin false 89 0) then 0x7F800000
    else if !(FVal.fin true 104 0).lt (.fin s m e) then 0
    else
      let bigX : Int := rneInt m (e + 24) s
      let t : Int := (bigX * 0x5C551D95 + 2 ^ 29) / 2 ^ 30
      let n : Int := t / 2 ^ 24
      let f : Nat := (t % 2 ^ 24).toNat
      let j := f / 2 ^ 18
      let r := (f % 2 ^ 18) * 2 ^ 7
      let p := 0x071AC236
      let p := 0x1EBFBE00 + p * r / 2 ^ 31
      let p := 0x58B90BFC + p * r / 2 ^ 31
      let p := 0x80000000 + p * r / 2 ^ 31
      let mm := (expTable.getD j 0 * p + 2 ^ 30) / 2 ^ 31
      roundF32 (.fin false mm (n - 30))

/-! ### Reciprocal (R64) -/

/-- `A_k[i]` of R64: `2 ^ 31 / a_i ^ (k + 1)` with `a_i = (257 + 2 i) / 256`, correctly rounded. -/
def recipCoeff (k i : Nat) : Int := rneDiv (2 ^ 31 * 256 ^ (k + 1)) ((257 + 2 * i) ^ (k + 1))

/-- R64: `recip_f32`. -/
def recipF32 (x : Nat) : Nat :=
  match decF32 x with
  | .nan => 0x7FC00000
  | .inf s => if s then 0x80000000 else 0
  | .fin s m e =>
    if m = 0 then (if s then 0xFF800000 else 0x7F800000)
    else
      let l := m.log2
      let ex : Int := e + l
      let f := (m <<< (23 - l)) - 2 ^ 23
      if f = 0 then roundF32 (.fin s 1 (-ex))
      else
        let i := f / 2 ^ 16
        let u : Int := (((f % 2 ^ 16 : Nat) : Int) - 0x8000) * 256
        let p := recipCoeff 3 i
        let p := recipCoeff 2 i - p * u / 2 ^ 31
        let p := recipCoeff 1 i - p * u / 2 ^ 31
        let p := recipCoeff 0 i - p * u / 2 ^ 31
        roundF32 (.ofScaled (if s then -p else p) (-31 - ex) s)

end Sys2Proof.Machine
end

