-- ==== Sys2Proof/Machine/Accum.lean ====
section
/-! DEFINITION.  The two accumulation modes (file 02, R44 to R58), their partials, the conversions that
close K, and the canonical sums and softmax of the strand units (R61, R65). -/

namespace Sys2Proof.Machine

/-- The accumulation modes of R44; exact mode is named with its row. -/
inductive AccMode where
  | exactInt | exactFp8 | canonical
  deriving DecidableEq, Repr

/-- R44: the mode an operand pair selects, none where the pair is not accepted. -/
def AccMode.ofPair (a b : Fmt) : Option AccMode :=
  let int8or4 (f : Fmt) := f = .int8 ∨ f = .int4
  let fp8 (f : Fmt) := f = .e4m3 ∨ f = .e5m2
  if int8or4 a ∧ int8or4 b then some .exactInt
  else if fp8 a ∧ fp8 b then some .exactFp8
  else if a.isMx ∧ b.isMx then some .canonical
  else if a = .bf16 ∧ b = .bf16 then some .canonical
  else none

/-- R77: the output formats each mode accepts. -/
def AccMode.accepts (m : AccMode) (o : Fmt) : Bool :=
  match m, o with
  | .exactInt, .int32 | .exactInt, .int8 | .exactInt, .int4 | .exactInt, .fp32 | .exactInt, .bf16 => true
  | .exactFp8, .fp32 | .exactFp8, .bf16 | .exactFp8, .e4m3 | .exactFp8, .e5m2 => true
  | .canonical, .fp32 | .canonical, .bf16 | .canonical, .e4m3 | .canonical, .e5m2
  | .canonical, .mxE4m3 | .canonical, .mxE5m2 | .canonical, .mxfp4 | .canonical, .mxint8 => true
  | _, _ => false

/-! ### Special flags and exact sums (R45, R46) -/

/-- The flags Q, P and N of R45. -/
structure Flags where
  q : Bool := false
  p : Bool := false
  n : Bool := false
  deriving DecidableEq, Repr

/-- What a special value adds to the flags. -/
def Flags.note (f : Flags) (v : FVal) : Flags :=
  match v with
  | .nan => { f with q := true }
  | .inf s => if s then { f with n := true } else { f with p := true }
  | .fin _ _ _ => f

/-- R46: the value a flag set resolves to, if it decides. -/
def Flags.resolve (f : Flags) : Option FVal :=
  if f.q || (f.p && f.n) then some .nan
  else if f.p then some (.inf false)
  else if f.n then some (.inf true)
  else none

/-- An exact sum with its flags: `m * 2 ^ e`. -/
structure ESum where
  m : Int := 0
  e : Int := 0
  f : Flags := {}
  deriving DecidableEq, Repr

/-- Add one exact value (a product, or an element under R61) to the sum. -/
def ESum.add (s : ESum) (v : FVal) : ESum :=
  match v with
  | .fin neg m e =>
    if s.m = 0 then { s with m := scaledInt neg m 0 0, e := e }
    else
      let e0 := min s.e e
      { s with m := scaledInt (s.m < 0) s.m.natAbs s.e e0 + scaledInt neg m e e0, e := e0 }
  | v => { s with f := s.f.note v }

/-- The value of a sum: the flags first, an exact zero is +0. -/
def ESum.value (s : ESum) : FVal :=
  match s.f.resolve with
  | some v => v
  | none => .ofScaled s.m s.e false

/-- The exact sum of a list of values. -/
def exactSum (vs : List FVal) : ESum := vs.foldl ESum.add {}

/-! ### The fixed tree (R53) -/

/-- One node of the tree: an absent leaf passes its neighbour. -/
def addNode {α : Type} (f : α → α → α) : Option α → Option α → Option α
  | none, q => q
  | p, none => p
  | some p, some q => some (f p q)

/-- One level of the balanced tree. -/
def treeLevel {α : Type} (f : α → α → α) : List (Option α) → List (Option α)
  | a :: b :: r => addNode f a b :: treeLevel f r
  | l => l

/-- `k` levels of the balanced tree, then its root. -/
def treeRoot {α : Type} (f : α → α → α) : Nat → List (Option α) → Option α
  | 0, l => l.head?.join
  | k + 1, l => treeRoot f k (treeLevel f l)

/-- The number of levels of a tree over `n` leaves padded to a power of two. -/
def treeDepth (n : Nat) : Nat := if n ≤ 1 then 0 else (n - 1).log2 + 1

/-- R53: the balanced tree over the leaves, padded on the right with absent ones. -/
def tree {α : Type} (f : α → α → α) (leaves : List α) : Option α :=
  let k := treeDepth leaves.length
  treeRoot f k (leaves.map some ++ List.replicate (2 ^ k - leaves.length) none)

/-- R57 `push_segment`: `stack` has its top first, `c` segments are complete. -/
def pushSegment {α : Type} (f : α → α → α) : List α → Nat → α → List α
  | [], _, v => [v]
  | p :: rest, c, v => if c % 2 = 1 then pushSegment f rest (c / 2) (f p v) else v :: p :: rest

/-- R57: push segment results one after the other. -/
def pushAll {α : Type} (f : α → α → α) : List α → Nat → List α → List α
  | stack, _, [] => stack
  | stack, c, v :: vs => pushAll f (pushSegment f stack c v) (c + 1) vs

/-- R57 `close`: fold the remaining subtrees, top to bottom. -/
def closeStack {α : Type} (f : α → α → α) : List α → Option α
  | [] => none
  | t :: rest => some (rest.foldl (fun r e => f e r) t)

/-- A list cut into pieces of `n`. -/
def chunks {α : Type} (n : Nat) : Nat → List α → List (List α)
  | 0, _ => []
  | fuel + 1, l => if l.isEmpty then [] else l.take n :: chunks n fuel (l.drop n)

/-! ### Canonical results (R53, R54, R61) -/

/-- R54: the block result of the products of one block, with the codes of its two scales. -/
def blockResult (products : List FVal) (sa sb : Nat) : Nat :=
  if sa = 0xFF ∨ sb = 0xFF then 0x7FC00000
  else roundF32 ((exactSum products).value.scale ((sa : Int) + sb - 254))

/-- R53: a segment result from the block results of its blocks that exist. -/
def segmentResult (leaves : List Nat) : Nat :=
  (treeRoot fadd 4 (leaves.map some ++ List.replicate (16 - leaves.length) none)).getD 0

/-- R61: the canonical sum of a row of FP32 codes. -/
def canonSum (xs : List Nat) : Nat :=
  let blocks := (chunks 32 xs.length xs).map fun b => roundF32 (exactSum (b.map decF32)).value
  let segs := (chunks 16 blocks.length blocks).map segmentResult
  (tree fadd segs).getD 0

/-- R61: a canonical mean. -/
def canonMean (xs : List Nat) : Nat :=
  fmul (canonSum xs) (recipF32 (roundF32 (.ofInt xs.length)))

/-- R65: softmax of a row of FP32 codes. -/
def softmaxF32 (xs : List Nat) : List Nat :=
  let vs := xs.map decF32
  if vs.any (fun v => v.isNan || v = .inf false) then xs.map fun _ => 0x7FC00000
  else if vs.all (fun v => v = .inf true) then xs.map fun _ => 0
  else
    let m := roundF32 (vs.foldl FVal.maximum (.inf true))
    let es := xs.map fun x => expF32 (fsub x m)
    let q := recipF32 (canonSum es)
    es.map fun e => fmul e q

/-! ### Exact mode (R45 to R50) -/

/-- The exact-mode accumulator: the value is `a * 2 ^ (-32)`. -/
structure XAcc where
  a : Int := 0
  f : Flags := {}
  deriving DecidableEq, Repr

/-- R46: add a product. -/
def XAcc.add (x : XAcc) (v : FVal) : XAcc :=
  match v with
  | .fin neg m e => { x with a := x.a + scaledInt neg m e (-32) }
  | v => { x with f := x.f.note v }

/-- R46: the resolved result. -/
def XAcc.value (x : XAcc) : FVal :=
  match x.f.resolve with
  | some v => v
  | none => .ofScaled x.a (-32) false

/-- R48: the 16 bytes of an exact partial. -/
def XAcc.pack (x : XAcc) : List Byte :=
  leBytes 12 (scode 96 x.a) ++
    leBytes 4 ((if x.f.q then 1 else 0) + (if x.f.p then 2 else 0) + (if x.f.n then 4 else 0))

/-- R48: read an exact partial; none where a reserved bit is not zero. -/
def XAcc.unpack (bs : List Byte) : Option XAcc :=
  let w := leNat bs
  let f := bits w 127 96
  if f / 8 ≠ 0 then none
  else some { a := sint 96 w, f := ⟨f.testBit 0, f.testBit 1, f.testBit 2⟩ }

/-- R50: a requantisation parameter set. -/
structure Requant where
  m : Int
  s : Nat
  z : Int
  deriving DecidableEq, Repr

/-- R79: the requantisation parameters of one column, from their 8 bytes. -/
def Requant.ofBytes (bs : List Byte) : Requant :=
  let w := leNat bs
  ⟨sint 32 w, bits w 39 32, sint 8 (bits w 47 40)⟩

/-- R50: requantise the integer `v` to an `n`-bit integer. -/
def Requant.apply (r : Requant) (n : Nat) (v : Int) : Nat :=
  scode n (clampI (-(2 ^ (n - 1))) (2 ^ (n - 1) - 1) (rneDiv (v * r.m) (2 ^ r.s) + r.z))

/-- R49: the conversion that closes K in the integer row of exact mode. -/
def closeExactInt (o : Fmt) (sat : Bool) (x : XAcc) (bias : Int) (rq : Requant) : Nat :=
  let v := x.a / 2 ^ 32 + bias
  match o with
  | .int8 => rq.apply 8 v
  | .int4 => rq.apply 4 v
  | o => (o.convert sat (.ofInt v)).code

/-- R49: the conversion that closes K in the FP8 row of exact mode. -/
def closeExactFp8 (o : Fmt) (sat : Bool) (x : XAcc) (bias : Option Nat) : Nat :=
  let v := match bias with
    | some b => x.value.add (decF32 b)
    | none => x.value
  (o.convert sat v).code

/-! ### Canonical mode (R55 to R58) -/

/-- The fold state of a canonical accumulation: segments completed, subtrees with the top first. -/
structure CAcc where
  c : Nat := 0
  stack : List Nat := []
  deriving DecidableEq, Repr

/-- R57: the 48 bytes of a canonical partial. -/
def CAcc.pack (x : CAcc) : List Byte :=
  let slots := x.stack.reverse
  leBytes 4 x.c ++ ((slots ++ List.replicate (11 - slots.length) 0).flatMap (leBytes 4))

/-- R57: read a canonical partial for a step that starts at segment `seg`; none on either refusal. -/
def CAcc.unpack (seg : Nat) (bs : List Byte) : Option CAcc :=
  let c := leNat (bs.take 4)
  let slots := (List.range 11).map fun i => leNat ((bs.drop (4 + 4 * i)).take 4)
  let k := popcount 32 c
  if c ≠ seg ∨ (slots.drop k).any (· ≠ 0) then none
  else some ⟨c, (slots.take k).reverse⟩

/-- R57: take one more segment result. -/
def CAcc.push (x : CAcc) (v : Nat) : CAcc := ⟨x.c + 1, pushSegment fadd x.stack x.c v⟩

/-- R58, step 1: the FP32 value of a closed canonical element with its bias. -/
def closeCanonF32 (sat : Bool) (x : CAcc) (bias : Option Nat) : Nat :=
  let r := (closeStack fadd x.stack).getD 0
  match bias with
  | some b => (roundTo destF32 sat ((decF32 r).add (decF32 b))).code
  | none => r

/-- R58, step 2: the conversion to a plain output format. -/
def closeCanon (o : Fmt) (sat : Bool) (x : CAcc) (bias : Option Nat) : Nat :=
  let r := closeCanonF32 sat x bias
  match o with
  | .fp32 => r
  | o => (o.convert sat (decF32 r)).code

end Sys2Proof.Machine
end

