-- ==== Sys2Proof/Machine/TileStep.lean ====
section
/-! DEFINITION.  The tile step of the Braid and of the whipping engine (file 03, R69 to R89; file 04,
R116 to R118): descriptor, checks at decode, step counts, and the bytes a step writes to staging. -/

namespace Sys2Proof.Machine

/-- Reading one byte of a die's staging. -/
abbrev Rd := Nat → Byte

/-- `n` bytes of staging from `a`, little-endian. -/
def Rd.le (rd : Rd) (a n : Nat) : Nat := leNat ((List.range n).map fun i => rd (a + i))

/-- `n` bytes of staging from `a`. -/
def Rd.bytes (rd : Rd) (a n : Nat) : List Byte := (List.range n).map fun i => rd (a + i)

/-- Element `i`, of `w` bits, of the row at `base` (R40, R79). -/
def Rd.elem (rd : Rd) (base i w : Nat) : Nat :=
  if w = 4 then (if i % 2 = 0 then (rd (base + i / 2)).toNat % 16 else (rd (base + i / 2)).toNat / 16)
  else rd.le (base + i * (w / 8)) (w / 8)

/-- Bytes that `n` elements of `w` bits occupy. -/
def packedBytes (n w : Nat) : Nat := (n * w + 7) / 8

/-- The bytes of a row of element codes at `base`. The free nibble of an odd 4-bit row keeps what the
row tail holds, which is neither read nor written (R79). -/
def packRow (rd : Rd) (base w : Nat) (codes : List Nat) : List (Nat × Byte) :=
  if w = 4 then
    (List.range ((codes.length + 1) / 2)).map fun i =>
      let lo := codes.getD (2 * i) 0
      let hi := if 2 * i + 1 < codes.length then codes.getD (2 * i + 1) 0 else (rd (base + i)).toNat / 16
      (base + i, BitVec.ofNat 8 (lo % 16 + 16 * hi))
  else
    let bs := codes.flatMap fun c => leBytes (w / 8) c
    (List.range bs.length).zip bs |>.map fun p => (base + p.1, p.2)

/-- A list of bytes placed from `base` on. -/
def placeBytes (base : Nat) (bs : List Byte) : List (Nat × Byte) :=
  (List.range bs.length).zip bs |>.map fun p => (base + p.1, p.2)

/-! ### Staging regions -/

/-- The end of staging (R75). -/
def stagingEnd : Nat := 0x1800000

/-- A region: `rows` rows of `len` bytes, `pitch` bytes apart. -/
structure Region where
  base : Nat
  pitch : Nat
  rows : Nat
  len : Nat
  deriving DecidableEq, Repr

/-- One past the last byte of the region. -/
def Region.stop (r : Region) : Nat := r.base + (r.rows - 1) * r.pitch + r.len

/-- R81: inside staging, aligned, and every pitch holds its row. -/
def Region.ok (r : Region) : Bool :=
  decide (r.base % 64 = 0) && decide (r.len ≤ r.pitch) && decide (r.stop ≤ stagingEnd)

/-- Do the rows of two regions share a byte? -/
def Region.meets (x y : Region) : Bool :=
  decide (x.base < y.stop) && decide (y.base < x.stop) &&
    (List.range x.rows).any fun i => (List.range y.rows).any fun j =>
      decide (x.base + i * x.pitch < y.base + j * y.pitch + y.len) &&
        decide (y.base + j * y.pitch < x.base + i * x.pitch + x.len)

/-- R81, R100: every region is sound and no output meets another output or an input. -/
def regionsOk (ins outs : List Region) : Bool :=
  (ins ++ outs).all Region.ok && outs.all (fun o => !ins.any o.meets) &&
    match outs with
    | [a, b] => !a.meets b
    | _ => true

/-! ### The descriptor (R75) -/

/-- A tile-step descriptor: its 32 words. -/
structure TileDesc where
  words : List Nat
  deriving DecidableEq, Repr

namespace TileDesc

def w (d : TileDesc) (i : Nat) : Nat := d.words.getD i 0
def opc (d : TileDesc) : Nat := bits (d.w 0) 31 24
def whip (d : TileDesc) : Bool := d.opc == 0x18 || d.opc == 0x19
def conv (d : TileDesc) : Bool := d.opc == 0x11 || d.opc == 0x19
def afmt? (d : TileDesc) : Option Fmt := Fmt.ofCode (bits (d.w 0) 23 20)
def bfmt? (d : TileDesc) : Option Fmt := Fmt.ofCode (bits (d.w 0) 19 16)
def ofmt? (d : TileDesc) : Option Fmt := Fmt.ofCode (bits (d.w 0) 15 12)
def afmt (d : TileDesc) : Fmt := d.afmt?.getD .int8
def bfmt (d : TileDesc) : Fmt := d.bfmt?.getD .int8
def ofmt (d : TileDesc) : Fmt := d.ofmt?.getD .int8
def sat (d : TileDesc) : Bool := bit (d.w 0) 11
def biasen (d : TileDesc) : Bool := bit (d.w 0) 10
def ktotal (d : TileDesc) : Nat := bits (d.w 1) 24 0
def kstart (d : TileDesc) : Nat := bits (d.w 2) 24 0
def kend (d : TileDesc) : Nat := bits (d.w 3) 24 0
def ncount (d : TileDesc) : Nat := bits (d.w 4) 31 16
def mcount (d : TileDesc) : Nat := bits (d.w 4) 15 0
def aaddr (d : TileDesc) : Nat := bits (d.w 5) 24 0
def baddr (d : TileDesc) : Nat := bits (d.w 6) 24 0
def oaddr (d : TileDesc) : Nat := bits (d.w 7) 24 0
def pinaddr (d : TileDesc) : Nat := bits (d.w 8) 24 0
def biasaddr (d : TileDesc) : Nat := bits (d.w 9) 24 0
def qpaddr (d : TileDesc) : Nat := bits (d.w 10) 24 0
def ascaddr (d : TileDesc) : Nat := bits (d.w 11) 24 0
def bscaddr (d : TileDesc) : Nat := bits (d.w 12) 24 0
def oscaddr (d : TileDesc) : Nat := bits (d.w 13) 24 0
def bpitch (d : TileDesc) : Nat := bits (d.w 14) 31 16
def apitch (d : TileDesc) : Nat := bits (d.w 14) 15 0
def ppitch (d : TileDesc) : Nat := bits (d.w 15) 31 16
def opitch (d : TileDesc) : Nat := bits (d.w 15) 15 0
def iw (d : TileDesc) : Nat := bits (d.w 16) 31 16
def ih (d : TileDesc) : Nat := bits (d.w 16) 15 0
def dx (d : TileDesc) : Nat := bits (d.w 17) 31 30 + 1
def dy (d : TileDesc) : Nat := bits (d.w 17) 29 28 + 1
def sx (d : TileDesc) : Nat := bits (d.w 17) 27 26 + 1
def sy (d : TileDesc) : Nat := bits (d.w 17) 25 24 + 1
def fw (d : TileDesc) : Nat := bits (d.w 17) 22 20 + 1
def fh (d : TileDesc) : Nat := bits (d.w 17) 18 16 + 1
def cin (d : TileDesc) : Nat := bits (d.w 17) 12 0
def ow (d : TileDesc) : Nat := bits (d.w 18) 31 16
def padval (d : TileDesc) : Nat := bits (d.w 18) 15 8
def padl (d : TileDesc) : Nat := bits (d.w 18) 7 4
def padt (d : TileDesc) : Nat := bits (d.w 18) 3 0
def mstart (d : TileDesc) : Nat := bits (d.w 19) 23 0
def kslice (d : TileDesc) : Nat := d.kend - d.kstart
def closes (d : TileDesc) : Bool := d.kend == d.ktotal
def readsPartial (d : TileDesc) : Bool := decide (0 < d.kstart)
def mode? (d : TileDesc) : Option AccMode :=
  match d.afmt?, d.bfmt? with
  | some a, some b => AccMode.ofPair a b
  | _, _ => none
def mode (d : TileDesc) : AccMode := d.mode?.getD .exactInt
/-- R79: bytes of one stored position. -/
def pstr (d : TileDesc) : Nat := ceilDiv (d.cin * d.afmt.width) 256 * 32
/-- Bytes of one partial (R48, R57). -/
def psize (d : TileDesc) : Nat := if d.mode = .canonical then 48 else 16

/-! ### Rates and step counts (R71, R83, R118) -/

/-- ρ of R71. -/
def rho (d : TileDesc) : Nat := if d.afmt.width = 4 ∧ d.bfmt.width = 4 then 2 else 1
/-- c of R71. -/
def cost (d : TileDesc) : Nat := if d.afmt = .bf16 ∧ d.bfmt = .bf16 then 4 else 1
def groups (d : TileDesc) : Nat := ceilDiv d.mcount 128
/-- Rows of row group `g` (R82). -/
def groupRows (d : TileDesc) (g : Nat) : Nat := min 128 (d.mcount - 128 * g)

/-- The step count on an `h × wd` array whose first load takes `first` steps. -/
def stepCount (d : TileDesc) (h wd first : Nat) : Nat :=
  let p := ceilDiv d.kslice (h * d.rho)
  let tn := ceilDiv d.ncount wd
  let body := ((List.range d.groups).map fun g => tn * p * max (d.groupRows g * d.cost) first).sum
  first + body + h + wd + 24 + d.groupRows (d.groups - 1)

/-- R83 on the Braid, R118 on the whipping engine, for a shape of `h × wd`. -/
def steps (d : TileDesc) (h wd : Nat) : Nat :=
  if d.whip then d.stepCount 64 16 64 else d.stepCount h wd 128

/-- R84: the largest count over the four shapes; the whipping engine has one shape. -/
def stepsMax (d : TileDesc) : Nat :=
  if d.whip then d.stepCount 64 16 64
  else max (max (d.stepCount 512 512 128) (d.stepCount 512 256 128))
    (max (d.stepCount 256 512 128) (d.stepCount 256 256 128))

/-! ### Regions (R79, R81) -/

def inRegions (d : TileDesc) : List Region :=
  (if d.conv then
    [⟨d.aaddr, d.apitch * 64, d.ih, d.iw * d.pstr⟩] ++
      (if d.afmt.isMx then
        let n := d.ih * d.iw * d.cin / 32
        [⟨d.ascaddr, n, 1, n⟩] else [])
  else
    [⟨d.aaddr, d.apitch * 64, d.mcount, packedBytes d.kslice d.afmt.width⟩] ++
      (if d.afmt.isMx then
        let n := ceilDiv d.kslice 32
        [⟨d.ascaddr, alignUp n 64, d.mcount, n⟩] else [])) ++
  [⟨d.baddr, d.bpitch * 64, d.kslice, packedBytes d.ncount d.bfmt.width⟩] ++
  (if d.bfmt.isMx then [⟨d.bscaddr, alignUp d.ncount 64, ceilDiv d.kslice 32, d.ncount⟩] else []) ++
  (if d.readsPartial then [⟨d.pinaddr, d.ppitch * 64, d.mcount, d.ncount * d.psize⟩] else []) ++
  (if d.closes ∧ d.biasen then [⟨d.biasaddr, d.ncount * 4, 1, d.ncount * 4⟩] else []) ++
  (if d.closes ∧ (d.ofmt = .int8 ∨ d.ofmt = .int4) then [⟨d.qpaddr, d.ncount * 8, 1, d.ncount * 8⟩]
    else [])

def outRegions (d : TileDesc) : List Region :=
  if d.closes then
    [⟨d.oaddr, d.opitch * 64, d.mcount, packedBytes d.ncount d.ofmt.width⟩] ++
      (if d.ofmt.isMx then
        let n := d.ncount / 32
        [⟨d.oscaddr, alignUp n 64, d.mcount, n⟩] else [])
  else [⟨d.oaddr, d.opitch * 64, d.mcount, d.ncount * d.psize⟩]

/-! ### Checks at decode (R88, R117) -/

/-- Reserved bits of the descriptor, word by word (R75). -/
def reservedMask : List Nat :=
  [0x3FF, 0xFE000000, 0xFE000000, 0xFE000000, 0] ++ List.replicate 9 0xFE000000 ++
    [0, 0, 0, 0x0088E000, 0, 0xFF000000] ++ List.replicate 12 0xFFFFFFFF

/-- R78: a reserved bit or an unused field is not zero. -/
def unusedSet (d : TileDesc) : Bool :=
  let quant := decide (d.ofmt = .int8 ∨ d.ofmt = .int4)
  (List.range 32).any (fun i => d.w i &&& reservedMask.getD i 0 != 0) ||
  (!d.conv && [16, 17, 18, 19].any (fun i => d.w i != 0)) ||
  (!d.readsPartial && (d.pinaddr != 0 || d.ppitch != 0)) ||
  (!d.biasen && d.biasaddr != 0) ||
  (!quant && d.qpaddr != 0) ||
  (!d.afmt.isMx && d.ascaddr != 0) || (!d.bfmt.isMx && d.bscaddr != 0) ||
  (!d.ofmt.isMx && d.oscaddr != 0) ||
  (!d.closes && (d.biasen || d.biasaddr != 0 || d.qpaddr != 0 || d.oscaddr != 0)) ||
  (d.conv && d.afmt.width == 4 && d.padval / 16 != 0)

/-- R88: a count or geometry field outside its range. -/
def geometryBad (d : TileDesc) : Bool :=
  let within (v lo hi : Nat) := decide (lo ≤ v) && decide (v ≤ hi)
  !within d.mcount 1 16384 || !within d.ncount 1 4096 ||
  (d.conv && (!within d.iw 1 4096 || !within d.ih 1 4096 || !within d.cin 1 4096 ||
    !within d.ow 1 4096 || decide (7 < d.padt) || decide (7 < d.padl)))

/-- R81: the regions of the step. -/
def regionsBad (d : TileDesc) : Bool := !regionsOk d.inRegions d.outRegions

/-- The faults of R88 (and 0x21 of R117) that are found at decode, with their conditions, in
ascending code. `available` says that the engine has a usable shape. -/
def decodeChecks (d : TileDesc) (available : Bool) : List (Nat × Bool) :=
  let canon := decide (d.mode = .canonical)
  [(0x01, d.mode?.isNone),
   (0x02, (match d.ofmt? with
      | some o => !d.mode.accepts o
      | none => true) || (d.ofmt.isMx && d.ncount % 32 != 0)),
   (0x10, d.ktotal == 0 || decide ((if canon then 2 ^ 20 else 2 ^ 24) < d.ktotal)),
   (0x11, canon && (d.kstart % 512 != 0 || (d.kend % 512 != 0 && d.kend != d.ktotal))),
   (0x12, decide (d.kend ≤ d.kstart) || decide (d.ktotal < d.kend) ||
      (d.conv && d.ktotal != d.fh * d.fw * d.cin)),
   (0x15, d.conv && d.afmt.isMx && d.cin % 32 != 0),
   (0x16, d.geometryBad),
   (0x17, d.regionsBad),
   (0x18, d.unusedSet),
   (0x19, decide (18000 < d.stepsMax)),
   (0x20, !available),
   (0x21, d.whip && decide (16 < d.ncount) && decide (16 < if d.conv then d.cin else d.ktotal))]

/-- The lowest fault found at decode (R88), none for an accepted descriptor. -/
def decodeFault (d : TileDesc) (available : Bool) : Option Nat :=
  ((d.decodeChecks available).find? (·.2)).map (·.1)

/-! ### What the step computes -/

/-- R80: where row `m`, K index `k` of a CONV reads operand A: the position, none outside the stored
input, and the channel. -/
def convPos (d : TileDesc) (m k : Nat) : Option (Nat × Nat) × Nat :=
  let ch := k % d.cin
  let tap := k / d.cin
  let p := d.mstart + m
  let iy : Int := (p / d.ow * d.sy + tap / d.fw * d.dy : Nat) - (d.padt : Int)
  let ix : Int := (p % d.ow * d.sx + tap % d.fw * d.dx : Nat) - (d.padl : Int)
  if 0 ≤ iy ∧ iy < d.ih ∧ 0 ≤ ix ∧ ix < d.iw then (some (iy.toNat, ix.toNat), ch) else (none, ch)

/-- The value of operand A at row `m`, K index `k`. -/
def aVal (d : TileDesc) (rd : Rd) (m k : Nat) : FVal :=
  d.afmt.value <|
    if d.conv then
      match d.convPos m k with
      | (some (y, x), ch) => rd.elem (d.aaddr + y * d.apitch * 64 + x * d.pstr) ch d.afmt.width
      | (none, _) => d.padval
    else rd.elem (d.aaddr + m * d.apitch * 64) (k - d.kstart) d.afmt.width

/-- The scale code of operand A at row `m`, K index `k`; 127 for a format without scales. -/
def aScale (d : TileDesc) (rd : Rd) (m k : Nat) : Nat :=
  if d.afmt.isMx then
    if d.conv then
      match d.convPos m k with
      | (some (y, x), ch) => (rd (d.ascaddr + (y * d.iw + x) * d.cin / 32 + ch / 32)).toNat
      | (none, _) => 127
    else (rd (d.ascaddr + m * alignUp (ceilDiv d.kslice 32) 64 + (k - d.kstart) / 32)).toNat
  else 127

/-- The value of operand B at K index `k`, column `n`. -/
def bVal (d : TileDesc) (rd : Rd) (k n : Nat) : FVal :=
  d.bfmt.value (rd.elem (d.baddr + (k - d.kstart) * d.bpitch * 64) n d.bfmt.width)

/-- The scale code of operand B. -/
def bScale (d : TileDesc) (rd : Rd) (k n : Nat) : Nat :=
  if d.bfmt.isMx then (rd (d.bscaddr + (k - d.kstart) / 32 * alignUp d.ncount 64 + n)).toNat else 127

/-- The exact accumulator of element `(m, n)`, from its partial `x`. -/
def exactAcc (d : TileDesc) (rd : Rd) (m n : Nat) (x : XAcc) : XAcc :=
  (List.range d.kslice).foldl (fun x i =>
    let k := d.kstart + i
    x.add ((d.aVal rd m k).mul (d.bVal rd k n))) x

/-- The block result of block `g` (K indices `32 g` on) for element `(m, n)`. -/
def blockOf (d : TileDesc) (rd : Rd) (m n g : Nat) : Nat :=
  let ks := (List.range (min 32 (d.ktotal - 32 * g))).map (32 * g + ·)
  blockResult (ks.map fun k => (d.aVal rd m k).mul (d.bVal rd k n)) (d.aScale rd m (32 * g))
    (d.bScale rd (32 * g) n)

/-- The canonical fold of element `(m, n)`, from its partial `x`. -/
def canonAcc (d : TileDesc) (rd : Rd) (m n : Nat) (x : CAcc) : CAcc :=
  let s0 := d.kstart / 512
  (List.range (ceilDiv d.kend 512 - s0)).foldl (fun x i =>
    let s := s0 + i
    let nblk := min 16 (ceilDiv d.ktotal 32 - 16 * s)
    x.push (segmentResult ((List.range nblk).map fun j => d.blockOf rd m n (16 * s + j)))) x

/-- Address of the input partial of element `(m, n)`. -/
def pinAt (d : TileDesc) (m n : Nat) : Nat := d.pinaddr + m * d.ppitch * 64 + n * d.psize

def exactPartial (d : TileDesc) (rd : Rd) (m n : Nat) : Option XAcc :=
  if d.readsPartial then XAcc.unpack (rd.bytes (d.pinAt m n) 16) else some {}

def canonPartial (d : TileDesc) (rd : Rd) (m n : Nat) : Option CAcc :=
  if d.readsPartial then CAcc.unpack (d.kstart / 512) (rd.bytes (d.pinAt m n) 48) else some {}

/-- The bias code of column `n`. -/
def biasOf (d : TileDesc) (rd : Rd) (n : Nat) : Option Nat :=
  if d.biasen then some (rd.le (d.biasaddr + n * 4) 4) else none

def requantOf (d : TileDesc) (rd : Rd) (n : Nat) : Requant :=
  Requant.ofBytes (rd.bytes (d.qpaddr + n * 8) 8)

/-- The closed FP32 value or output code of element `(m, n)`. -/
def closedCode (d : TileDesc) (rd : Rd) (m n : Nat) : Nat :=
  match d.mode with
  | .exactInt =>
    let x := d.exactAcc rd m n ((d.exactPartial rd m n).getD {})
    closeExactInt d.ofmt d.sat x (sint 32 ((d.biasOf rd n).getD 0)) (d.requantOf rd n)
  | .exactFp8 =>
    closeExactFp8 d.ofmt d.sat (d.exactAcc rd m n ((d.exactPartial rd m n).getD {})) (d.biasOf rd n)
  | .canonical =>
    let x := d.canonAcc rd m n ((d.canonPartial rd m n).getD {})
    if d.ofmt.isMx then closeCanonF32 d.sat x (d.biasOf rd n)
    else closeCanon d.ofmt d.sat x (d.biasOf rd n)

/-- The bytes of the partial of element `(m, n)`. -/
def partialBytes (d : TileDesc) (rd : Rd) (m n : Nat) : List Byte :=
  match d.mode with
  | .canonical => (d.canonAcc rd m n ((d.canonPartial rd m n).getD {})).pack
  | _ => (d.exactAcc rd m n ((d.exactPartial rd m n).getD {})).pack

/-- The bytes that row `m` writes. -/
def rowWrites (d : TileDesc) (rd : Rd) (m : Nat) : List (Nat × Byte) :=
  let base := d.oaddr + m * d.opitch * 64
  let cols := List.range d.ncount
  if !d.closes then placeBytes base (cols.flatMap fun n => d.partialBytes rd m n)
  else
    let codes := cols.map fun n => d.closedCode rd m n
    if d.ofmt.isMx then
      let gs := (chunks 32 codes.length codes).map fun g => mxGroup d.ofmt (g.map decF32)
      packRow rd base d.ofmt.width (gs.flatMap (·.2)) ++
        placeBytes (d.oscaddr + m * alignUp (d.ncount / 32) 64) (gs.map fun g => BitVec.ofNat 8 g.1)
    else packRow rd base d.ofmt.width codes

/-- The fault that row group `g` meets when its partials are loaded (R48, R57), or when its
requantisation parameters are read (R88). -/
def groupFault (d : TileDesc) (rd : Rd) (g : Nat) : Option Nat :=
  let rows := (List.range (d.groupRows g)).map (128 * g + ·)
  let cols := List.range d.ncount
  let badPartial (m n : Nat) : Bool :=
    if d.mode = .canonical then (d.canonPartial rd m n).isNone else (d.exactPartial rd m n).isNone
  if rows.any fun m => cols.any fun n => badPartial m n then
    some (if d.mode = .canonical then 0x14 else 0x13)
  else if d.closes && decide (d.ofmt = .int8 ∨ d.ofmt = .int4) &&
      cols.any (fun n => decide (63 < (d.requantOf rd n).s)) then some 0x16
  else none

end TileDesc

/-- What an engine's step leaves: the bytes written to staging, the fault that ended it, the handshake
steps it took, and the row a fault names. -/
structure EngineOut where
  writes : List (Nat × Byte) := []
  fault : Option Nat := none
  steps : Nat := 0
  frow : Nat := 0
  sticky : Nat := 0
  deriving DecidableEq, Repr

/-- R82: run the row groups in order; a faulting group writes nothing and ends the step. -/
def TileDesc.runGroups (d : TileDesc) (rd : Rd) (h wd : Nat) : List Nat → List (Nat × Byte) → EngineOut
  | [], acc => { writes := acc, steps := d.steps h wd }
  | g :: gs, acc =>
    match d.groupFault rd g with
    | some f => { writes := acc, fault := some f, steps := Config.faultSteps d.words g }
    | none =>
      let rows := (List.range (d.groupRows g)).map (128 * g + ·)
      d.runGroups rd h wd gs (acc ++ rows.flatMap fun m => d.rowWrites rd m)

/-- R82: a tile step on a shape of `h × wd`. -/
def TileDesc.run (d : TileDesc) (rd : Rd) (h wd : Nat) : EngineOut :=
  d.runGroups rd h wd (List.range d.groups) []

/-- R73: the shape codes: rows and columns of each. -/
def shapeDims : Nat → Nat × Nat
  | 0 => (512, 512)
  | 1 => (512, 256)
  | 2 => (256, 512)
  | _ => (256, 256)

/-- R73: the shape code and the quadrants in use for a mask of unusable quadrants. -/
def shapeOf (u : Nat) : Option (Nat × Nat) :=
  match u with
  | 0b0000 => some (0, 0b1111)
  | 0b0001 | 0b0100 | 0b0101 => some (1, 0b1010)
  | 0b0010 | 0b1000 | 0b1010 => some (1, 0b0101)
  | 0b0011 => some (2, 0b1100)
  | 0b1100 => some (2, 0b0011)
  | 0b1001 => some (3, 0b0010)
  | 0b1101 => some (3, 0b0010)
  | 0b1011 => some (3, 0b0100)
  | 0b0110 => some (3, 0b0001)
  | 0b1110 => some (3, 0b0001)
  | 0b0111 => some (3, 0b1000)
  | _ => none

end Sys2Proof.Machine
end

