-- ==== Sys2Proof/Machine/StrandStep.lean ====
section
/-! DEFINITION.  The strand step (file 04, R101 to R115): descriptor, checks at decode, step count, the
operations, and the floating-point conditions they record (R109). -/

namespace Sys2Proof.Machine

/-! ### Binary32 operations with their conditions (R109)

An `Fx` is a code with the conditions met on the way to it: bit 4 NV, 3 DZ, 2 OF, 1 UF, 0 NX. -/

abbrev Fx := Nat × Nat

/-- Conditions of one rounding; `nv` says that a NaN came from operands that are none. -/
def Rounded.conds (r : Rounded) (nv : Bool) : Nat :=
  (if nv then 16 else 0) + (if r.of then 4 else 0) + (if r.uf then 2 else 0) + (if r.nx then 1 else 0)

/-- Round to FP32 and record the conditions. -/
def fxRound (v : FVal) (anyNan : Bool) : Fx :=
  let r := roundTo destF32 false v
  (r.code, r.conds (v.isNan && !anyNan))

def isNanF32 (a : Nat) : Bool := (decF32 a).isNan
def fxAdd (a b : Nat) : Fx := fxRound ((decF32 a).add (decF32 b)) (isNanF32 a || isNanF32 b)
def fneg (a : Nat) : Nat := a ^^^ 0x80000000
def fxSub (a b : Nat) : Fx := fxRound ((decF32 a).add (decF32 b).neg) (isNanF32 a || isNanF32 b)
def fxMul (a b : Nat) : Fx := fxRound ((decF32 a).mul (decF32 b)) (isNanF32 a || isNanF32 b)
def fxSqrt (a : Nat) : Fx := fxRound (decF32 a).sqrtVal (isNanF32 a)

/-- Does a defined function's FP32 result overflow from a finite argument? -/
def fxDefined (x r : Nat) : Fx :=
  let fin := match decF32 x with
    | .fin _ _ _ => true
    | _ => false
  (r, (if fin && (decF32 r).isInf then 5 else 0))

/-- R62 with its conditions: overflow to infinity of a finite argument is OF and NX; a result that is
not one of the exact cases is NX, and UF below the smallest normal. -/
def fxExp (x : Nat) : Fx :=
  let r := expF32 x
  let (c, f) := fxDefined x r
  match decF32 x with
  | .fin _ m _ => (c, f ||| (if m = 0 then 0 else 1) ||| (if m ≠ 0 ∧ r < 0x00800000 then 2 else 0))
  | _ => (c, 0)

/-- R64 with its conditions: DZ for a zero. -/
def fxRecip (x : Nat) : Fx :=
  let r := recipF32 x
  match decF32 x with
  | .fin _ m _ =>
    if m = 0 then (r, 8)
    else
      let exact := m = 2 ^ m.log2 ∧ !(decF32 r).isInf
      (r, (if (decF32 r).isInf then 5 else 0) ||| (if exact then 0 else 1) |||
        (if ¬ exact ∧ r % 2 ^ 31 < 0x00800000 then 2 else 0))
  | _ => (r, 0)

/-- Apply a binary operation to results, joining the conditions. -/
def fx2 (f : Nat → Nat → Fx) (a b : Fx) : Fx :=
  let r := f a.1 b.1
  (r.1, r.2 ||| a.2 ||| b.2)

/-- Apply a unary operation to a result. -/
def fx1 (f : Nat → Fx) (a : Fx) : Fx :=
  let r := f a.1
  (r.1, r.2 ||| a.2)

def fxMax (a b : Nat) : Nat := roundF32 ((decF32 a).maximum (decF32 b))
def fxMin (a b : Nat) : Nat := roundF32 ((decF32 a).minimum (decF32 b))

/-- R103 SIGMOID. -/
def fxSigmoid (a : Nat) : Fx := fx1 fxRecip (fx2 fxAdd (0x3F800000, 0) (fxExp (fneg a)))

/-- R103 TANH: `2 * SIGMOID(2 a) - 1`. -/
def fxTanh (a : Nat) : Fx :=
  fx2 fxSub (fx2 fxMul (0x40000000, 0) (fx1 fxSigmoid (fxMul 0x40000000 a))) (0x3F800000, 0)

/-- R61 with its conditions. -/
def fxSum (xs : List Nat) : Fx :=
  let blocks : List Fx := (chunks 32 xs.length xs).map fun b =>
    fxRound (exactSum (b.map decF32)).value (b.any isNanF32)
  let segs := (chunks 16 blocks.length blocks).map fun l =>
    (treeRoot (fx2 fxAdd) 4 (l.map some ++ List.replicate (16 - l.length) none)).getD (0, 0)
  (tree (fx2 fxAdd) segs).getD (0, 0)

/-- `recip_f32(round_f32(n))`. -/
def fxRecipN (n : Nat) : Fx := fxRecip (roundF32 (.ofInt n))

/-- R65 with its conditions. -/
def fxSoftmax (xs : List Nat) : List Nat × Nat :=
  let ys := softmaxF32 xs
  let vs := xs.map decF32
  if vs.any (fun v => v.isNan || v = .inf false) then
    (ys, if vs.any FVal.isNan then 0 else 16)
  else if vs.all (fun v => v = .inf true) then (ys, 0)
  else
    let m := roundF32 (vs.foldl FVal.maximum (.inf true))
    let es := xs.map fun x => fx1 fxExp (fxSub x m)
    let q := fx1 fxRecip (fxSum (es.map (·.1)))
    (ys, es.foldl (fun f e => f ||| (fx2 fxMul e q).2) q.2)

/-- R104 LAYERNORM of a row with its gains and biases. -/
def fxLayerNorm (xs gs hs : List Nat) (eps : Nat) : List Fx :=
  let r := fxRecipN xs.length
  let mu := fx2 fxMul (fxSum xs) r
  let ds := xs.map fun x => fx2 fxSub (x, 0) mu
  let sq := ds.map fun d => fx2 fxMul d d
  let s2 := fxSum (sq.map (·.1))
  let st := sq.foldl (fun f e => f ||| e.2) s2.2
  let q := fx1 fxRecip (fx1 fxSqrt (fx2 fxAdd (fx2 fxMul (s2.1, st) r) (eps, 0)))
  (ds.zip (gs.zip hs)).map fun p =>
    fx2 fxAdd (fx2 fxMul (fx2 fxMul p.1 q) (p.2.1, 0)) (p.2.2, 0)

/-- R104 RMSNORM of a row with its gains. -/
def fxRmsNorm (xs gs : List Nat) (eps : Nat) : List Fx :=
  let r := fxRecipN xs.length
  let sq := xs.map fun x => fxMul x x
  let s2 := fxSum (sq.map (·.1))
  let st := sq.foldl (fun f e => f ||| e.2) s2.2
  let q := fx1 fxRecip (fx1 fxSqrt (fx2 fxAdd (fx2 fxMul (s2.1, st) r) (eps, 0)))
  (xs.zip gs).map fun p => fx2 fxMul (fx2 fxMul (p.1, 0) q) (p.2, 0)

/-! ### The descriptor (R102) -/

/-- A strand step descriptor: its 16 words. -/
structure StrandDesc where
  words : List Nat
  deriving DecidableEq, Repr

/-- Classes of operations, as R103 and R108 group them. -/
inductive StrandKind where
  | cvt | binary | unary | reduce | norm | pool | gather | scatter | fill
  deriving DecidableEq, Repr

namespace StrandDesc

def w (d : StrandDesc) (i : Nat) : Nat := d.words.getD i 0
def opc (d : StrandDesc) : Nat := bits (d.w 0) 31 24
def afmt? (d : StrandDesc) : Option Fmt := Fmt.ofCode (bits (d.w 0) 23 20)
def bfmt? (d : StrandDesc) : Option Fmt := Fmt.ofCode (bits (d.w 0) 19 16)
def ofmt? (d : StrandDesc) : Option Fmt := Fmt.ofCode (bits (d.w 0) 15 12)
def afmt (d : StrandDesc) : Fmt := d.afmt?.getD .int8
def bfmt (d : StrandDesc) : Fmt := d.bfmt?.getD .int8
def ofmt (d : StrandDesc) : Fmt := d.ofmt?.getD .int8
def sat (d : StrandDesc) : Bool := bit (d.w 0) 11
def bmode (d : StrandDesc) : Nat := bits (d.w 0) 10 9
def avgdiv (d : StrandDesc) : Bool := bit (d.w 0) 8
def cols (d : StrandDesc) : Nat := bits (d.w 1) 20 0
def taps (d : StrandDesc) : Nat := bits (d.w 2) 21 16
def rows (d : StrandDesc) : Nat := bits (d.w 2) 15 0
def aaddr (d : StrandDesc) : Nat := bits (d.w 3) 24 0
def baddr (d : StrandDesc) : Nat := bits (d.w 4) 24 0
def oaddr (d : StrandDesc) : Nat := bits (d.w 5) 24 0
def paddr (d : StrandDesc) : Nat := bits (d.w 6) 24 0
def apitch (d : StrandDesc) : Nat := bits (d.w 7) 31 16 * 64
def opitch (d : StrandDesc) : Nat := bits (d.w 7) 15 0 * 64
def bpitch (d : StrandDesc) : Nat := bits (d.w 8) 31 16 * 64
def imm0 (d : StrandDesc) : Nat := d.w 9
def imm1 (d : StrandDesc) : Nat := d.w 10
def pw (d : StrandDesc) : Nat := bits (d.w 11) 31 28 + 1
def ph (d : StrandDesc) : Nat := bits (d.w 11) 27 24 + 1
def psx (d : StrandDesc) : Nat := bits (d.w 11) 23 20 + 1
def psy (d : StrandDesc) : Nat := bits (d.w 11) 19 16 + 1
def padl (d : StrandDesc) : Nat := bits (d.w 11) 11 8
def padt (d : StrandDesc) : Nat := bits (d.w 11) 3 0
def iw (d : StrandDesc) : Nat := bits (d.w 12) 31 16
def ih (d : StrandDesc) : Nat := bits (d.w 12) 15 0
def srcrows (d : StrandDesc) : Nat := bits (d.w 12) 23 0
def ow (d : StrandDesc) : Nat := bits (d.w 13) 31 16
def oh (d : StrandDesc) : Nat := bits (d.w 13) 15 0

/-- R103: the class of an opcode. -/
def kind (d : StrandDesc) : StrandKind :=
  let o := d.opc
  if o = 0x40 then .cvt
  else if o ≤ 0x45 then .binary
  else if o ≤ 0x4F then .unary
  else if o ≤ 0x53 then .reduce
  else if o ≤ 0x56 then .norm
  else if o ≤ 0x59 then .pool
  else if o = 0x5C then .gather
  else if o = 0x5D then .scatter
  else .fill

/-- R103: cost factor k. -/
def k (d : StrandDesc) : Nat :=
  match d.opc with
  | 0x46 => 2 | 0x49 => 4 | 0x4A => 4 | 0x4B => 4 | 0x4C => 8 | 0x4D => 10 | 0x4E => 11 | 0x4F => 12
  | 0x54 => 7 | 0x55 => 6 | 0x56 => 5
  | 0x58 => d.ph * d.pw
  | 0x59 => d.ph * d.pw + 2
  | _ => 1

/-- Does the operation read a B region or an immediate B? -/
def usesB (d : StrandDesc) : Bool := d.kind = .binary
/-- Does it read a B region (BMODE other than 0b11)? -/
def usesBRegion (d : StrandDesc) : Bool := d.usesB && d.bmode != 3
/-- Does it read per-column parameters (AFFINE, LAYERNORM, RMSNORM)? -/
def usesParams (d : StrandDesc) : Bool := d.opc == 0x46 || d.opc == 0x55 || d.opc == 0x56
/-- Does it read an index table? -/
def usesIndex (d : StrandDesc) : Bool := d.kind = .gather || d.kind = .scatter
/-- Does it move bytes without converting? -/
def moves (d : StrandDesc) : Bool := d.usesIndex || d.kind = .fill

/-- R107: does the operation run on the byte path? -/
def bytePath (d : StrandDesc) : Bool :=
  d.kind = .fill ||
    ([0x41, 0x42, 0x44, 0x45, 0x47, 0x48].contains d.opc && d.afmt = .int8 && d.ofmt = .int8 &&
      (!d.usesBRegion || d.bfmt = .int8))

/-- R110: bytes of one position of a map of format `f`. -/
def pstr (d : StrandDesc) (f : Fmt) : Nat := ceilDiv (d.cols * f.width) 256 * 32

/-! ### Regions and step count -/

def rowBytes (d : StrandDesc) (f : Fmt) : Nat := packedBytes d.cols f.width
/-- The layout of a CVT's scales (R105). -/
def scaleRegion (d : StrandDesc) : Region :=
  let n := ceilDiv d.cols 32
  ⟨d.paddr, alignUp n 64, d.rows, n⟩

/-- The input regions, as the step may read them. -/
def inRegions (d : StrandDesc) : List Region :=
  (match d.kind with
   | .fill => []
   | .pool => [⟨d.aaddr, d.apitch, d.ih, d.iw * d.pstr d.afmt⟩]
   | .gather => [⟨d.aaddr, d.apitch, d.srcrows, d.rowBytes d.afmt⟩,
       ⟨d.paddr, d.rows * d.taps * 4, 1, d.rows * d.taps * 4⟩]
   | .scatter => [⟨d.aaddr, d.apitch, d.rows, d.rowBytes d.afmt⟩, ⟨d.paddr, d.rows * 4, 1, d.rows * 4⟩]
   | _ => [⟨d.aaddr, d.apitch, d.rows, d.rowBytes d.afmt⟩]) ++
  (if d.usesBRegion then
    let n := packedBytes (if d.bmode = 1 then d.rows else d.cols) d.bfmt.width
    [if d.bmode = 0 then ⟨d.baddr, d.bpitch, d.rows, d.rowBytes d.bfmt⟩ else ⟨d.baddr, n, 1, n⟩] else []) ++
  (if d.opc = 0x56 then [⟨d.paddr, 8, d.cols, 4⟩]
   else if d.usesParams then [⟨d.paddr, d.cols * 8, 1, d.cols * 8⟩] else []) ++
  (if d.kind = .cvt ∧ d.afmt.isMx then [d.scaleRegion] else [])

def outRegions (d : StrandDesc) : List Region :=
  (match d.kind with
   | .pool => [⟨d.oaddr, d.opitch, d.oh, d.ow * d.pstr d.ofmt⟩]
   | .gather => [⟨d.oaddr, d.opitch, d.rows, packedBytes (d.taps * d.cols) d.ofmt.width⟩]
   | .scatter => [⟨d.oaddr, d.opitch, d.srcrows, d.rowBytes d.ofmt⟩]
   | .reduce => [⟨d.oaddr, d.opitch, d.rows, packedBytes 1 d.ofmt.width⟩]
   | _ => [⟨d.oaddr, d.opitch, d.rows, d.rowBytes d.ofmt⟩]) ++
  (if d.kind = .cvt ∧ d.ofmt.isMx then [d.scaleRegion] else [])

/-- R108: bytes the step may read, with every tap and index present. -/
def readBytes (d : StrandDesc) : Nat :=
  match d.kind with
  | .gather => packedBytes (d.rows * d.taps * d.cols) d.afmt.width + d.rows * d.taps * 4
  | _ => (d.inRegions.map fun r => r.rows * r.len).sum

/-- R108: bytes the step may write. -/
def writeBytes (d : StrandDesc) : Nat :=
  match d.kind with
  | .scatter => d.rows * d.rowBytes d.ofmt
  | _ => (d.outRegions.map fun r => r.rows * r.len).sum

/-- R108: the compute term with `u` usable units. -/
def compute (d : StrandDesc) (u : Nat) : Nat :=
  let l := if d.bytePath then 256 else 64
  match d.kind with
  | .cvt | .binary | .unary | .fill => ceilDiv d.rows u * ceilDiv d.cols l * d.k
  | .reduce | .norm => ceilDiv d.rows u * (ceilDiv d.cols 64 * d.k + 16)
  | .pool => ceilDiv (d.oh * d.ow) u * ceilDiv d.cols 64 * d.k
  | .gather => ceilDiv d.rows u * ceilDiv (d.taps * d.cols * d.afmt.width) 2048
  | .scatter => ceilDiv d.rows 16 + ceilDiv d.rows u * ceilDiv (d.cols * d.afmt.width) 2048

/-- R108: the worst-case step count with `u` usable units. -/
def steps (d : StrandDesc) (u : Nat) : Nat :=
  64 + max (d.compute u) (ceilDiv (max d.readBytes d.writeBytes) 1024)

/-! ### Checks at decode (R100, R105, R111, R129) -/

def arithFmt (f : Fmt) : Bool :=
  f = .int4 || f = .int8 || f = .e4m3 || f = .e5m2 || f = .bf16 || f = .fp32

/-- R105: an operand format the operation does not accept. -/
def inFmtBad (d : StrandDesc) : Bool :=
  match d.afmt? with
  | none => true
  | some a =>
    (match d.kind with
     | .cvt => false
     | .gather | .scatter | .fill => !(arithFmt a || a = .int32)
     | _ => !arithFmt a) ||
    (d.usesBRegion && match d.bfmt? with
      | some b => !arithFmt b
      | none => true)

/-- R105: an output format the operation does not accept. -/
def outFmtBad (d : StrandDesc) : Bool :=
  match d.ofmt? with
  | none => true
  | some o =>
    match d.kind with
    | .cvt => o.isMx && d.cols % 32 != 0
    | .gather | .scatter | .fill => decide (o ≠ d.afmt)
    | _ => !arithFmt o

def reservedMask : List Nat :=
  [0xFF, 0xFFE00000, 0xFFC00000, 0xFE000000, 0xFE000000, 0xFE000000, 0xFE000000, 0, 0xFFFF, 0, 0,
   0xF0F0, 0, 0, 0xFFFFFFFF, 0xFFFFFFFF]

/-- R100: a reserved bit or an unused field is not zero. -/
def unusedSet (d : StrandDesc) : Bool :=
  let pool : Bool := d.kind = .pool
  (List.range 16).any (fun i => d.w i &&& reservedMask.getD i 0 != 0) ||
  (!d.usesBRegion && bits (d.w 0) 19 16 != 0) ||
  (d.moves && d.sat) ||
  (!d.usesB && d.bmode != 0) ||
  (d.opc != 0x59 && d.avgdiv) ||
  (decide (d.kind ≠ .gather) && d.taps != 0) ||
  (pool && d.rows != 0) ||
  (decide (d.kind = .fill) && (d.aaddr != 0 || d.apitch != 0)) ||
  (!d.usesBRegion && d.baddr != 0) ||
  (!(d.usesBRegion && d.bmode == 0) && d.bpitch != 0) ||
  (!(d.usesParams || d.usesIndex || (decide (d.kind = .cvt) && (d.afmt.isMx || d.ofmt.isMx))) &&
    d.paddr != 0) ||
  (!((d.usesB && d.bmode == 3) || d.opc == 0x47 || d.opc == 0x55 || d.opc == 0x56 ||
    decide (d.kind = .fill)) && d.imm0 != 0) ||
  (d.opc != 0x47 && d.imm1 != 0) ||
  (!pool && (d.w 11 != 0 || d.w 13 != 0)) ||
  (!pool && !d.usesIndex && d.w 12 != 0) ||
  (d.usesIndex && bits (d.w 12) 31 24 != 0)

/-- R102, R129: a count or geometry field outside its range. -/
def geometryBad (d : StrandDesc) : Bool :=
  let pool : Bool := d.kind = .pool
  d.cols == 0 || decide ((if pool then 4096 else 2 ^ 20) < d.cols) ||
  (!pool && d.rows == 0) ||
  (decide (d.kind = .gather) && (d.taps == 0 || decide (32 < d.taps))) ||
  (d.usesIndex && d.srcrows == 0) ||
  (pool && (d.iw == 0 || d.ih == 0 || d.ow == 0 || d.oh == 0)) ||
  (decide (d.afmt.width = 4 ∨ d.ofmt.width = 4 ∨ (d.usesBRegion ∧ d.bfmt.width = 4)) && d.cols % 2 != 0)

/-- R111: a window that holds no stored position. -/
def windowBad (d : StrandDesc) : Bool :=
  decide (d.kind = .pool) &&
    (decide (d.ph ≤ d.padt) || decide (d.pw ≤ d.padl) ||
     decide (d.ih + d.padt ≤ (d.oh - 1) * d.psy) || decide (d.iw + d.padl ≤ (d.ow - 1) * d.psx))

/-- The faults found at decode, in ascending code; `u` is the number of usable units. -/
def decodeChecks (d : StrandDesc) (u : Nat) : List (Nat × Bool) :=
  [(0x01, d.inFmtBad), (0x02, d.outFmtBad), (0x16, d.geometryBad),
   (0x17, !regionsOk d.inRegions d.outRegions), (0x18, d.unusedSet),
   (0x19, decide (18000 < d.steps 16)), (0x20, u == 0), (0x25, d.windowBad)]

def decodeFault (d : StrandDesc) (u : Nat) : Option Nat :=
  ((d.decodeChecks u).find? (·.2)).map (·.1)

/-! ### What the step computes -/

/-- Operand A at row `m`, column `n`, widened exactly to FP32 (R60). -/
def aF32 (d : StrandDesc) (rd : Rd) (m n : Nat) : Nat :=
  roundF32 (d.afmt.value (rd.elem (d.aaddr + m * d.apitch) n d.afmt.width))

/-- R106: operand B at row `m`, column `n`. -/
def bF32 (d : StrandDesc) (rd : Rd) (m n : Nat) : Nat :=
  match d.bmode with
  | 0 => roundF32 (d.bfmt.value (rd.elem (d.baddr + m * d.bpitch) n d.bfmt.width))
  | 1 => roundF32 (d.bfmt.value (rd.elem d.baddr m d.bfmt.width))
  | 2 => roundF32 (d.bfmt.value (rd.elem d.baddr n d.bfmt.width))
  | _ => d.imm0

/-- R103: the elementwise operations. -/
def elementOp (d : StrandDesc) (rd : Rd) (m n : Nat) : Fx :=
  let a := d.aF32 rd m n
  match d.opc with
  | 0x41 => fxAdd a (d.bF32 rd m n)
  | 0x42 => fxSub a (d.bF32 rd m n)
  | 0x43 => fxMul a (d.bF32 rd m n)
  | 0x44 => (fxMax a (d.bF32 rd m n), 0)
  | 0x45 => (fxMin a (d.bF32 rd m n), 0)
  | 0x46 => fx2 fxAdd (fxMul a (rd.le (d.paddr + n * 8) 4)) (rd.le (d.paddr + n * 8 + 4) 4, 0)
  | 0x47 => (fxMin (fxMax a d.imm0) d.imm1, 0)
  | 0x48 => (fxMax a 0, 0)
  | 0x49 => fxExp a
  | 0x4A => fxRecip a
  | 0x4B => fxSqrt a
  | 0x4C => fx1 fxRecip (fxSqrt a)
  | 0x4D => fxSigmoid a
  | 0x4E => fx2 fxMul (a, 0) (fxSigmoid a)
  | _ => fxTanh a

/-- The FP32 row that a row operation gives. -/
def rowOp (d : StrandDesc) (rd : Rd) (m : Nat) : List Fx :=
  let cols := List.range d.cols
  let xs := cols.map fun n => d.aF32 rd m n
  match d.opc with
  | 0x50 => [fxSum xs]
  | 0x51 => [fx2 fxMul (fxSum xs) (fxRecipN d.cols)]
  | 0x52 => [(xs.tail.foldl fxMax (xs.headD 0), 0)]
  | 0x53 => [(xs.tail.foldl fxMin (xs.headD 0), 0)]
  | 0x54 =>
    let r := fxSoftmax xs
    r.1.map fun y => (y, r.2)
  | 0x55 => fxLayerNorm xs (cols.map fun i => rd.le (d.paddr + i * 8) 4)
      (cols.map fun i => rd.le (d.paddr + i * 8 + 4) 4) d.imm0
  | 0x56 => fxRmsNorm xs (cols.map fun i => rd.le (d.paddr + i * 8) 4) d.imm0
  | _ => cols.map fun n => d.elementOp rd m n

/-- R60: convert a row of results once to OFMT; the codes and the conditions met. -/
def convertRow (d : StrandDesc) (xs : List Fx) : List Nat × Nat :=
  let rs := xs.map fun x => d.ofmt.convert d.sat (decF32 x.1)
  (rs.map (·.code),
    xs.foldl (fun f x => f ||| x.2) (rs.foldl (fun f r => f ||| r.conds false) 0))

/-- R105: the exact value of a CVT input element. -/
def cvtVal (d : StrandDesc) (rd : Rd) (m n : Nat) : FVal :=
  let v := d.afmt.value (rd.elem (d.aaddr + m * d.apitch) n d.afmt.width)
  if d.afmt.isMx then
    let e := (rd (d.paddr + m * d.scaleRegion.pitch + n / 32)).toNat
    if e = 0xFF then .nan else v.scale (e - 127)
  else v

/-- CVT of row `m`: the bytes it writes and the conditions it met. -/
def cvtRow (d : StrandDesc) (rd : Rd) (m : Nat) : List (Nat × Byte) × Nat :=
  let vs := (List.range d.cols).map fun n => d.cvtVal rd m n
  let base := d.oaddr + m * d.opitch
  if d.ofmt.isMx then
    let gs := (chunks 32 vs.length vs).map (mxGroup d.ofmt)
    (packRow rd base d.ofmt.width (gs.flatMap (·.2)) ++
      placeBytes (d.paddr + m * d.scaleRegion.pitch) (gs.map fun g => BitVec.ofNat 8 g.1), 0)
  else
    let rs := vs.map fun v => d.ofmt.convert d.sat v
    (packRow rd base d.ofmt.width (rs.map (·.code)), rs.foldl (fun f r => f ||| r.conds false) 0)

/-- R110: the elements of a pooling window that lie in the input, in raster order. -/
def window (d : StrandDesc) (rd : Rd) (oy ox ch : Nat) : List Nat :=
  (List.range d.ph).flatMap fun fy => (List.range d.pw).flatMap fun fx =>
    let iy : Int := (oy * d.psy + fy : Nat) - (d.padt : Int)
    let ix : Int := (ox * d.psx + fx : Nat) - (d.padl : Int)
    if 0 ≤ iy ∧ iy < d.ih ∧ 0 ≤ ix ∧ ix < d.iw then
      [roundF32 (d.afmt.value
        (rd.elem (d.aaddr + iy.toNat * d.apitch + ix.toNat * d.pstr d.afmt) ch d.afmt.width))]
    else []

/-- R112: one pooled value. -/
def poolOp (d : StrandDesc) (rd : Rd) (oy ox ch : Nat) : Fx :=
  let xs := d.window rd oy ox ch
  if d.opc = 0x58 then (xs.tail.foldl fxMax (xs.headD 0), 0)
  else fx2 fxMul (fxSum xs) (fxRecipN (if d.avgdiv then d.ph * d.pw else xs.length))

/-- A pooling step. -/
def runPool (d : StrandDesc) (rd : Rd) : List (Nat × Byte) × Nat :=
  let ps := (List.range d.oh).flatMap fun oy => (List.range d.ow).map fun ox =>
    let r := d.convertRow ((List.range d.cols).map fun ch => d.poolOp rd oy ox ch)
    (packRow rd (d.oaddr + oy * d.opitch + ox * d.pstr d.ofmt) d.ofmt.width r.1, r.2)
  (ps.flatMap (·.1), ps.foldl (fun f p => f ||| p.2) 0)

/-- Index entry `i` of the index table, signed. -/
def index (d : StrandDesc) (rd : Rd) (i : Nat) : Int := sint 32 (rd.le (d.paddr + i * 4) 4)

/-- R113: the bytes of output row `m` of a GATHER, none where an index is out of range. -/
def gatherRow (d : StrandDesc) (rd : Rd) (m : Nat) : Option (List Byte) :=
  let n := d.rowBytes d.afmt
  (List.range d.taps).foldl (fun acc t =>
    match acc with
    | none => none
    | some bs =>
      let i := d.index rd (m * d.taps + t)
      if i = -1 then some (bs ++ List.replicate n 0)
      else if i < 0 ∨ (d.srcrows : Int) ≤ i then none
      else some (bs ++ rd.bytes (d.aaddr + i.toNat * d.apitch) n)) (some [])

/-- R113: the rows of a GATHER in order, up to the first bad index. -/
def runGather (d : StrandDesc) (rd : Rd) : List Nat → List (Nat × Byte) → EngineOut
  | [], acc => { writes := acc }
  | m :: ms, acc =>
    match d.gatherRow rd m with
    | none => { writes := acc, fault := some 0x23, frow := m }
    | some bs => d.runGather rd ms (acc ++ placeBytes (d.oaddr + m * d.opitch) bs)

/-- R114: the first row of a SCATTER whose index is out of range or repeats an earlier one. -/
def scatterBad (d : StrandDesc) (rd : Rd) : Option Nat :=
  (List.range d.rows).find? fun m =>
    let i := d.index rd m
    decide (i < -1 ∨ (d.srcrows : Int) ≤ i) ||
      (decide (0 ≤ i) && (List.range m).any fun k => d.index rd k == i)

/-- R114. -/
def runScatter (d : StrandDesc) (rd : Rd) : EngineOut :=
  match d.scatterBad rd with
  | some m => { fault := some 0x24, frow := m }
  | none =>
    { writes := (List.range d.rows).flatMap fun m =>
        let i := d.index rd m
        if i < 0 then []
        else placeBytes (d.oaddr + i.toNat * d.opitch) (rd.bytes (d.aaddr + m * d.apitch) (d.rowBytes d.afmt)) }

/-- R103: the code FILL writes. -/
def fillCode (d : StrandDesc) : Nat := if d.ofmt.width = 32 then d.imm0 else d.imm0 % 256

/-- A strand step: the bytes it writes, its fault, and the conditions it met. -/
def run (d : StrandDesc) (rd : Rd) : EngineOut :=
  let rows := List.range d.rows
  match d.kind with
  | .gather => d.runGather rd rows []
  | .scatter => d.runScatter rd
  | .fill =>
    { writes := rows.flatMap fun m =>
        packRow rd (d.oaddr + m * d.opitch) d.ofmt.width (List.replicate d.cols d.fillCode) }
  | .pool =>
    let r := d.runPool rd
    { writes := r.1, sticky := r.2 }
  | .cvt =>
    let rs := rows.map fun m => d.cvtRow rd m
    { writes := rs.flatMap (·.1), sticky := rs.foldl (fun f r => f ||| r.2) 0 }
  | _ =>
    let rs := rows.map fun m =>
      let r := d.convertRow (d.rowOp rd m)
      (packRow rd (d.oaddr + m * d.opitch) d.ofmt.width r.1, r.2)
    { writes := rs.flatMap (·.1), sticky := rs.foldl (fun f r => f ||| r.2) 0 }

end StrandDesc

end Sys2Proof.Machine
end

