-- ==== Sys2Proof/Machine/SpectralStep.lean ====
section
/-! DEFINITION.  The spectral step (file 04, R120 to R128): the transform, the descriptor, its checks at
decode, and the four steps SFWD, SWXF, SMAC and SINV. -/

namespace Sys2Proof.Machine

/-- A complex number of two FP32 codes. -/
abbrev Cx := Nat × Nat

/-- R122: `round_f32(cos(2 pi j / 256))` for `j = 0` to 127, correctly rounded. -/
def twiddleCos : List Nat :=
  [0x3f800000, 0x3f7fec43, 0x3f7fb10f, 0x3f7f4e6d, 0x3f7ec46d, 0x3f7e1324, 0x3f7d3aac, 0x3f7c3b28,
   0x3f7b14be, 0x3f79c79d, 0x3f7853f8, 0x3f76ba07, 0x3f74fa0b, 0x3f731447, 0x3f710908, 0x3f6ed89e,
   0x3f6c835e, 0x3f6a09a7, 0x3f676bd8, 0x3f64aa59, 0x3f61c598, 0x3f5ebe05, 0x3f5b941a, 0x3f584853,
   0x3f54db31, 0x3f514d3d, 0x3f4d9f02, 0x3f49d112, 0x3f45e403, 0x3f41d870, 0x3f3daef9, 0x3f396842,
   0x3f3504f3, 0x3f3085bb, 0x3f2beb4a, 0x3f273656, 0x3f226799, 0x3f1d7fd1, 0x3f187fc0, 0x3f13682a,
   0x3f0e39da, 0x3f08f59b, 0x3f039c3d, 0x3efc5d27, 0x3ef15aea, 0x3ee63375, 0x3edae880, 0x3ecf7bca,
   0x3ec3ef15, 0x3eb8442a, 0x3eac7cd4, 0x3ea09ae5, 0x3e94a031, 0x3e888e93, 0x3e78cfcc, 0x3e605c13,
   0x3e47c5c2, 0x3e2f10a2, 0x3e164083, 0x3dfab273, 0x3dc8bd36, 0x3d96a905, 0x3d48fb30, 0x3cc90ab0] ++
  [0x00000000, 0xbcc90ab0, 0xbd48fb30, 0xbd96a905, 0xbdc8bd36, 0xbdfab273, 0xbe164083, 0xbe2f10a2,
   0xbe47c5c2, 0xbe605c13, 0xbe78cfcc, 0xbe888e93, 0xbe94a031, 0xbea09ae5, 0xbeac7cd4, 0xbeb8442a,
   0xbec3ef15, 0xbecf7bca, 0xbedae880, 0xbee63375, 0xbef15aea, 0xbefc5d27, 0xbf039c3d, 0xbf08f59b,
   0xbf0e39da, 0xbf13682a, 0xbf187fc0, 0xbf1d7fd1, 0xbf226799, 0xbf273656, 0xbf2beb4a, 0xbf3085bb,
   0xbf3504f3, 0xbf396842, 0xbf3daef9, 0xbf41d870, 0xbf45e403, 0xbf49d112, 0xbf4d9f02, 0xbf514d3d,
   0xbf54db31, 0xbf584853, 0xbf5b941a, 0xbf5ebe05, 0xbf61c598, 0xbf64aa59, 0xbf676bd8, 0xbf6a09a7,
   0xbf6c835e, 0xbf6ed89e, 0xbf710908, 0xbf731447, 0xbf74fa0b, 0xbf76ba07, 0xbf7853f8, 0xbf79c79d,
   0xbf7b14be, 0xbf7c3b28, 0xbf7d3aac, 0xbf7e1324, 0xbf7ec46d, 0xbf7f4e6d, 0xbf7fb10f, 0xbf7fec43]

/-- R122: `round_f32(sin(2 pi j / 256))` for `j = 0` to 127, correctly rounded. -/
def twiddleSin : List Nat :=
  [0x00000000, 0x3cc90ab0, 0x3d48fb30, 0x3d96a905, 0x3dc8bd36, 0x3dfab273, 0x3e164083, 0x3e2f10a2,
   0x3e47c5c2, 0x3e605c13, 0x3e78cfcc, 0x3e888e93, 0x3e94a031, 0x3ea09ae5, 0x3eac7cd4, 0x3eb8442a,
   0x3ec3ef15, 0x3ecf7bca, 0x3edae880, 0x3ee63375, 0x3ef15aea, 0x3efc5d27, 0x3f039c3d, 0x3f08f59b,
   0x3f0e39da, 0x3f13682a, 0x3f187fc0, 0x3f1d7fd1, 0x3f226799, 0x3f273656, 0x3f2beb4a, 0x3f3085bb,
   0x3f3504f3, 0x3f396842, 0x3f3daef9, 0x3f41d870, 0x3f45e403, 0x3f49d112, 0x3f4d9f02, 0x3f514d3d,
   0x3f54db31, 0x3f584853, 0x3f5b941a, 0x3f5ebe05, 0x3f61c598, 0x3f64aa59, 0x3f676bd8, 0x3f6a09a7,
   0x3f6c835e, 0x3f6ed89e, 0x3f710908, 0x3f731447, 0x3f74fa0b, 0x3f76ba07, 0x3f7853f8, 0x3f79c79d,
   0x3f7b14be, 0x3f7c3b28, 0x3f7d3aac, 0x3f7e1324, 0x3f7ec46d, 0x3f7f4e6d, 0x3f7fb10f, 0x3f7fec43] ++
  [0x3f800000, 0x3f7fec43, 0x3f7fb10f, 0x3f7f4e6d, 0x3f7ec46d, 0x3f7e1324, 0x3f7d3aac, 0x3f7c3b28,
   0x3f7b14be, 0x3f79c79d, 0x3f7853f8, 0x3f76ba07, 0x3f74fa0b, 0x3f731447, 0x3f710908, 0x3f6ed89e,
   0x3f6c835e, 0x3f6a09a7, 0x3f676bd8, 0x3f64aa59, 0x3f61c598, 0x3f5ebe05, 0x3f5b941a, 0x3f584853,
   0x3f54db31, 0x3f514d3d, 0x3f4d9f02, 0x3f49d112, 0x3f45e403, 0x3f41d870, 0x3f3daef9, 0x3f396842,
   0x3f3504f3, 0x3f3085bb, 0x3f2beb4a, 0x3f273656, 0x3f226799, 0x3f1d7fd1, 0x3f187fc0, 0x3f13682a,
   0x3f0e39da, 0x3f08f59b, 0x3f039c3d, 0x3efc5d27, 0x3ef15aea, 0x3ee63375, 0x3edae880, 0x3ecf7bca,
   0x3ec3ef15, 0x3eb8442a, 0x3eac7cd4, 0x3ea09ae5, 0x3e94a031, 0x3e888e93, 0x3e78cfcc, 0x3e605c13,
   0x3e47c5c2, 0x3e2f10a2, 0x3e164083, 0x3dfab273, 0x3dc8bd36, 0x3d96a905, 0x3d48fb30, 0x3cc90ab0]

/-- The `lg`-bit reversal of an index. -/
def bitRev : Nat → Nat → Nat
  | 0, _ => 0
  | lg + 1, i => (i % 2) * 2 ^ lg + bitRev lg (i / 2)

/-- Element `i` after stage `s` of `fft1`. -/
def butterfly (x : List Cx) (s : Nat) (inv : Bool) (i : Nat) : Cx :=
  let m := 2 ^ s
  let half := m / 2
  let j := i % half
  let k := i / m * m
  let c := twiddleCos.getD (j * (256 / m)) 0
  let d0 := twiddleSin.getD (j * (256 / m)) 0
  let d := if inv then d0 else fneg d0
  let u := x.getD (k + j) (0, 0)
  let v := x.getD (k + j + half) (0, 0)
  let tr := fsub (fmul c v.1) (fmul d v.2)
  let ti := fadd (fmul c v.2) (fmul d v.1)
  if i % m < half then (fadd u.1 tr, fadd u.2 ti) else (fsub u.1 tr, fsub u.2 ti)

/-- R122 `fft1` on a row of `2 ^ lg` numbers. -/
def fft1 (lg : Nat) (inv : Bool) (x : List Cx) : List Cx :=
  let n := 2 ^ lg
  let x0 := (List.range n).map fun i => x.getD (bitRev lg i) (0, 0)
  (List.range lg).foldl (fun x s => (List.range n).map (butterfly x (s + 1) inv)) x0

/-- The transpose of an `n × n` array. -/
def transpose (n : Nat) (xs : List (List Cx)) : List (List Cx) :=
  (List.range n).map fun v => xs.map fun r => r.getD v (0, 0)

/-- R122 `fft2`. -/
def fft2 (lg : Nat) (inv : Bool) (xs : List (List Cx)) : List (List Cx) :=
  let n := 2 ^ lg
  let rows := xs.map (fft1 lg inv)
  let y := transpose n ((transpose n rows).map (fft1 lg inv))
  if inv then
    let s := roundF32 (.fin false 1 (-(2 * lg : Int)))
    y.map fun r => r.map fun c => (fmul c.1 s, fmul c.2 s)
  else y

/-! ### The descriptor (R123) -/

/-- A spectral step descriptor: its 16 words. -/
structure SpecDesc where
  words : List Nat
  deriving DecidableEq, Repr

namespace SpecDesc

def w (d : SpecDesc) (i : Nat) : Nat := d.words.getD i 0
def opc (d : SpecDesc) : Nat := bits (d.w 0) 31 24
def isFwd (d : SpecDesc) : Bool := d.opc == 0x30
def isWxf (d : SpecDesc) : Bool := d.opc == 0x31
def isMac (d : SpecDesc) : Bool := d.opc == 0x32
def isInv (d : SpecDesc) : Bool := d.opc == 0x33
def ifmt? (d : SpecDesc) : Option Fmt := Fmt.ofCode (bits (d.w 0) 23 20)
def ofmt? (d : SpecDesc) : Option Fmt := Fmt.ofCode (bits (d.w 0) 19 16)
def ifmt (d : SpecDesc) : Fmt := d.ifmt?.getD .int8
def ofmt (d : SpecDesc) : Fmt := d.ofmt?.getD .int8
def sat (d : SpecDesc) : Bool := bit (d.w 0) 15
def biasen (d : SpecDesc) : Bool := bit (d.w 0) 14
def dw (d : SpecDesc) : Bool := bit (d.w 0) 13
def lgn (d : SpecDesc) : Nat := bits (d.w 0) 3 0
def n (d : SpecDesc) : Nat := 2 ^ d.lgn
def cout (d : SpecDesc) : Nat := bits (d.w 1) 28 16
def cin (d : SpecDesc) : Nat := bits (d.w 1) 12 0
def cend (d : SpecDesc) : Nat := bits (d.w 2) 28 16
def cstart (d : SpecDesc) : Nat := bits (d.w 2) 12 0
def ciend (d : SpecDesc) : Nat := bits (d.w 3) 28 16
def cistart (d : SpecDesc) : Nat := bits (d.w 3) 12 0
def fh (d : SpecDesc) : Nat := bits (d.w 4) 29 24
def fw (d : SpecDesc) : Nat := bits (d.w 4) 21 16
def padval (d : SpecDesc) : Nat := bits (d.w 4) 7 0
def ty (d : SpecDesc) : Nat := bits (d.w 5) 31 16
def tx (d : SpecDesc) : Nat := bits (d.w 5) 15 0
def padt (d : SpecDesc) : Nat := bits (d.w 6) 29 24
def padl (d : SpecDesc) : Nat := bits (d.w 6) 21 16
def iw (d : SpecDesc) : Nat := bits (d.w 7) 31 16
def ih (d : SpecDesc) : Nat := bits (d.w 7) 15 0
def ow (d : SpecDesc) : Nat := bits (d.w 8) 31 16
def oh (d : SpecDesc) : Nat := bits (d.w 8) 15 0
def aaddr (d : SpecDesc) : Nat := bits (d.w 9) 24 0
def baddr (d : SpecDesc) : Nat := bits (d.w 10) 24 0
def oaddr (d : SpecDesc) : Nat := bits (d.w 11) 24 0
def pinaddr (d : SpecDesc) : Nat := bits (d.w 12) 24 0
def biasaddr (d : SpecDesc) : Nat := bits (d.w 13) 24 0
def apitch (d : SpecDesc) : Nat := bits (d.w 14) 31 16 * 64
def opitch (d : SpecDesc) : Nat := bits (d.w 14) 15 0 * 64
def fmax (d : SpecDesc) : Nat := max d.fh d.fw
/-- Output rows and columns that one tile yields (R123). -/
def vh (d : SpecDesc) : Nat := d.n + 1 - d.fh
def vw (d : SpecDesc) : Nat := d.n + 1 - d.fw
def cinw (d : SpecDesc) : Nat := if d.dw then 1 else d.cin
/-- R124: CSL. -/
def csl (d : SpecDesc) : Nat := if d.dw then 1 else d.ciend - d.cistart
def couts (d : SpecDesc) : List Nat := (List.range (d.cend - d.cstart)).map (d.cstart + ·)
/-- Does an SMAC step close its channel range (R126)? -/
def closes (d : SpecDesc) : Bool := d.dw || d.ciend == d.cin
def pstrIn (d : SpecDesc) : Nat := ceilDiv (d.cin * d.ifmt.width) 256 * 32
def pstrOut (d : SpecDesc) : Nat := ceilDiv (d.cout * d.ofmt.width) 256 * 32

/-! ### Step count, regions and checks (R123, R128, R129) -/

/-- R128. -/
def steps (d : SpecDesc) : Nat :=
  let n2 := d.n * d.n
  if d.isFwd then 64 + (d.ciend - d.cistart) * n2 * d.lgn / 64
  else if d.isWxf then 64 + (d.cend - d.cstart) * d.csl * n2 * d.lgn / 64
  else if d.isMac then
    let pin := if 0 < d.cistart then 96 else 0
    let pout := if d.closes then 8 else 96
    64 + (d.cend - d.cstart) * ceilDiv (n2 * (16 * d.csl + pin + pout)) 1024
  else 64 + (d.cend - d.cstart) * n2 * d.lgn / 64

/-- One contiguous region of `len` bytes. -/
def flat (base len : Nat) : Region := ⟨base, len, 1, len⟩

def inRegions (d : SpecDesc) : List Region :=
  let n2 := d.n * d.n
  let co := d.cend - d.cstart
  if d.isFwd then [⟨d.aaddr, d.apitch, d.ih, d.iw * d.pstrIn⟩]
  else if d.isWxf then
    let e := d.fh * d.fw * (d.ifmt.width / 8)
    let first := if d.dw then 0 else d.cistart
    [⟨d.baddr + (d.cstart * d.cinw + first) * e, d.cinw * e, co, d.csl * e⟩]
  else if d.isMac then
    [flat d.aaddr ((if d.dw then co else d.csl) * n2 * 8), flat d.baddr (co * d.csl * n2 * 8)] ++
      (if 0 < d.cistart then [flat d.pinaddr (co * n2 * 96)] else [])
  else
    [flat d.aaddr (co * n2 * 8)] ++
      (if d.biasen then [flat (d.biasaddr + d.cstart * 4) (co * 4)] else [])

def outRegions (d : SpecDesc) : List Region :=
  let n2 := d.n * d.n
  let co := d.cend - d.cstart
  if d.isFwd then [flat d.oaddr ((d.ciend - d.cistart) * n2 * 8)]
  else if d.isWxf then [flat d.oaddr (co * d.csl * n2 * 8)]
  else if d.isMac then [flat d.oaddr (co * n2 * if d.closes then 8 else 96)]
  else [⟨d.oaddr, d.opitch, d.oh, d.ow * d.pstrOut⟩]

/-- R100, R129: a region out of range, misaligned, too short for its pitch, or overlapping. -/
def regionsBad (d : SpecDesc) : Bool :=
  [d.aaddr, d.baddr, d.oaddr, d.pinaddr, d.biasaddr].any (· % 64 != 0) ||
    (d.inRegions ++ d.outRegions).any (fun r => decide (r.pitch < r.len) || decide (stagingEnd < r.stop)) ||
    d.outRegions.any fun o => d.inRegions.any o.meets

def reservedMask : List Nat :=
  [0x1FF0, 0xE000E000, 0xE000E000, 0xE000E000, 0xC0C0FF00, 0, 0xC0C0FFFF, 0, 0,
   0xFE000000, 0xFE000000, 0xFE000000, 0xFE000000, 0xFE000000, 0, 0xFFFFFFFF]

/-- R100: a reserved bit or an unused field is not zero. -/
def unusedSet (d : SpecDesc) : Bool :=
  (List.range 16).any (fun i => d.w i &&& reservedMask.getD i 0 != 0) ||
  (!(d.isFwd || d.isWxf) && bits (d.w 0) 23 20 != 0) ||
  (!d.isInv && (bits (d.w 0) 19 16 != 0 || d.sat || d.biasen || d.w 8 != 0 || d.opitch != 0)) ||
  (d.isFwd && d.w 2 != 0) ||
  ((d.isInv || (d.dw && (d.isMac || d.isWxf))) && d.w 3 != 0) ||
  (!d.isFwd && (d.padval != 0 || d.w 6 != 0 || d.w 7 != 0 || d.apitch != 0)) ||
  (!(d.isFwd || d.isInv) && d.w 5 != 0) ||
  (d.isWxf && d.aaddr != 0) || (!(d.isWxf || d.isMac) && d.baddr != 0) ||
  (!(d.isMac && decide (0 < d.cistart)) && d.pinaddr != 0) ||
  (!(d.isInv && d.biasen) && d.biasaddr != 0)

/-- R123, R129: a count or geometry field outside its range. -/
def geometryBad (d : SpecDesc) : Bool :=
  let chan (v : Nat) := v == 0 || decide (4096 < v)
  chan d.cout || chan d.cin || (d.dw && d.cout != d.cin) ||
  (!d.isFwd && (decide (d.cend ≤ d.cstart) || decide (d.cout < d.cend))) ||
  (!d.isInv && !(d.dw && (d.isMac || d.isWxf)) &&
    (decide (d.ciend ≤ d.cistart) || decide (d.cin < d.ciend))) ||
  (d.isFwd && (decide (62 < d.padt) || decide (62 < d.padl) || d.iw == 0 || d.ih == 0)) ||
  (d.isInv && (d.ow == 0 || d.oh == 0))

def spatialFmt (f : Option Fmt) : Bool :=
  match f with
  | some .int8 | some .e4m3 | some .e5m2 | some .bf16 | some .fp32 => true
  | _ => false

/-- The faults found at decode, in ascending code; `available` says that CDn.WS is powered. -/
def decodeChecks (d : SpecDesc) (available : Bool) : List (Nat × Bool) :=
  [(0x01, (d.isFwd || d.isWxf) && !spatialFmt d.ifmt?),
   (0x02, d.isInv && !spatialFmt d.ofmt?),
   (0x11, d.isMac && !d.dw && (d.cistart % 512 != 0 || (d.ciend % 512 != 0 && d.ciend != d.cin))),
   (0x16, d.geometryBad), (0x17, d.regionsBad), (0x18, d.unusedSet),
   (0x19, decide (18000 < d.steps)), (0x20, !available),
   (0x22, d.fh == 0 || d.fw == 0 || decide (d.fmax < 8) || decide (d.n < d.fh) || decide (d.n < d.fw) ||
      decide (d.lgn < 4) || decide (8 < d.lgn))]

def decodeFault (d : SpecDesc) (available : Bool) : Option Nat :=
  ((d.decodeChecks available).find? (·.2)).map (·.1)

/-! ### The four steps -/

/-- The bytes of a tile of bins from `base` (R124). -/
def tileBytes (d : SpecDesc) (base : Nat) (t : List (List Cx)) : List (Nat × Byte) :=
  (List.range d.n).flatMap fun u => placeBytes (base + u * d.n * 8)
    ((t.getD u []).flatMap fun c => leBytes 4 c.1 ++ leBytes 4 c.2)

/-- Bin `i` (`u * N + v`) of the tile at `base`. -/
def bin (rd : Rd) (base i : Nat) : Cx := (rd.le (base + i * 8) 4, rd.le (base + i * 8 + 4) 4)

/-- R125 SFWD: the spatial tile of channel `ci`. -/
def fwdTile (d : SpecDesc) (rd : Rd) (ci : Nat) : List (List Cx) :=
  (List.range d.n).map fun y => (List.range d.n).map fun x =>
    let iy : Int := (d.ty * d.vh + y : Nat) - (d.padt : Int)
    let ix : Int := (d.tx * d.vw + x : Nat) - (d.padl : Int)
    let code := if 0 ≤ iy ∧ iy < d.ih ∧ 0 ≤ ix ∧ ix < d.iw then
        rd.elem (d.aaddr + iy.toNat * d.apitch + ix.toNat * d.pstrIn) ci d.ifmt.width
      else d.padval
    (roundF32 (d.ifmt.value code), 0)

/-- R125 SWXF: the flipped filter of `(co, ci)`. -/
def filterTile (d : SpecDesc) (rd : Rd) (co ci : Nat) : List (List Cx) :=
  (List.range d.n).map fun y => (List.range d.n).map fun x =>
    if y < d.fh ∧ x < d.fw then
      let i := (((co * d.cinw + ci) * d.fh + (d.fh - 1 - y)) * d.fw + (d.fw - 1 - x))
      (roundF32 (d.ifmt.value (rd.elem d.baddr i d.ifmt.width)), 0)
    else (0, 0)

/-- R126: the products of one bin, over the input channels of the step. -/
def macProducts (d : SpecDesc) (rd : Rd) (co i : Nat) : List Cx :=
  let n2 := d.n * d.n
  (List.range d.csl).map fun k =>
    let x := bin rd (d.aaddr + (if d.dw then co - d.cstart else k) * n2 * 8) i
    let g := bin rd (d.baddr + ((co - d.cstart) * d.csl + k) * n2 * 8) i
    (fsub (fmul x.1 g.1) (fmul x.2 g.2), fadd (fmul x.1 g.2) (fmul x.2 g.1))

/-- Push the segments of one component onto its canonical fold (R57, R126). -/
def macFold (acc : CAcc) (ps : List Nat) : CAcc :=
  (chunks 512 ps.length ps).foldl (fun acc seg =>
    let blocks := (chunks 32 seg.length seg).map fun b => roundF32 (exactSum (b.map decF32)).value
    acc.push (segmentResult blocks)) acc

/-- R126: the two partials of one bin of channel `co`, none where a check of R57 fails. -/
def macPartial (d : SpecDesc) (rd : Rd) (co i : Nat) : Option (CAcc × CAcc) :=
  if d.cistart = 0 then some ({}, {})
  else
    let a := d.pinaddr + (co - d.cstart) * d.n * d.n * 96 + i * 96
    match CAcc.unpack (d.cistart / 512) (rd.bytes a 48), CAcc.unpack (d.cistart / 512) (rd.bytes (a + 48) 48) with
    | some r, some m => some (r, m)
    | _, _ => none

/-- R126: the bytes of one bin of an SMAC output. -/
def macBin (d : SpecDesc) (rd : Rd) (co i : Nat) (p : CAcc × CAcc) : List (Nat × Byte) :=
  let ps := d.macProducts rd co i
  let re := macFold p.1 (ps.map (·.1))
  let im := macFold p.2 (ps.map (·.2))
  let n2 := d.n * d.n
  if d.closes then
    placeBytes (d.oaddr + (co - d.cstart) * n2 * 8 + i * 8)
      (leBytes 4 ((closeStack fadd re.stack).getD 0) ++ leBytes 4 ((closeStack fadd im.stack).getD 0))
  else placeBytes (d.oaddr + (co - d.cstart) * n2 * 96 + i * 96) (re.pack ++ im.pack)

/-- R126 SMAC, bin after bin; a partial that fails its check ends the step. -/
def runMac (d : SpecDesc) (rd : Rd) : List (Nat × Nat) → List (Nat × Byte) → EngineOut
  | [], acc => { writes := acc }
  | (co, i) :: r, acc =>
    match d.macPartial rd co i with
    | none => { writes := acc, fault := some 0x14 }
    | some p => d.runMac rd r (acc ++ d.macBin rd co i p)

/-- R127 SINV of channel `co`. -/
def invWrites (d : SpecDesc) (rd : Rd) (co : Nat) : List (Nat × Byte) :=
  let base := d.aaddr + (co - d.cstart) * d.n * d.n * 8
  let t := fft2 d.lgn true ((List.range d.n).map fun u => (List.range d.n).map fun v => bin rd base (u * d.n + v))
  (List.range d.vh).flatMap fun r => (List.range d.vw).flatMap fun c =>
    let oy := d.ty * d.vh + r
    let ox := d.tx * d.vw + c
    if oy < d.oh ∧ ox < d.ow then
      let x := ((t.getD (r + d.fh - 1) []).getD (c + d.fw - 1) (0, 0)).1
      let y := if d.biasen then fadd x (rd.le (d.biasaddr + co * 4) 4) else x
      placeBytes (d.oaddr + oy * d.opitch + ox * d.pstrOut + co * (d.ofmt.width / 8))
        (leBytes (d.ofmt.width / 8) (d.ofmt.convert d.sat (decF32 y)).code)
    else []

/-- A spectral step. -/
def run (d : SpecDesc) (rd : Rd) : EngineOut :=
  let n2 := d.n * d.n
  if d.isFwd then
    { writes := (List.range (d.ciend - d.cistart)).flatMap fun k =>
        d.tileBytes (d.oaddr + k * n2 * 8) (fft2 d.lgn false (d.fwdTile rd (d.cistart + k))) }
  else if d.isWxf then
    { writes := d.couts.flatMap fun co => (List.range d.csl).flatMap fun k =>
        d.tileBytes (d.oaddr + ((co - d.cstart) * d.csl + k) * n2 * 8)
          (fft2 d.lgn false (d.filterTile rd co (if d.dw then 0 else d.cistart + k))) }
  else if d.isMac then
    d.runMac rd (d.couts.flatMap fun co => (List.range n2).map fun i => (co, i)) []
  else { writes := d.couts.flatMap fun co => d.invWrites rd co }

end SpecDesc

end Sys2Proof.Machine
end

