-- ==== Sys2Proof/Machine/Engines.lean ====
section
/-! DEFINITION.  A work-list step as the scheduler sees it: which engine its OPC names, its checks at
decode, the staging regions it reads and writes, its handshake steps and its run (R170 to R177). -/

namespace Sys2Proof.Machine

/-- The units that a step runs on. -/
inductive Unit5 where
  | braid | strand | whip | spectral | transfer | sync
  deriving DecidableEq, Repr

/-- The number an engine's tables are kept under. -/
def Unit5.code : Unit5 → Nat
  | .braid => 0 | .strand => 1 | .whip => 2 | .spectral => 3 | .transfer => 4 | .sync => 5

/-- The four compute engines. -/
def engines4 : List Unit5 := [.braid, .strand, .whip, .spectral]

/-- The unit an OPC names (R171). -/
def unitOf (opc : Nat) : Option Unit5 :=
  if opc = 0x10 ∨ opc = 0x11 then some .braid
  else if opc = 0x18 ∨ opc = 0x19 then some .whip
  else if 0x30 ≤ opc ∧ opc ≤ 0x33 then some .spectral
  else if 0x40 ≤ opc ∧ opc ≤ 0x5E ∧ opc ≠ 0x57 ∧ opc ≠ 0x5A ∧ opc ≠ 0x5B then some .strand
  else if opc = 0x60 ∨ opc = 0x61 then some .transfer
  else if opc = 0x70 ∨ opc = 0x71 then some .sync
  else none

/-- A step entry: 48 words, a header of 16 and a body of 32 (R170). -/
structure StepEntry where
  words : List Nat
  deriving DecidableEq, Repr

namespace StepEntry

def w (e : StepEntry) (i : Nat) : Nat := e.words.getD i 0
def body (e : StepEntry) : List Nat := e.words.drop 16
def b (e : StepEntry) (i : Nat) : Nat := e.w (16 + i)
def opc (e : StepEntry) : Nat := bits (e.b 0) 31 24
def ckpt (e : StepEntry) : Bool := bit (e.w 0) 31
def barrier (e : StepEntry) : Bool := bit (e.w 0) 30
def irq (e : StepEntry) : Bool := bit (e.w 0) 29
def depmask (e : StepEntry) : Nat := e.w 1
def unit? (e : StepEntry) : Option Unit5 := unitOf e.opc

/-! The transfer step's fields (R172). -/
def vaddr (e : StepEntry) : Nat := e.b 1 + bits (e.b 2) 15 0 * 2 ^ 32
def saddr (e : StepEntry) : Nat := bits (e.b 3) 24 0
def len (e : StepEntry) : Nat := bits (e.b 4) 20 0
def rows (e : StepEntry) : Nat := bits (e.b 5) 15 0
def vpitch (e : StepEntry) : Nat := e.b 6
def spitch (e : StepEntry) : Nat := bits (e.b 7) 15 0 * 64

def tile (e : StepEntry) : TileDesc := ⟨e.body⟩
def strandDesc (e : StepEntry) : StrandDesc := ⟨e.body.take 16⟩
def spec (e : StepEntry) : SpecDesc := ⟨e.body.take 16⟩

/-- The header is malformed for position `pos` (fault 0x41, R170). -/
def headerBad (e : StepEntry) (pos : Nat) : Bool :=
  e.w 2 != pos || bits (e.w 0) 28 0 != 0 || (List.range 13).any (fun i => e.w (3 + i) != 0) ||
    (List.range 32).any fun i => bit e.depmask i && decide (pos < i + 1)

/-- A reserved bit of a transfer or sync body, or of the upper half of a 64-byte descriptor's body, is
set (fault 0x18). -/
def reservedSet (e : StepEntry) : Bool :=
  match e.unit? with
  | some .transfer =>
    bits (e.b 0) 22 0 != 0 || bits (e.b 2) 31 16 != 0 || bits (e.b 3) 31 25 != 0 || bits (e.b 4) 31 21 != 0 ||
      bits (e.b 5) 31 16 != 0 || bits (e.b 7) 31 16 != 0 || (List.range 24).any fun i => e.b (8 + i) != 0
  | some .sync =>
    bits (e.b 0) 23 0 != 0 ||
      (if e.opc = 0x70 then bits (e.b 1) 31 12 != 0 || bits (e.b 1) 7 2 != 0 || e.b 2 != 0
       else bits (e.b 1) 31 4 != 0) || (List.range 29).any fun i => e.b (3 + i) != 0
  | some .strand | some .spectral => (List.range 16).any fun i => e.b (16 + i) != 0
  | _ => false

/-- The transfer faults of R172. -/
def transferFault (e : StepEntry) : List (Nat × Bool) :=
  [(0x16, decide (e.len < 64) || decide (e.len > 2 ^ 20) || e.len % 64 != 0 || e.rows == 0),
   (0x17, e.vaddr % 64 != 0 || e.saddr % 64 != 0 || e.vpitch % 64 != 0)]

/-- The staging regions a step reads and writes (R79, R81, R110, R113, R114, R124, R172). -/
def regions (e : StepEntry) : List Region × List Region :=
  match e.unit? with
  | some .braid | some .whip => (e.tile.inRegions, e.tile.outRegions)
  | some .strand => (e.strandDesc.inRegions, e.strandDesc.outRegions)
  | some .spectral => (e.spec.inRegions, e.spec.outRegions)
  | some .transfer =>
    let r : Region := ⟨e.saddr, e.spitch, e.rows, e.len⟩
    if e.opc = 0x60 then ([], [r]) else ([r], [])
  | _ => ([], [])

/-- The region lies inside the partition (R176). -/
def inPartition (base size : Nat) (r : Region) : Bool :=
  decide (base ≤ r.base) && decide (r.stop ≤ base + size) &&
    decide (r.base + (r.rows - 1) * r.pitch + r.len ≤ base + size)

/-- The engine's own decode faults: `braidUp`, `u` and `wsUp` say what is usable. -/
def engineFaults (e : StepEntry) (braidUp : Bool) (u : Nat) (wsUp : Bool) : List Nat :=
  match e.unit? with
  | some .braid => (e.tile.decodeFault braidUp).toList
  | some .whip => (e.tile.decodeFault wsUp).toList
  | some .strand => (e.strandDesc.decodeFault u).toList
  | some .spectral => (e.spec.decodeFault wsUp).toList
  | some .transfer => (e.transferFault.filter (·.2)).map (·.1)
  | _ => []

/-- The fault held with a step at decode: the lowest of every cause; an unknown OPC is checked for
nothing else (R171, R176, R196). -/
def decodeFault (e : StepEntry) (pos base size : Nat) (rt braidUp : Bool) (u : Nat) (wsUp : Bool) : Option Nat :=
  match e.unit? with
  | none => some 0x18
  | some _ =>
    let codes := e.engineFaults braidUp u wsUp ++ (if e.reservedSet then [0x18] else []) ++
      (if e.headerBad pos then [0x41] else []) ++
      (if (e.regions.1 ++ e.regions.2).all (inPartition base size) then [] else [0x43]) ++
      (if rt ∧ e.opc = 0x71 then [0x48] else [])
    codes.min?

end StepEntry

/-- A region widened to whole 64-byte units. -/
def Region.widen (r : Region) : Region := { r with base := r.base / 64 * 64, len := alignUp (r.base % 64 + r.len) 64 }

/-- Overlap at 64-byte granularity (R177). -/
def Region.meets64 (x y : Region) : Bool := x.widen.meets y.widen

/-- Step `j` must wait for the earlier step `i` to commit (R177). -/
def mustWait (j i : StepEntry) (jpos ipos : Nat) : Bool :=
  let (jr, jw) := j.regions
  let (ir, iw) := i.regions
  jr.any (fun x => iw.any x.meets64) || jw.any (fun x => ir.any x.meets64) || jw.any (fun x => iw.any x.meets64) ||
    (decide (jpos - ipos ≤ 32) && bit j.depmask (jpos - 1 - ipos)) || j.barrier || i.opc == 0x71 || j.opc == 0x70

/-- A run of a compute step on staging read by `rd`, on the shape and strand units it was granted. -/
def StepEntry.run (e : StepEntry) (rd : Rd) (shape u : Nat) : EngineOut :=
  match e.unit? with
  | some .braid => e.tile.run rd (shapeDims shape).1 (shapeDims shape).2
  | some .whip => e.tile.run rd 64 16
  | some .strand =>
    let o := e.strandDesc.run rd
    { o with steps := match o.fault with
        | some _ => o.steps
        | none => e.strandDesc.steps u }
  | some .spectral =>
    let o := e.spec.run rd
    { o with steps := match o.fault with
        | some _ => o.steps
        | none => e.spec.steps }
  | _ => {}

end Sys2Proof.Machine
end

