-- ==== Sys2Proof/Machine/Xlat.lean ====
section
/-! DEFINITION.  Address translation of engines and hub masters: device contexts, the Sv48 walk, cached
and locked entries, and the causes of a fault (R251 to R256). -/

namespace Sys2Proof.Machine

/-- The identity of a translation unit's own reads: a hub engine's. -/
def walkMid : Nat := 0x100

/-- A translation unit's `u` state. -/
def Tx.xltOf (t : Tx) (u : Nat) : Xlt := t.d.xlt.at u

/-- Unit `u` changed by `f`. -/
def Tx.onXlt (t : Tx) (u : Nat) (f : Xlt → Xlt) : Tx := { t with d := { t.d with xlt := t.d.xlt.upd u f } }

/-- A 48-bit address field taken as sign-extended to 64 bits (R253). -/
def sext48 (va : Nat) : Nat := if bit va 47 then va % 2 ^ 48 + (2 ^ 64 - 2 ^ 48) else va % 2 ^ 48

/-- Bits 63:48 equal bit 47. -/
def va64Ok (va : Nat) : Bool := va == sext48 va

/-- The device context table's entry as read: none where it is not valid (R252). -/
def dcxOf (bs : List Byte) : Option Dcx :=
  let f (o n : Nat) := leNat ((bs.drop o).take n)
  let flags := f 0 4
  if bit flags 0 ∧ flags < 128 ∧ f 4 4 = 0 ∧ f 8 8 < 2 ^ 44 ∧ f 0x14 12 = 0 then
    some ⟨flags, f 8 8, f 0x10 2, f 0x12 2⟩
  else none

def Dcx.locked (c : Dcx) : Bool := bit c.flags 1
def Dcx.scalloc (c : Dcx) : Bool := bit c.flags 2
def Dcx.rdonly (c : Dcx) : Bool := bit c.flags 3

/-- The log of the device context table's size; larger values act as 12 (R263). -/
def Tx.log2ndc (t : Tx) (u : Nat) : Nat := min 12 (t.rd (XLT_CTL_LOG2NDC (xltBase u)))

/-- Device context `ctx` of unit `u`, cached or read from the table: the context, or a cause (R256). -/
def Tx.devctx (t : Tx) (u ctx : Nat) : Tx × Except Nat Dcx :=
  if !t.is (XLT_CTL_EN (xltBase u)) then (t, .error 1)
  else if ctx ≥ 2 ^ t.log2ndc u then (t, .error 1)
  else match (t.xltOf u).dcs.find? (·.1 == ctx) with
    | some (_, c) => (t, .ok c)
    | none =>
      match t.physRead walkMid (t.pair (XLT_DCT_LO (xltBase u)) / 4096 * 4096 + ctx * 32) 32 with
      | .ok bs =>
        match dcxOf bs with
        | some c => (t.onXlt u fun x => { x with dcs := (ctx, c) :: x.dcs }, .ok c)
        | none => (t, .error 1)
      | _ => (t, .error 9)

/-- The bytes a page of level `l` spans. -/
def pageSpan (l : Nat) : Nat := 2 ^ (12 + 9 * l)

/-- The Sv48 walk from the table at `table`, level `l` downwards (R253). -/
def Tx.walk (t : Tx) (ctx va : Nat) : Nat → Nat → Except Nat Leaf
  | l, table =>
    match t.physLE walkMid (table + bits va (20 + 9 * l) (12 + 9 * l) * 8) 8 with
    | none => .error 9
    | some pte =>
      let v := bit pte 0
      let r := bit pte 1
      let w := bit pte 2
      let x := bit pte 3
      let ppn := bits pte 53 10
      if !v || (w && !r) then .error 4
      else if bits pte 63 54 ≠ 0 then .error 7
      else if r || w || x then
        if ppn % 2 ^ (9 * l) ≠ 0 then .error 7
        else .ok ⟨ctx, va % 2 ^ 48 / pageSpan l * pageSpan l, l, ppn * 4096, r, w, bit pte 6, bit pte 7⟩
      else match l with
        | 0 => .error 4
        | l' + 1 => t.walk ctx va l' (ppn * 4096)

/-- The leaf covers the address in its context. -/
def Leaf.covers (f : Leaf) (ctx va : Nat) : Bool :=
  f.ctx == ctx && va % 2 ^ 48 / pageSpan f.level * pageSpan f.level == f.va

/-- The translations a unit caches (R254). -/
def tlbSize (u : Nat) : Nat := if u < 4 then 2048 else 4096

/-- `f` enters the cached translations; from a full set an entry leaves, which one is open. -/
def Tx.cacheLeaf (t : Tx) (u : Nat) (f : Leaf) : Tx :=
  if (t.xltOf u).tlb.length < tlbSize u then t.onXlt u fun x => { x with tlb := f :: x.tlb }
  else
    let (i, t) := t.pick (tlbSize u)
    t.onXlt u fun x => { x with tlb := f :: x.tlb.eraseIdx i }

/-- The leaf for an address: locked, cached, or walked; a LOCKED context has locked entries only. -/
def Tx.leafFor (t : Tx) (u : Nat) (c : Dcx) (ctx va : Nat) : Tx × Except Nat Leaf :=
  match (t.xltOf u).locked.find? (·.covers ctx va) with
  | some f => (t, .ok f)
  | none =>
    if c.locked then (t, .error 0xA)
    else match (t.xltOf u).tlb.find? (·.covers ctx va) with
      | some f => (t, .ok f)
      | none =>
        match t.walk ctx va 3 (c.root * 4096) with
        | .ok f => if f.a then (t.cacheLeaf u f, .ok f) else (t, .ok f)
        | .error e => (t, .error e)

/-- The ranges a translation may yield (R251). -/
def xltRange (u pa : Nat) : Bool :=
  decide (pa < dramEnd) || (decide (poolBase ≤ pa) && decide (pa < poolEnd)) ||
  (decide (homeBase ≤ pa) && decide (pa < homeEnd)) || (decide (scrBase ≤ pa) && decide (pa < scrEnd)) ||
  (u == 4 && decide (pcieBase ≤ pa) && decide (pa < pcieEnd))

/-- Translation of one access of `mid` through unit `u`: a physical address, or a cause. -/
def Tx.xlate (t : Tx) (u ctx mid va : Nat) (write : Bool) : Tx × Except Nat Nat :=
  match t.devctx u ctx with
  | (t, .error e) => (t, .error e)
  | (t, .ok c) =>
    if mid < c.midlo ∨ c.midhi < mid then (t, .error 2)
    else if !va64Ok va then (t, .error 3)
    else match t.leafFor u c ctx va with
      | (t, .error e) => (t, .error e)
      | (t, .ok f) =>
        if (!write && !f.r) || (write && (!f.w || c.rdonly)) then (t, .error 5)
        else if !f.a || (write && !f.d) then (t, .error 6)
        else
          let pa := f.pa + va % pageSpan f.level
          if pa ≥ 2 ^ 48 ∨ !xltRange u pa then (t, .error 8) else (t, .ok pa)

/-- A translation fault is recorded in the unit's registers (R256, R257). -/
def Tx.xltFault (t : Tx) (u ctx va cause : Nat) (write : Bool) : Tx :=
  let b := xltBase u
  let t := (((t.wr (XLT_FLT_DEVCTX b) ctx).wr (XLT_FLT_CAUSE b) cause).wr (XLT_FLT_ACC b) (if write then 2 else 1))
  ((t.setPair (XLT_FVA_LO b) (va % 2 ^ 48)).set1 (XLT_STAT_FAULT b)).inc (XLT_FCNT_FCNT b)

/-- How a translated access ends. -/
inductive VAns (α : Type) where
  | ok (v : α)
  /-- a translation fault of this cause at this address -/
  | fault (cause va : Nat)
  /-- poisoned data at this address -/
  | poison (va : Nat)
  /-- held until the target is ready -/
  | held

/-- One access within a line through unit `u`: a read of `n` bytes. -/
def Tx.vReadRun (t : Tx) (u ctx mid va n : Nat) : Tx × VAns (List Byte) :=
  match t.xlate u ctx mid va false with
  | (t, .error e) => (t.xltFault u ctx va e false, .fault e va)
  | (t, .ok pa) =>
    match t.physRead mid pa n with
    | .ok bs => (if inPcie pa then { t with d := { t.d with free := t.d.free + 1 } } else t, .ok bs)
    | .decode _ => (t.xltFault u ctx va 0xB false, .fault 0xB va)
    | .poison _ => (t, .poison va)
    | .held => (t, .held)

/-- One access within a line through unit `u`: a write. -/
def Tx.vWriteRun (t : Tx) (u ctx mid va : Nat) (bs : List Byte) : Tx × VAns Unit :=
  match t.xlate u ctx mid va true with
  | (t, .error e) => (t.xltFault u ctx va e true, .fault e va)
  | (t, .ok pa) =>
    match t.physWrite mid pa bs with
    | (t, .ok ()) => (t, .ok ())
    | (t, .decode _) => (t.xltFault u ctx va 0xB true, .fault 0xB va)
    | (t, .poison _) => (t, .poison va)
    | (t, .held) => (t, .held)

/-- A translated read of `n` bytes, line by line in ascending order; it stops at the first that fails. -/
def Tx.vRead (t : Tx) (u ctx mid va n : Nat) : Tx × VAns (List Byte) :=
  (lineRuns va n).foldl (fun (t, acc) (a, k) =>
    match acc with
    | .ok bs =>
      match t.vReadRun u ctx mid a k with
      | (t, .ok cs) => (t, .ok (bs ++ cs))
      | (t, .fault c v) => (t, .fault c v)
      | (t, .poison v) => (t, .poison v)
      | (t, .held) => (t, .held)
    | e => (t, e)) (t, .ok [])

/-- A translated write, line by line in ascending order; it stops at the first that fails. -/
def Tx.vWrite (t : Tx) (u ctx mid va : Nat) (bs : List Byte) : Tx × VAns Unit :=
  (lineRuns va bs.length).foldl (fun (t, acc) (a, k) =>
    match acc with
    | .ok () => t.vWriteRun u ctx mid a ((bs.drop (a - va)).take k)
    | e => (t, e)) (t, .ok ())

/-- A translated access that ends well. -/
def VAns.isOk {α : Type} (v : VAns α) : Bool :=
  match v with
  | .ok _ => true
  | _ => false

/-- An access that is held. -/
def VAns.isHeld {α : Type} (v : VAns α) : Bool :=
  match v with
  | .held => true
  | _ => false

end Sys2Proof.Machine
end

