-- ==== Sys2Proof/Machine/SchedCore.lean ====
section
/-! DEFINITION.  The step scheduler's shared operations: contexts and their registers, memory accesses
and what they are charged, readiness, the grant of an engine, the end of a step, stopping, and restart
records (R164 to R192, R217, R218, R222, R223). -/

namespace Sys2Proof.Machine

/-- The identity of compute die `d`'s own accesses (R19): the lowest of its range. -/
def dieMid (d : Nat) : Nat := 0x200 + d * 0x100

def Tx.schOf (t : Tx) (d : Nat) : Sch := t.d.sch.at d
def Tx.onSch (t : Tx) (d : Nat) (f : Sch → Sch) : Tx := { t with d := { t.d with sch := t.d.sch.upd d f } }
def Tx.ctxOf (t : Tx) (d c : Nat) : Sctx := (t.schOf d).ctx.at c
def Tx.onCtx (t : Tx) (d c : Nat) (f : Sctx → Sctx) : Tx := t.onSch d fun s => { s with ctx := s.ctx.upd c f }

/-! A ring entry's fields (R165). -/

/-- `n` bytes at offset `o` of an entry. -/
def entF (e : List Byte) (o n : Nat) : Nat := leNat ((e.drop o).take n)

namespace Sctx
def listaddr (s : Sctx) : Nat := entF s.ent 0x00 8
def commitaddr (s : Sctx) : Nat := entF s.ent 0x08 8
def saveaddr (s : Sctx) : Nat := entF s.ent 0x10 8
def certaddr (s : Sctx) : Nat := entF s.ent 0x18 8
def epoch (s : Sctx) : Nat := entF s.ent 0x28 4
def nsteps (s : Sctx) : Nat := entF s.ent 0x2C 2
def client (s : Sctx) : Nat := entF s.ent 0x2E 1 % 64
def flags (s : Sctx) : Nat := entF s.ent 0x2F 1
def partbase (s : Sctx) : Nat := entF s.ent 0x30 4
def partsize (s : Sctx) : Nat := entF s.ent 0x34 4
def devctx (s : Sctx) : Nat := entF s.ent 0x38 2
def gateevt (s : Sctx) : Nat := entF s.ent 0x3A 1 % 16
def rrslot (s : Sctx) : Nat := entF s.ent 0x3B 1
def gateval (s : Sctx) : Nat := entF s.ent 0x3C 4
/-- The context holds a staging partition. -/
def holds (s : Sctx) : Bool := s.st != .idle && !s.atFetch && s.st != .lost
/-- The decoded step `j`. -/
def step? (s : Sctx) (j : Nat) : Option StepSt := s.steps.find? (·.idx == j)
/-- Step `j` has committed. -/
def committed (s : Sctx) (j : Nat) : Bool := decide (j < s.next) || bit s.done (j - s.next)
end Sctx

def StepSt.entry (s : StepSt) : StepEntry := ⟨s.words⟩

/-- The ring of context `c` is real-time (R164). -/
def Tx.rt (t : Tx) (d c : Nat) : Bool := t.is (CD_SCH_RCFG_RT d c)

/-- The encoding of a state in CD_SCH_CTX (R182). -/
def CtxState.code : CtxState → Nat
  | .idle => 0 | .gated => 1 | .running => 2 | .stopping => 3
  | .stopped => 4 | .suspended => 5 | .lost => 6 | .error => 7

/-- The record a context holds. -/
def Sch.recOf (s : Sch) (c : Nat) : Option Rec := s.recs.find? fun r => r.ctx == c && !r.released

/-- CD_SCH_CTX, BUSYCTX and RESIDENT show where context `c` stands (R198 to R200). -/
def Tx.showCtx (t : Tx) (d c : Nat) : Tx :=
  let s := t.ctxOf d c
  let slot := match (t.schOf d).recOf c with
    | some r => r.slot
    | none => 0x1F
  let busy := t.rd (CD_SCH_STAT_BUSYCTX d)
  let busy := if s.st = .idle then busy &&& (255 - 2 ^ c) else busy ||| 2 ^ c
  ((((t.wr (CD_SCH_CTX_STATE d c) s.st.code).wr (CD_SCH_CTX_RRSLOT d c) slot).wr (CD_SCH_CTX_NEXT d c) s.next).wr
    (CD_SCH_STAT_BUSYCTX d) busy).wr (CD_SCH_RRAUD_RESIDENT d) (t.schOf d).recs.length

/-- A ring's interrupt: source 128 + 16 n + r (R625). -/
def Tx.ringIrq (t : Tx) (d c : Nat) : Tx := t.irq (128 + 16 * d + c)

/-! ### Accounting -/

/-- A counter pair of class `cls`: `k` of R232's list. -/
def actPair (d cls k : Nat) : Nat := CD_ACT_BRD_LO d cls + 8 * k

/-- `n` bytes are charged to class `cls` at the level that served them; for an LPDDR5X access whether the
system cache served it is open (R222, R223). -/
def Tx.chargeBytes (t : Tx) (d cls pa n : Nat) : Tx :=
  if pa < dramEnd then
    let (hit, t) := t.pick 2
    if hit = 1 then (t.incPair (actPair d cls 4) n).incPair HD_SC_HIT_LO 1
    else (t.incPair (actPair d cls 5) n).incPair HD_SC_MISS_LO 1
  else if poolBase ≤ pa ∧ pa < homeEnd then t.incPair (actPair d cls 3) n
  else if scrBase ≤ pa ∧ pa < scrEnd then t.incPair (actPair d cls 4) n
  else t.incPair (actPair d cls 6) n

/-- The page-table entries a walk for the address reads, highest level first. -/
def Tx.walkPtes (t : Tx) (va : Nat) : Nat → Nat → List Nat
  | l, table =>
    let a := table + bits va (20 + 9 * l) (12 + 9 * l) * 8
    match t.physLE walkMid a 8 with
    | none => [a]
    | some pte =>
      if bits pte 3 1 ≠ 0 ∨ !bit pte 0 then [a]
      else match l with
        | 0 => [a]
        | l' + 1 => a :: t.walkPtes va l' (bits pte 53 10 * 4096)

/-- The bytes that translating an access will fetch: the device context and the walk (R222). -/
def Tx.walkReads (t : Tx) (u ctx va : Nat) : List (Nat × Nat) :=
  let x := t.xltOf u
  match x.dcs.find? (·.1 == ctx) with
  | none => [(t.pair (XLT_DCT_LO (xltBase u)) / 4096 * 4096 + ctx * 32, 32)]
  | some (_, c) =>
    if c.locked || x.locked.any (·.covers ctx va) || x.tlb.any (·.covers ctx va) then []
    else (t.walkPtes va 3 (c.root * 4096)).map fun a => (a, 8)

/-- A translated access of the die's own, with what it is charged: `f` does the access of one line. -/
def Tx.dieRun {α : Type} (t : Tx) (d cls ctx va n : Nat) (write : Bool) (f : Tx → Tx × VAns α) : Tx × VAns α :=
  let reads := t.walkReads d ctx va
  let t := t.each reads fun t (a, k) => t.chargeBytes d cls a k
  match f t with
  | (t, .ok v) =>
    match t.xlate d ctx (dieMid d) va write with
    | (t, .ok pa) => (t.chargeBytes d cls pa n, .ok v)
    | (t, _) => (t, .ok v)
  | r => r

/-- A read by die `d` in device context `ctx` for class `cls`. -/
def Tx.dieRead (t : Tx) (d cls ctx va n : Nat) : Tx × VAns (List Byte) :=
  (lineRuns va n).foldl (fun (t, acc) (a, k) =>
    match acc with
    | .ok bs =>
      match t.dieRun d cls ctx a k false fun t => t.vReadRun d ctx (dieMid d) a k with
      | (t, .ok cs) => (t, .ok (bs ++ cs))
      | (t, e) => (t, e)
    | e => (t, e)) (t, .ok [])

/-- A write by die `d`. -/
def Tx.dieWrite (t : Tx) (d cls ctx va : Nat) (bs : List Byte) : Tx × VAns Unit :=
  (lineRuns va bs.length).foldl (fun (t, acc) (a, k) =>
    match acc with
    | .ok () => t.dieRun d cls ctx a k true fun t => t.vWriteRun d ctx (dieMid d) a ((bs.drop (a - va)).take k)
    | e => (t, e)) (t, .ok ())

/-! ### Engines -/

/-- Quadrants the Braid cannot use: fenced, switched off or without power (R73, R90, R91). -/
def Tx.unusable (t : Tx) (d : Nat) : Nat :=
  (List.range 4).foldl (fun m q =>
    if bit (t.rd (CD_BRD_QCTL_QFENCE d)) q || bit (t.rd (CD_BRD_QCTL_QOFF d)) q || !t.powered (domBQ d q)
    then m ||| 2 ^ q else m) 0

/-- The strand pairs in use: powered and not switched off (R101, R131). -/
def Tx.pairMask (t : Tx) (d : Nat) : Nat :=
  (List.range 4).foldl (fun m p =>
    if bit (t.rd (CD_STR_CTL_PAIROFF d)) p || !t.powered (domSP d p) then m else m ||| 2 ^ p) 0

/-- Usable strand units. -/
def Tx.strandUnits (t : Tx) (d : Nat) : Nat := 16 * popcount 4 (t.pairMask d)

/-- SHAPE, QACT, UPAIR and the AVAIL bits show what an engine at a boundary would use (R90, R95, R132,
R134). -/
def Tx.showEngines (t : Tx) (d : Nat) : Tx :=
  let t := if t.is (CD_BRD_QSTAT_BUSY d) then t else
    match shapeOf (t.unusable d) with
    | some (s, q) => ((t.wr (CD_BRD_QSTAT_SHAPE d) s).wr (CD_BRD_QSTAT_QACT d) q).wr (CD_BRD_QSTAT_AVAIL d) 1
    | none => ((t.wr (CD_BRD_QSTAT_SHAPE d) 0).wr (CD_BRD_QSTAT_QACT d) 0).wr (CD_BRD_QSTAT_AVAIL d) 0
  let t := if t.is (CD_STR_STAT_BUSY d) then t else
    (t.wr (CD_STR_STAT_UPAIR d) (t.pairMask d)).wr (CD_STR_STAT_AVAIL d) (if t.pairMask d = 0 then 0 else 1)
  t.wr (CD_WSP_STAT_AVAIL d) (if t.powered (domWS d) then 1 else 0)

/-- The BUSY bit of an engine. -/
def busyBit (d : Nat) : Unit5 → Option FRef
  | .braid => some (CD_BRD_QSTAT_BUSY d)
  | .strand => some (CD_STR_STAT_BUSY d)
  | .whip => some (CD_WSP_STAT_WBUSY d)
  | .spectral => some (CD_WSP_STAT_SBUSY d)
  | _ => none

/-- The engine `e` can take a step now. -/
def Tx.engineUp (t : Tx) (d : Nat) (e : Unit5) : Bool :=
  match e with
  | .braid => (shapeOf (t.unusable d)).isSome
  | .strand => t.pairMask d != 0
  | .whip | .spectral => t.powered (domWS d)
  | _ => true

/-! ### Readiness and grants -/

/-- The step `j` of a context is ready (R177): decoded, no held fault, waiting, and every earlier step of
its list either committed or in no relation to it. -/
def Sctx.ready (s : Sctx) (j : Nat) : Bool :=
  match s.step? j with
  | none => false
  | some sj =>
    sj.phase == .waiting && sj.fault.isNone &&
      (List.range (j - s.next)).all fun k =>
        s.committed (s.next + k) ||
          (match s.step? (s.next + k) with
          | some si => si.fault.isNone && !mustWait sj.entry si.entry j (s.next + k)
          | none => false)

/-- A context may dispatch: running, and not real-time under a fence; non-real-time contexts not
withheld (R145, R182, R191). -/
def Tx.mayDispatch (t : Tx) (d c : Nat) : Bool :=
  (t.ctxOf d c).st == .running &&
    (if t.rt d c then !t.is (CD_SCH_CTL_RTFENCE d) else !bit t.d.withhold d)

/-- The lowest ready step of context `c` for unit `e`. -/
def Tx.readyStep (t : Tx) (d c : Nat) (e : Unit5) : Option Nat :=
  if !t.mayDispatch d c then none
  else
    let s := t.ctxOf d c
    ((s.steps.filter fun x => x.entry.unit? == some e && s.ready x.idx).map (·.idx)).min?

/-- The weight of class `cls` (R217). -/
def Tx.weight (t : Tx) (d cls : Nat) : Nat :=
  bits (t.word (CD_ACT_WT d (cls / 4))) (8 * (cls % 4) + 7) (8 * (cls % 4))

/-- The virtual-time key of an engine and class. -/
def vKey (e : Unit5) (cls : Nat) : Nat := e.code * 64 + cls

/-- Classes that pass from no ready step to a ready step on an engine are raised to the V of the class
most recently granted it (R218). -/
def Tx.raiseClasses (t : Tx) (d : Nat) (e : Unit5) : Tx :=
  let ready := (List.range 8).filter fun c => (t.readyStep d c e).isSome && !t.rt d c
  let classes := ready.map fun c => (t.ctxOf d c).client
  t.onSch d fun s =>
    (List.range 64).foldl (fun s cls =>
      let now := classes.contains cls
      let was := s.rdy.at (vKey e cls)
      let s := { s with rdy := s.rdy.put (vKey e cls) now }
      if now && !was then
        match s.lastCls.at e.code with
        | 0 => s
        | l + 1 => { s with vt := s.vt.put (vKey e cls) (max (s.vt.at (vKey e cls)) (s.vt.at (vKey e l))) }
      else s) s

/-- The least element under a measure, the earlier of equals. -/
def argMin (f : Nat → Nat) : List Nat → Option Nat
  | [] => none
  | x :: xs =>
    match argMin f xs with
    | none => some x
    | some y => some (if f x ≤ f y then x else y)

/-- The context an engine at a boundary is granted to (R179, R217), and the loser of a real-time tie. -/
def Tx.chooseCtx (t : Tx) (d : Nat) (e : Unit5) : Tx × Option Nat :=
  let cs := (List.range 8).filter fun c => (t.readyStep d c e).isSome
  let rts := cs.filter (t.rt d)
  if rts ≠ [] then
    let top := rts.foldl (fun m c => max m (t.rd (CD_SCH_RCFG_PRIO d c))) 0
    let best := rts.filter fun c => t.rd (CD_SCH_RCFG_PRIO d c) == top
    match best with
    | [c] => (t, some c)
    | _ =>
      let l := (t.schOf d).loser.at e.code
      if l ≠ 0 ∧ best.contains (l - 1) then (t.onSch d fun s => { s with loser := s.loser.put e.code 0 }, some (l - 1))
      else
        let (k, t) := t.pick best.length
        let c := best.getD k 0
        let other := (best.filter (· != c)).headD 0
        (t.onSch d fun s => { s with loser := s.loser.put e.code (other + 1) }, some c)
  else
    let weighted := cs.filter fun c => t.weight d (t.ctxOf d c).client != 0
    match weighted with
    | [] => (t, cs.head?)
    | _ =>
      let classes := (List.range 64).filter fun k => weighted.any fun c => (t.ctxOf d c).client == k
      match argMin (fun k => (t.schOf d).vt.at (vKey e k)) classes with
      | some k => (t, weighted.find? fun c => (t.ctxOf d c).client == k)
      | none => (t, none)

/-- The step `j` of context `c` changed by `f`. -/
def Tx.onStep (t : Tx) (d c j : Nat) (f : StepSt → StepSt) : Tx :=
  t.onCtx d c fun s => { s with steps := s.steps.map fun x => if x.idx == j then f x else x }

/-- The first dispatch of a real-time list sends both Cleats a notice with LISTID and EPOCH (R195; KIND
0x05 of R418). -/
def Tx.beginList (t : Tx) (d c : Nat) : Tx :=
  let s := t.ctxOf d c
  if s.begun then t
  else
    let t := t.onCtx d c fun s => { s with begun := true }
    if t.rt d c then t.notice 0x05 [d, s.listid, s.epoch] else t

/-- An idle engine is granted to one ready step, if any (R179): the shape or the units of this moment
are its own for the step (R73, R101). -/
def Tx.grant (t : Tx) (d : Nat) (e : Unit5) : Tx :=
  let t := t.raiseClasses d e
  if ((t.schOf d).cur.at e.code).isSome || !t.engineUp d e then t
  else match t.chooseCtx d e with
    | (t, none) => t
    | (t, some c) =>
      match t.readyStep d c e with
      | none => t
      | some j =>
        let t := t.beginList d c
        let t := t.onStep d c j fun x => { x with phase := .granted }
        let (sh, qa) := (shapeOf (t.unusable d)).getD (0, 0)
        let pm := t.pairMask d
        let t := t.onSch d fun s =>
          let s := { s with cur := s.cur.put e.code (some (c, j)) }
          let s := if t.rt d c then s else { s with lastCls := s.lastCls.put e.code ((t.ctxOf d c).client + 1) }
          match e with
          | .braid => { s with shape := sh, qact := qa, started := s.started + 1 }
          | .strand => { s with pairs := pm }
          | _ => s
        let t := t.showEngines d
        match busyBit d e with
        | some f => t.set1 f
        | none => t

/-- Every engine of the die that stands at a boundary is granted (R179). -/
def Tx.grantAll (t : Tx) (d : Nat) : Tx := t.each engines4 fun t e => t.grant d e

/-- An engine that held a step of context `c` comes free. -/
def Tx.freeEngine (t : Tx) (d : Nat) (e : Unit5) : Tx :=
  let t := t.onSch d fun s => { s with cur := s.cur.put e.code none }
  let t := match busyBit d e with
    | some f => t.wr f 0
    | none => t
  t.showEngines d

/-- The group of counters an engine's steps go to: 0 Braid, 1 strand, 2 whipping and spectral (R222). -/
def Unit5.group : Unit5 → Nat
  | .braid => 0 | .strand => 1 | _ => 2

/-- When every V of an engine exceeds 2^48, 2^47 is taken from all of them (R218). -/
def Sch.rebase (s : Sch) (e : Unit5) : Sch :=
  if (List.range 64).all fun k => decide (s.vt.at (vKey e k) > 2 ^ 48) then
    (List.range 64).foldl (fun s k => { s with vt := s.vt.put (vKey e k) (s.vt.at (vKey e k) - 2 ^ 47) }) s
  else s

/-- `n` handshake steps of a step that ended, by commit or discard, are charged: to its list, to its
class's counter, to the class's virtual time and to the energy tick (R88, R218, R222, R224). -/
def Tx.chargeSteps (t : Tx) (d c : Nat) (e : Unit5) (n : Nat) : Tx :=
  let cls := (t.ctxOf d c).client
  let w := t.weight d cls
  let t := (t.onCtx d c fun s => { s with eng := s.eng + n }).incPair (actPair d cls e.group) n
  t.onSch d fun s =>
    let s := { s with tickSteps := s.tickSteps.upd (e.group * 64 + cls) (· + n) }
    if w = 0 ∨ t.rt d c then s else ({ s with vt := s.vt.upd (vKey e cls) (· + n * 256 / w) }).rebase e

/-- A tile step of the Braid is discarded (R97). -/
def Tx.countDiscard (t : Tx) (d : Nat) (e : Unit5) : Tx :=
  if e = .braid then t.inc (CD_BRD_DISCCNT_DISC d) else t

/-- The step `j` of context `c` is discarded: its engine comes free (R68, R175). -/
def Tx.discardStep (t : Tx) (d c j : Nat) : Tx :=
  match (t.ctxOf d c).step? j with
  | none => t
  | some x =>
    let t := t.onCtx d c fun s => { s with steps := s.steps.filter fun y => y.idx != j }
    match x.entry.unit? with
    | some e =>
      if (t.schOf d).cur.at e.code = some (c, j) then
        let t := match x.phase with
          | .ran n => t.chargeSteps d c e n
          | _ => t
        (t.freeEngine d e).countDiscard d e
      else t
    | none => t

/-- Steps in flight: granted or run and not yet committed. -/
def Sctx.inFlight (s : Sctx) : List Nat := (s.steps.filter fun x => x.phase != .waiting).map (·.idx)

/-! ### Stopping -/

/-- An engine's own fault code is recorded when it stops the context (R88, R129). -/
def Tx.recordEngineFault (t : Tx) (d c : Nat) (e : Unit5) (code frow : Nat) : Tx :=
  if code ≥ 0x40 then t
  else match e with
    | .braid => (t.wr (CD_BRD_FLT_FCODE d) code).wr (CD_BRD_FLT_FCTX d) c
    | .strand => ((t.wr (CD_STR_FLT_FCODE d) code).wr (CD_STR_FLT_FCTX d) c).wr (CD_STR_FLT_FROW d) frow
    | .whip => (t.wr (CD_WSP_FLT_WCODE d) code).wr (CD_WSP_FLT_WCTX d) c
    | .spectral => (t.wr (CD_WSP_FLT_SCODE d) code).wr (CD_WSP_FLT_SCTX d) c
    | _ => t

/-- A step's fault stops its context: STOPPING, and the lowest faulting step is the record's (R176,
R182, R189). -/
def Tx.stopOn (t : Tx) (d c j code acc va : Nat) : Tx :=
  let s := t.ctxOf d c
  let first := !bit s.reason 0 || decide (j < s.fstep)
  let s' := if first then { s with fstep := j, fcode := code, facc := acc, fva := va } else s
  let reason := s.reason ||| 1 ||| (if code = 0x45 then 16 else 0)
  let t := t.onCtx d c fun _ => { s' with st := .stopping, reason := reason, steps := s'.steps.filter fun x => x.phase != .waiting }
  t.showCtx d c

/-- A context enters STOPPED, LOST or ERROR: CFAULT, the fault registers, the ring's interrupt, and for
a real-time context a notice to both Cleats (R196, R198, R200). -/
def Tx.raiseStop (t : Tx) (d c : Nat) (st : CtxState) (code step : Nat) : Tx :=
  let t := t.onCtx d c fun s => { s with st := st }
  let t := (t.wr (CD_SCH_CFLT_FCODE d c) code).wr (CD_SCH_CFLT_FSTEP d c) step
  let t := (t.wr (CD_SCH_STAT_CFAULT d) (t.rd (CD_SCH_STAT_CFAULT d) ||| 2 ^ c)).ringIrq d c
  let t := if t.rt d c then t.notice 0x04 [d, (t.ctxOf d c).listid, (t.ctxOf d c).epoch] else t
  t.showCtx d c

/-! ### Restart records (R183) -/

/-- The record of context `c` as it leaves STOPPING. -/
def Tx.makeRecord (t : Tx) (d c : Nat) : List Byte :=
  let s := t.ctxOf d c
  let fault := bit s.reason 0
  let ent := s.ent.take 0x2F ++ [BitVec.ofNat 8 (s.flags &&& 0xFE)] ++ s.ent.drop 0x30
  let body := leBytes 2 1 ++ leBytes 1 s.reason ++ leBytes 1 (c + 16 * d) ++ leBytes 4 0 ++ leBytes 4 s.next ++
    leBytes 4 (s.done % 2 ^ 32) ++ leBytes 4 (if fault then s.fstep else 0) ++
    leBytes 4 (if fault then s.fcode + 256 * s.facc else 0) ++ leBytes 8 (if fault then s.fva else 0) ++
    leBytes 4 0 ++ leBytes 4 0 ++ leBytes 8 s.eng ++ leBytes 8 t.now ++ leBytes 8 0 ++ ent ++ leBytes 124 0
  body ++ leBytes 4 (crc32c body)

/-- A record with its SAVED field set and its CRC made again. -/
def recWithSaved (r : List Byte) (n : Nat) : List Byte :=
  let body := r.take 0x20 ++ leBytes 4 n ++ (r.drop 0x24).take (0xFC - 0x24)
  body ++ leBytes 4 (crc32c body)

/-- The lowest free record slot. -/
def Sch.freeSlot (s : Sch) : Option Nat := (List.range 16).find? fun k => !s.recs.any (·.slot == k)

/-- The oldest released record is written to its own save area and its slot freed (R184, R187). -/
def Tx.spill (t : Tx) (d : Nat) : Tx :=
  match (t.schOf d).recs.find? (·.released) with
  | none => t
  | some r =>
    let ent := (r.bytes.drop 0x40).take 64
    let t := t.onSch d fun s => { s with recs := s.recs.filter (·.slot != r.slot) }
    match t.dieWrite d (entF ent 0x2E 1 % 64) (entF ent 0x38 2) (entF ent 0x10 8) r.bytes with
    | (t, .ok ()) => t.inc (CD_SCH_RRAUD_SPILLS d)
    | (t, _) => (((t.set1 (CD_SCH_STAT_SPFAIL d)).wr (CD_SCH_STAT_SPFRING d) r.ctx).ringIrq d r.ctx)

/-- The record of context `c` is written on the die; a seventeenth needs a spill first (R181, R184). -/
def Tx.writeRecord (t : Tx) (d c : Nat) : Tx :=
  let bytes := t.makeRecord d c
  let t := if (t.schOf d).freeSlot.isSome then t else t.spill d
  let slot := ((t.schOf d).freeSlot).getD 0
  t.onSch d fun s => { s with recs := s.recs ++ [⟨slot, c, false, bytes⟩] }

/-- Context `c`'s record is freed. -/
def Tx.freeRecord (t : Tx) (d c : Nat) : Tx :=
  t.onSch d fun s => { s with recs := s.recs.filter fun r => r.released || r.ctx != c }

/-- A save failed: LOST with 0x46, the record freed (R187). -/
def Tx.saveLost (t : Tx) (d c : Nat) : Tx :=
  ((t.freeRecord d c).raiseStop d c .lost 0x46 (t.ctxOf d c).fstep)

/-- SAVE (R184): the partition to SAVEADDR + 256, then the record to SAVEADDR; none while a target
holds the write. -/
def Tx.save (t : Tx) (d c : Nat) : Option Tx :=
  let s := t.ctxOf d c
  match (t.schOf d).recOf c with
  | none => some t
  | some r =>
    let bytes := recWithSaved r.bytes s.partsize
    let image := t.rdBytes (stagingKey d + s.partbase) s.partsize
    match t.dieWrite d s.client s.devctx (s.saveaddr + 256) image with
    | (_, .held) => none
    | (t, .ok ()) =>
      match t.dieWrite d s.client s.devctx s.saveaddr bytes with
      | (_, .held) => none
      | (t, .ok ()) =>
        some ((t.onSch d fun s => { s with recs := s.recs.map fun x => if x.slot == r.slot then { x with bytes := bytes } else x }).onCtx
          d c fun s => { s with saved := true })
      | (t, _) => some (t.saveLost d c)
    | (t, _) => some (t.saveLost d c)

end Sys2Proof.Machine
end

