-- ==== Sys2Proof/Machine/Shelf.lean ====
section
/-! DEFINITION.  The Shelf, the system cache and the translation units: meanings of their commands (R234
to R263). -/

namespace Sys2Proof.Machine

/-- A write of HD_SHF_GCFG by the steward: INTL until the lock is set, then the lock; a 0 written to a set
lock is lost (R235, R627).  When INTL changes, the contents of the groups that are or were interleaved
become open values: every byte kept there is forgotten and the groups keep their power (log entry 12). -/
def Tx.writeGcfg (t : Tx) (v : Nat) : Tx :=
  let old := t.rd HD_SHF_GCFG_INTL
  let was := t.is HD_SHF_GCFG_LOCK
  let t := if was then (if bit v 31 then t else t.lostWrite HD_SHF_GCFG) else (t.wr HD_SHF_GCFG_INTL v).wr HD_SHF_GCFG_LOCK (bits v 31 31)
  let new := t.rd HD_SHF_GCFG_INTL
  let t := t.wr HD_SHF_STAT_NI (popcount 12 new)
  if old = new then t
  else t.each (List.range 12) fun t k =>
    if bit old k || bit new k then
      (t.m.map (·.1) ++ t.s.mem.map (·.1)).foldl (fun t a =>
        if shelfKey (k / 3) (k % 3) 0 ≤ a ∧ a < shelfKey (k / 3) (k % 3) 0 + 0x4000000 then
          let (v, t) := t.fresh 8
          t.wb a (BitVec.ofNat 8 v)
        else t) t
    else t

/-- A powered group has written zero to every line; READY and INIT set (R238). -/
def Tx.shelfReady (t : Tx) (n g : Nat) : Tx :=
  let t := t.clearKeys (shelfKey n g 0) (shelfKey n g 0 + 0x4000000)
  (t.wr HD_SHF_STAT_READY (t.rd HD_SHF_STAT_READY ||| 2 ^ (3 * n + g))).wr (BT_SHF_STAT_INIT n)
    (t.rd (BT_SHF_STAT_INIT n) ||| 2 ^ g)

/-- A Shelf line is found uncorrectable (R239): poisoned, counted, logged, and an event to the steward;
a line already poisoned counts no more. -/
def Tx.shelfUncorrectable (t : Tx) (n g line : Nat) : Tx :=
  let key := shelfKey n g (line * 64)
  if t.poisoned key then t
  else
    let t := ((t.setPoison key).inc (BT_SHF_UECNT_UECNT n)).set1 (BT_SHF_STAT_UE n)
    ((t.wr (BT_SHF_ELOG_GROUP n) g).wr (BT_SHF_ELOG_LINE n) line).event "SHELF_UE" [n, g, line]

/-- A Shelf line is read and corrected (R239). -/
def Tx.shelfCorrected (t : Tx) (n g : Nat) : Tx := ((t.inc (BT_SHF_CECNT_CECNT n)).set1 (BT_SHF_STAT_CE n)).ceCount (3 * n + g)

/-- SHELF_SCRUB (R239): a patrol-scrub read of a line of a powered group. -/
def execShelfScrub (n : Die) (g : Fin 3) (line : BitVec 20) (found : Ecc) (s : State) : Host.Outcome State Fault Refusal :=
  s.does fun t =>
    if !bit (t.rd HD_SHF_STAT_READY) (3 * n + g) || t.poisoned (shelfKey n g (line.toNat * 64)) then t
    else match found with
      | .clean => t
      | .corrected => t.shelfCorrected n g
      | .uncorrectable => t.shelfUncorrectable n g line.toNat

/-- A write of SCRWAYS (R247). -/
def Tx.writeScrways (t : Tx) (v : Nat) : Tx :=
  let ways := bits v 3 0
  if t.is HD_SC_STAT_CONV ∨ ways > 8 then t.set1 HD_SC_STAT_CMDREF
  else
    let act := t.rd HD_SC_STAT_SCRACT
    let t := t.wr HD_SC_CTL_SCRWAYS ways
    if ways = act then t
    else if act < ways then t.set1 HD_SC_STAT_CONV
    else
      let t := t.clearKeys (scrBase + ways * 0x400000) (scrBase + act * 0x400000)
      (t.wr HD_SC_STAT_SCRACT ways).set1 HD_SC_STAT_CONV

def execScrwaysWrite (mid : Mid) (value : Word) (s : State) : Host.Outcome State Fault Refusal :=
  s.does fun t => t.swWrite mid.toNat HD_SC_CTL (·.writeScrways value.toNat)

/-- SCRATCH_CONV_DONE (R247): the change ends; each new way begins as zero. -/
def Tx.convDone (t : Tx) : Tx :=
  let act := t.rd HD_SC_STAT_SCRACT
  let ways := t.rd HD_SC_CTL_SCRWAYS
  let t := if act < ways then (t.clearKeys (scrBase + act * 0x400000) (scrBase + ways * 0x400000)).wr HD_SC_STAT_SCRACT ways else t
  (t.wr HD_SC_STAT_CONV 0).set1 HD_SC_STAT_CONVDONE

def execScratchConvDone (s : State) : Host.Outcome State Fault Refusal :=
  s.does fun t => t.when (t.is HD_SC_STAT_CONV) Tx.convDone

/-! Translation units. -/

/-- A write of XLT_CTL: while EN is 1 it changes only EN, and another LOG2NDC is refused (R263). -/
def Tx.writeXltCtl (t : Tx) (u v : Nat) : Tx :=
  let b := xltBase u
  if t.is (XLT_CTL_EN b) then
    let t := if bits v 4 1 = t.rd (XLT_CTL_LOG2NDC b) then t else t.set1 (XLT_STAT_CMDREF b)
    t.wr (XLT_CTL_EN b) (bits v 0 0)
  else (t.wr (XLT_CTL_EN b) (bits v 0 0)).wr (XLT_CTL_LOG2NDC b) (bits v 4 1)

def execXltCtlWrite (mid : Mid) (u : XltUnit) (value : Word) (s : State) : Host.Outcome State Fault Refusal :=
  s.does fun t => t.swWrite mid.toNat (XLT_CTL (xltBase u)) (·.writeXltCtl u value.toNat)

/-- A unit is busy: an invalidation or a lock command is in progress. -/
def Tx.xltBusy (t : Tx) (u : Nat) : Bool := t.is (XLT_STAT_INVBUSY (xltBase u)) || t.is (XLT_STAT_LKBUSY (xltBase u))

/-- What invalidation `op` leaves in a unit (R255). -/
def Xlt.invalidate (x : Xlt) (op ctx va : Nat) : Xlt :=
  match op with
  | 1 => { x with dcs := x.dcs.filter (·.1 != ctx), tlb := x.tlb.filter (·.ctx != ctx) }
  | 2 => { x with tlb := x.tlb.filter (·.ctx != ctx) }
  | 3 => { x with tlb := x.tlb.filter fun f => !f.covers ctx va }
  | 4 => { x with dcs := [], tlb := [] }
  | 5 => { x with dcs := [], tlb := [], locked := [] }
  | _ => x

/-- The audit of locked entries follows what the unit holds. -/
def Tx.lkAudit (t : Tx) (u : Nat) : Tx := t.wr (XLT_LKAUD_LKUSED (xltBase u)) (t.xltOf u).locked.length

/-- Invalidation `op` at one unit that is not busy. -/
def Tx.invUnit (t : Tx) (u op ctx va : Nat) : Tx :=
  if t.xltBusy u then t.set1 (XLT_STAT_CMDREF (xltBase u))
  else ((t.onXlt u (·.invalidate op ctx va)).lkAudit u).set1 (XLT_STAT_INVBUSY (xltBase u))

/-- A write of XLT_INV: the named invalidation, at the hub unit for all five when BCAST is 1 (R255). -/
def Tx.writeXltInv (t : Tx) (u op ctx : Nat) (bcast : Bool) : Tx :=
  let b := xltBase u
  if op = 0 ∨ op > 5 ∨ t.xltBusy u then t.set1 (XLT_STAT_CMDREF b)
  else
    let va := t.pair (XLT_INVVA_LO b)
    let t := t.invUnit u op ctx va
    if u = 4 ∧ bcast then
      (t.onXlt 4 fun x => { x with bcast := true }).each (List.range 4) fun t k =>
        if t.powered (domCD k) then t.invUnit k op ctx va else t
    else t

/-- The command of an invalidation. -/
def invCommand (op : Nat) (mid : Mid) (u : XltUnit) (ctx : BitVec 16) (bcast : Bool) (s : State) :
    Host.Outcome State Fault Refusal :=
  s.does fun t => t.swWrite mid.toNat (XLT_INV (xltBase u)) (·.writeXltInv u op ctx.toNat bcast)

def execInvDevctx (mid : Mid) (u : XltUnit) (ctx : BitVec 16) (bcast : Bool) (s : State) :
    Host.Outcome State Fault Refusal := invCommand 1 mid u ctx bcast s
def execInvTranslations (mid : Mid) (u : XltUnit) (ctx : BitVec 16) (bcast : Bool) (s : State) :
    Host.Outcome State Fault Refusal := invCommand 2 mid u ctx bcast s
def execInvAddress (mid : Mid) (u : XltUnit) (ctx : BitVec 16) (bcast : Bool) (s : State) :
    Host.Outcome State Fault Refusal := invCommand 3 mid u ctx bcast s
def execInvAll (mid : Mid) (u : XltUnit) (bcast : Bool) (s : State) :
    Host.Outcome State Fault Refusal := invCommand 4 mid u 0 bcast s
def execInvAllLocked (mid : Mid) (u : XltUnit) (bcast : Bool) (s : State) :
    Host.Outcome State Fault Refusal := invCommand 5 mid u 0 bcast s

/-- INV_DONE (R255): nothing translated through a dropped translation is in flight; a broadcast ends when
all five units have finished. -/
def Tx.invDone (t : Tx) (u : Nat) : Tx :=
  if u = 4 ∧ (t.xltOf 4).bcast ∧ (List.range 4).any (fun k => t.is (XLT_STAT_INVBUSY (xltBase k))) then t
  else (t.wr (XLT_STAT_INVBUSY (xltBase u)) 0).onXlt u fun x => { x with bcast := false }

def execInvDone (u : XltUnit) (s : State) : Host.Outcome State Fault Refusal :=
  s.does fun t => t.when (t.is (XLT_STAT_INVBUSY (xltBase u))) (·.invDone u)

/-- A write of XLT_LOCK: OP 1 starts a walk, OP 2 removes the entry, others are refused (R254, R263). -/
def Tx.writeXltLock (t : Tx) (u op ctx : Nat) : Tx :=
  let b := xltBase u
  if (op ≠ 1 ∧ op ≠ 2) ∨ t.xltBusy u then t.set1 (XLT_STAT_CMDREF b)
  else
    let va := sext48 (t.pair (XLT_LOCKVA_LO b))
    if op = 1 then (t.onXlt u fun x => { x with walk := some (ctx, va) }).set1 (XLT_STAT_LKBUSY b)
    else (t.onXlt u fun x => { x with locked := x.locked.filter fun f => !f.covers ctx va }).lkAudit u

def execXltLock (mid : Mid) (u : XltUnit) (ctx : BitVec 16) (s : State) : Host.Outcome State Fault Refusal :=
  s.does fun t => t.swWrite mid.toNat (XLT_LOCK (xltBase u)) (·.writeXltLock u 1 ctx.toNat)
def execXltUnlock (mid : Mid) (u : XltUnit) (ctx : BitVec 16) (s : State) : Host.Outcome State Fault Refusal :=
  s.does fun t => t.swWrite mid.toNat (XLT_LOCK (xltBase u)) (·.writeXltLock u 2 ctx.toNat)

/-- The walk of a LOCK: the leaf to install, or the cause LKCAUSE shows (R254). -/
def Tx.lockWalk (t : Tx) (u ctx va : Nat) : Tx × Except Nat Leaf :=
  if (t.xltOf u).locked.any (·.covers ctx va) ∨ (t.xltOf u).locked.length ≥ 256 then (t, .error 0xF)
  else match t.devctx u ctx with
    | (t, .error e) => (t, .error e)
    | (t, .ok c) =>
      match t.walk ctx va 3 (c.root * 4096) with
      | .error e => (t, .error e)
      | .ok f => if f.a then (if xltRange u f.pa then (t, .ok f) else (t, .error 8)) else (t, .error 6)

/-- LOCK_WALK_DONE (R254): the leaf is installed as a locked entry, or LKERR reports why not. -/
def Tx.lockDone (t : Tx) (u : Nat) : Tx :=
  match (t.xltOf u).walk with
  | none => t
  | some (ctx, va) =>
    let b := xltBase u
    let t := (t.onXlt u fun x => { x with walk := none }).wr (XLT_STAT_LKBUSY b) 0
    match t.lockWalk u ctx va with
    | (t, .ok f) => (t.onXlt u fun x => { x with locked := f :: x.locked }).lkAudit u
    | (t, .error e) => (t.set1 (XLT_STAT_LKERR b)).wr (XLT_STAT_LKCAUSE b) e

def execLockWalkDone (u : XltUnit) (s : State) : Host.Outcome State Fault Refusal := s.does fun t => t.lockDone u

end Sys2Proof.Machine
end

