-- ==== Sys2Proof/Machine/PowerMap.lean ====
section
/-! DEFINITION.  Power domains: their figures (R504), their order (R505), what a loss of power and a power-up do
to them (R92, R138, R160, R238, R278, R626), and the token audit (R512). -/

namespace Sys2Proof.Machine

/-- A change of the arbiter's state. -/
def Tx.onPba (t : Tx) (f : Pba → Pba) : Tx := { t with d := { t.d with pba := f t.d.pba } }

/-! Figures of R504, in tokens of 100 mW. -/

/-- The place of a stack domain in its stack: 0 to 3 BQ, 4 to 7 SP, 8 WS, 9 FAB, 10 LNK, 11 to 13 SH. -/
def domKind (d : Nat) : Nat := (d - 18) % 14
/-- The stack of a domain. -/
def domStack (d : Nat) : Nat := (d - 18) / 14
/-- A domain of a stack. -/
def stackDom (d : Nat) : Bool := decide (18 ≤ d) && decide (d < 74)
/-- A compute domain: BQ, SP, WS or CDn.FAB. -/
def computeDom (d : Nat) : Bool := stackDom d && decide (domKind d ≤ 9)

def pmax (d : Nat) : Nat :=
  if stackDom d then [150, 150, 150, 150, 30, 30, 30, 30, 20, 60, 35, 15, 15, 15].getD (domKind d) 0
  else [10, 15, 15, Config.guestPmax, 60, 60, 60, 20, 20, 120, 120, 30, 140, 40, 60, 110, 20, 20].getD d 0

/-- PIDLE of a compute domain. -/
def pidle (d : Nat) : Nat := if domKind d < 4 then 15 else if domKind d < 8 then 4 else if domKind d = 8 then 3 else 12
/-- PHOLD of a compute domain. -/
def phold (d : Nat) : Nat := if domKind d < 4 then 110 else if domKind d < 8 then 24 else if domKind d = 8 then 16 else 48
/-- PBOOST: 1.4 × PMAX. -/
def pboost (d : Nat) : Nat := pmax d * 14 / 10
/-- The grant a BIST request asks for: 1.5 × PMAX, rounded up (R513; 23 tokens for a Shelf group in the example after R556). -/
def bistGrant (d : Nat) : Nat := (pmax d * 15 + 9) / 10

/-- What a domain holds in the survival envelope; 0 where it is off (R504, R523). -/
def survival (d : Nat) : Nat :=
  match d with
  | 4 => 25 | 7 | 8 => 20 | 9 => 45 | 10 => 25 | 11 => 30 | 12 => 80 | 13 => 40 | 14 | 15 => 60 | 16 | 17 => 20
  | _ => 0

/-- The fixed reservations (R507). -/
def fixedTokens : Nat := 100

/-- The domains of compute die `n`, and of stack `n`. -/
def dieDoms (n : Nat) : List Nat := (List.range 10).map (18 + 14 * n + ·)
def stackDoms (n : Nat) : List Nat := (List.range 14).map (18 + 14 * n + ·)

/-- Compute die `n` is under floor hold (R143). -/
def Tx.held (t : Tx) (n : Nat) : Bool := t.is (RTM_CTL_HOLD (cdRtm n))
/-- Some compute die is (R144). -/
def Tx.anyHeld (t : Tx) : Bool := (List.range 4).any t.held

/-- STATE of PBA_DOMd. -/
def Tx.domState (t : Tx) (d : Nat) : Nat := t.rd (PBA_DOM_STATE d)
/-- The grant of a domain. -/
def Tx.grantOf (t : Tx) (d : Nat) : Nat := t.rd (PBA_DOM_GRANT d)

/-- The floor of a powered domain's grant (R508). -/
def Tx.floorOf (t : Tx) (d : Nat) : Nat :=
  if computeDom d then (if t.held (domStack d) then phold d else pidle d)
  else if t.rd PBA_STAT_MODE = 2 then survival d else pmax d

/-- The domains the arbiter's audit counts: all but the fixed reservations. -/
def auditDoms : List Nat := (List.range 71).map (3 + ·)

/-- Grants of domains that are not powering down. -/
def Tx.granted (t : Tx) : Nat := (auditDoms.filter fun d => t.domState d != 3).foldl (fun n d => n + t.grantOf d) 0
/-- Grants of domains that are. -/
def Tx.releasing (t : Tx) : Nat := (auditDoms.filter fun d => t.domState d == 3).foldl (fun n d => n + t.grantOf d) 0

/-- PBA_AUD0 shows the books (R512). -/
def Tx.pbaAudit (t : Tx) : Tx := (t.wr PBA_AUD0_GRANTED t.granted).wr PBA_AUD0_RELEASING t.releasing

/-- The die of a domain, for ramps and temperatures: 0 hub, 1 + n stack n (R516). -/
def domDie (d : Nat) : Nat := if stackDom d then 1 + domStack d else 0

/-- A domain's grant becomes `g`, and the ramp's books take the change (R514). -/
def Tx.setGrant (t : Tx) (d g : Nat) : Tx :=
  let old := t.grantOf d
  let t := t.onPba fun p =>
    let (i, k) := p.ramp.headD (0, 0)
    { p with ramp := (i + (g - old), k + (old - g)) :: p.ramp.tail,
             raised := if old < g then p.raised.put (domDie d) (t.now + 1) else p.raised }
  (t.wr (PBA_DOM_GRANT d) g).pbaAudit

/-- HELD of the die's domains follows HOLD, and HOLD of the base tiles reads 1 while any die is held (R144,
R160). -/
def Tx.showHold (t : Tx) : Tx :=
  let t := t.each (List.range 4) fun t n => t.each (dieDoms n) fun t d => t.wr (PBA_DOM_HELD d) (if t.held n then 1 else 0)
  t.each (List.range 4) fun t n => t.wr (RTM_CTL_HOLD (btRtm n)) (if t.anyHeld then 1 else 0)

/-! What a loss of power does. -/

/-- The step on an engine is discarded (R68, R92, R138). -/
def Tx.dropStep (t : Tx) (n : Nat) (e : Unit5) : Tx :=
  match (t.schOf n).cur.at e.code with
  | some (c, j) => t.discardStep n c j
  | none => t

/-- Each module of a base tile goes down at both ends. -/
def Tx.linksDown (t : Tx) (n : Nat) : Tx :=
  t.each (List.range 8) fun t k => t.each (lnkEnds n k) fun t (e, k) =>
    ((t.wr (LNK_MST_STATE (lnkBase e) k) 0).onLink e k fun _ => {}).linkReport e k

/-- Compute die `n` without its fabric: contexts, records and rounds are lost, HOLD is cleared, its rail reads 0,
and both Cleats are told (R138, R145, R160, R162; KIND 0x0B of R418). -/
def Tx.dieDark (t : Tx) (n : Nat) : Tx :=
  let t := { t with d := { t.d with sch := t.d.sch.put n {}, xlt := t.d.xlt.put n {}, rtm := t.d.rtm.put n {} } }
  let t := ((t.wr (RTM_CTL_HOLD (cdRtm n)) 0).wr (RTM_STAT_HOLDOK (cdRtm n)) 0).setWord (RTM_VRAIL (cdRtm n)) 0
  let t := t.onPba fun p => { p with overdraw := p.overdraw &&& (15 - 2 ^ n), hot := p.hot &&& (15 - 2 ^ n) }
  (({ t with d := { t.d with withhold := t.d.withhold &&& (15 - 2 ^ n) } }.showHold).dieLevels n).notice 0x0B [n]

/-- The hub's fabric without power: its modules go down at both ends. -/
def Tx.hubDark (t : Tx) : Tx :=
  t.each (List.range 18) fun t k => t.each (lnkEnds 4 k) fun t (e, k) =>
    ((t.wr (LNK_MST_STATE (lnkBase e) k) 0).onLink e k fun _ => {}).linkReport e k

/-- The controllers of a memory domain. -/
def mcsOf (d : Nat) : List Nat := if d = 9 then [0, 1, 2, 3] else if d = 10 then [4, 5, 6, 7] else if d = 11 then [8] else []

/-- A hart is held in reset: nothing of what it did remains. -/
def Tx.hartReset (t : Tx) (k : Nat) : Tx := { t.wr ⟨DBG_HSTAT, k, k⟩ 0 with d := { t.d with harts := t.d.harts.put k {} } }

/-- What losing power does to a domain's logic (R92, R138, R238, R393). -/
def Tx.domainLost (t : Tx) (d : Nat) : Tx :=
  if stackDom d then
    let n := domStack d
    match domKind d with
    | 9 => t.dieDark n
    | 10 => ({ t with d := { t.d with rtm := t.d.rtm.put (4 + n) {} } }.setWord (RTM_VRAIL (btRtm n)) 0).linksDown n
    | 8 => ((t.dropStep n .whip).dropStep n .spectral).showEngines n
    | k =>
      if k < 4 then (t.dropStep n .braid).showEngines n
      else if k < 8 then (t.dropStep n .strand).showEngines n
      else
        let g := k - 11
        let t := t.clearKeys (shelfKey n g 0) (shelfKey n g 0 + 0x4000000)
        t.wr HD_SHF_STAT_READY (t.rd HD_SHF_STAT_READY &&& (4095 - 2 ^ (3 * n + g)))
  else match d with
    | 4 | 5 | 6 => t.each ((List.range 8).map (8 * (d - 4) + ·)) (·.hartReset ·)
    | 7 | 8 => (t.clearKeys scrBase scrEnd).wr HD_SC_STAT_SCRACT 0
    | 9 | 10 | 11 => t.each ((mcsOf d).filter fun m => !t.is (HD_MC_STAT_RETAIN m)) fun t m => { t with d := { t.d with mc := t.d.mc.put m {} } }
    | 12 => { t with d := { t.d with hws := {}, can := [], pcie := [], refclk := [], perst := [] } }
    | 13 => { t with d := { t.d with ing := {}, ego := {}, aln := {} } }
    | 14 => { t with d := { t.d with trj := {} } }
    | 15 =>
      let t := t.hubDark
      { t with d := { t.d with
        dma := [], xlt := t.d.xlt.put 4 {}, fwUsed := [], regNext := [], mbx := [], irq := {}, cache := [],
        clp := { t.d.clp with halted := false, voteAt := [] } } }
    | 16 => { t with d := { t.d with sec := { t.d.sec with upd := 0, stage := none } } }
    | 17 => { t with d := { t.d with sec := { t.d.sec with boot := 0 }, tst := { t.d.tst with cur := none, lease := none, weight := none } } }
    | _ => t

/-- Power leaves a domain: it shows state `st` and holds grant `g`. -/
def Tx.losePower (t : Tx) (d st g : Nat) : Tx :=
  let was := t.d.pwr.at d
  let t := { t with d := { t.d with pwr := t.d.pwr.put d .off } }
  let t := t.when (was == .on) (·.domainLost d)
  ((t.wr (PBA_DOM_STATE d) st).wr (PBA_DOM_BIST d) 0).wr (PBA_DOM_GRANT d) g

/-- The devices of controllers `ms` are held in self-refresh by their retention latches (R278). -/
def Tx.retain (t : Tx) (ms : List Nat) : Tx :=
  t.each ms fun t m => t.when (t.is (HD_MC_STAT_READY m)) (·.wr (HD_MC_STAT_RETAIN m) 1)

/-- They leave retention and resume their previous state (R278). -/
def Tx.unretain (t : Tx) (ms : List Nat) : Tx :=
  t.each ms fun t m => t.when (t.is (HD_MC_STAT_RETAIN m)) fun t =>
    { t.wr (HD_MC_STAT_RETAIN m) 0 with d := { t.d with mc := t.d.mc.upd m fun c => { c with wake := max c.wake (t.now + 288), since := t.now } } }

/-- A domain is removed: a memory domain with initialised devices enters retention, the harts of a cluster are held first, their dirty lines
written back (R278, R506). -/
def Tx.removeDomain (t : Tx) (d : Nat) : Tx :=
  let t := if d = 5 ∨ d = 6 then t.each (t.d.cache.map (·.line * 64)) fun t k => t.cacheOut k else t
  if (d = 10 ∨ d = 11) ∧ (mcsOf d).any (fun m => t.is (HD_MC_STAT_READY m)) then (t.retain (mcsOf d)).losePower d 4 (survival d)
  else t.losePower d 0 0

/-- Domains are removed at once, in reverse order of R505. -/
def Tx.cutDomains (t : Tx) (ds : List Nat) : Tx :=
  (t.each (ds.filter fun d => t.domState d != 0 && t.domState d != 5) (·.removeDomain ·)).pbaAudit

/-- The order of removal within a stack: the compute domains, CDn.FAB and the Shelf groups, BTn.LNK. -/
def removeOrder (n : Nat) : List Nat := ([0, 1, 2, 3, 4, 5, 6, 7, 8, 9, 11, 12, 13, 10]).map (18 + 14 * n + ·)

/-! What a power-up does. -/

/-- Every block of configuration space. -/
def allBlocks : List Blk :=
  ((List.range 0x210).filterMap fun p => hubBlock (p * 0x1000)) ++
  ((List.range 4).flatMap fun n => ((List.range 10).filterMap fun k => cdBlock n (k * 0x10000)) ++
    ((List.range 6).filterMap fun k => btBlock n (k * 0x10000)))

/-- The blocks of a domain take their reset values (R626). -/
def Tx.resetDomain (t : Tx) (d : Nat) (keepLocks : Bool) : Tx :=
  t.each (allBlocks.filter fun b => b.dom == d) fun t b => t.resetBlock b.base keepLocks

/-- A rail's first target after power-up: open (R140 gives the range). -/
def Tx.railStart (t : Tx) (a : Nat) : Tx :=
  let (k, t) := t.pick 41
  t.setWord a (600 + 5 * k)

/-- A domain has finished powering up (R138, R238, R626); out of retention its previous state resumes (R278). -/
def Tx.domainUp (t : Tx) (d : Nat) : Tx :=
  let kept := (mcsOf d).any fun m => t.is (HD_MC_STAT_RETAIN m)
  let t := if kept then t.unretain (mcsOf d) else t.resetDomain d false
  let t := { t with d := { t.d with pwr := t.d.pwr.put d .on } }
  let t := t.wr (PBA_DOM_STATE d) 2
  if stackDom d then
    let n := domStack d
    match domKind d with
    | 9 =>
      let t := (((t.clearKeys (stagingKey n) (stagingKey n + 2 ^ 32)).railStart (RTM_VRAIL (cdRtm n))).showEngines n).showHold
      t.when (!bit (t.rd ID_VALID_VALID) (1 + n)) (·.latchId (1 + n) (ID_CD n) (t.word (CD_ID_WORD n)))
    | 10 => (t.railStart (RTM_VRAIL (btRtm n))).showHold
    | k => if k < 9 then t.showEngines n else t
  else t

end Sys2Proof.Machine
end

