-- ==== Sys2Proof/Machine/Power.lean ====
section
/-! DEFINITION.  The power budget arbiter: requests (R506, R513), allocation (R507 to R509), enforcement (R510),
ramp limits (R514), the thermal model (R516, R517), trips (R518), coolant (R520 to R522), and the survival
envelope (R501, R523, R524). -/

namespace Sys2Proof.Machine

/-! Limits on change. -/

/-- Increases and decreases over the last ten ticks stay within 400 tokens each (R514). -/
def Tx.rampRoom (t : Tx) : Nat × Nat :=
  let p := t.d.pba.ramp
  (400 - (p.map (·.1)).foldl (· + ·) 0, 400 - (p.map (·.2)).foldl (· + ·) 0)

/-- The energy of the last tick of domain `d`, µJ: its power in mW. -/
def Tx.usedOf (t : Tx) (d : Nat) : Nat := t.d.pba.used.getD d 0

/-- The domains of die `x` of R516: 0 hub, 1 + n stack `n`. -/
def thermalDoms (x : Nat) : List Nat := if x = 0 then (List.range 15).map (3 + ·) else stackDoms (x - 1)

/-- The predicted slope of die `x`'s mean, its power changed by `delta` mW, stays within ±1.5 K/s (R514, R516). -/
def Tx.slopeOk (t : Tx) (x : Nat) (delta : Int) : Bool :=
  match t.d.pba.sens[x]? with
  | none => true
  | some (_, 0) => true
  | some (sum, n) =>
    let p : Int := ((thermalDoms x).foldl (fun a d => a + t.usedOf d) 0 : Nat) + delta
    let r : Int := if x = 0 then 20 else 16
    decide (((100 * t.d.pba.tin + r * p) * (16 * n) - 100000 * sum).natAbs ≤ 450000 * 16 * n)

/-- A change of grants, domain by domain, is within the limits. -/
def Tx.changeOk (t : Tx) (cs : List (Nat × Nat)) : Bool :=
  let inc := cs.foldl (fun a (d, g) => a + (g - t.grantOf d)) 0
  let dec := cs.foldl (fun a (d, g) => a + (t.grantOf d - g)) 0
  let room := t.rampRoom
  decide (inc ≤ room.1) && decide (dec ≤ room.2) &&
  (cs.map fun (d, _) => domDie d).dedup.all fun x =>
    t.slopeOk x (100 * cs.foldl (fun a (d, g) => if domDie d = x then a + ((g : Int) - t.grantOf d) else a) 0)

/-- The tokens the books still leave (R512). -/
def Tx.roomTokens (t : Tx) : Nat := t.rd PBA_AUD1_BEFF - (t.granted + t.releasing + fixedTokens)

/-- The envelope holds. -/
def Tx.surviving (t : Tx) : Bool := t.rd PBA_STAT_MODE == 2

/-! Switching. -/

/-- What must be on before domain `d` (R505). -/
def prereq (d : Nat) : List Nat :=
  if stackDom d then
    let n := domStack d
    if domKind d = 10 then [domFAB] else if domKind d = 9 ∨ 11 ≤ domKind d then [domBT n] else [domCD n]
  else if d = domFAB then [] else [domFAB]

/-- A trip is latched on the die of domain `d` (R518). -/
def Tx.tripped (t : Tx) (d : Nat) : Bool :=
  let w := t.rd THM_TRIP_TRIPPED
  if stackDom d then bit w (5 + domStack d) || (domKind d ≤ 9 && bit w (1 + domStack d)) else bit w 0

/-- Domain `d` is off, without a latched trip. -/
def Tx.canPower (t : Tx) (d : Nat) : Bool := t.domState d != 1 && t.domState d != 2 && t.domState d != 3 && !t.tripped d

/-- The switch of a domain closes: it holds its grant first (R512). -/
def Tx.powerUp (t : Tx) (d : Nat) : Tx :=
  let t := (t.setGrant d (t.floorOf d)).wr (PBA_DOM_STATE d) 1
  ({ t with d := { t.d with pwr := t.d.pwr.put d .powering } }.onPba fun p => { p with want := p.want.put d 0 }).pbaAudit

/-- The switch of a domain opens: it keeps its grant until the power-off completes (R512). -/
def Tx.release (t : Tx) (d : Nat) : Tx :=
  let t := t.onPba fun p =>
    let (i, k) := p.ramp.headD (0, 0)
    { p with ramp := (i, k + t.grantOf d) :: p.ramp.tail }
  (t.wr (PBA_DOM_STATE d) 3).pbaAudit

/-- What an ON request powers: the domain with what it depends on, a whole die, a whole stack (R505, R506). -/
def onPlan (d : Nat) : List Nat :=
  if stackDom d then
    let n := domStack d
    let lnk := 28 + 14 * n
    match domKind d with
    | 10 => lnk :: ((List.range 3).map (29 + 14 * n + ·) ++ (27 + 14 * n) :: (List.range 9).map (18 + 14 * n + ·))
    | 9 => lnk :: (27 + 14 * n) :: (List.range 9).map (18 + 14 * n + ·)
    | 8 => [lnk, 27 + 14 * n, d]
    | _ => [lnk, d]
  else [d]

/-- What an OFF request removes, in order. -/
def offPlan (d : Nat) : List Nat :=
  if stackDom d then
    match domKind d with
    | 9 => (List.range 10).map (18 + 14 * domStack d + ·)
    | 10 => removeOrder (domStack d)
    | _ => [d]
  else [d]

/-! Requests (R506, R513). -/

/-- The PBA alone switches these (R506). -/
def notAsked (d : Nat) : Bool := d = 4 || d = 15 || d = 16 || d = 17 || d = 9 || d ≤ 2 || (stackDom d && domKind d < 8) || 74 ≤ d

/-- Group `g` of tile `n` is interleaved. -/
def Tx.interleaved (t : Tx) (n g : Nat) : Bool := bit (t.rd HD_SHF_GCFG_INTL) (3 * n + g)

/-- Why a request is refused, as its code (R506, R513, R523). -/
def Tx.refusal (t : Tx) (r : PbaReq) : Option Nat :=
  let d := r.dom
  let n := domStack d
  if r.op = 1 ∨ r.op = 2 then
    if notAsked d then some 5
    else if t.surviving ∧ d ≠ 13 then some 3
    else if r.op = 1 then
      if (onPlan d).any t.tripped then some 4
      else if d = 3 ∧ !t.is FW_CTL_LOCK then some 2 else none
    else if (d = 7 ∨ d = 8) ∧ t.rd HD_SC_STAT_SCRACT ≠ 0 then some 2
    else if d = 11 ∧ ((List.range 64).any (fun q => bit (t.rmap q) 3) ∨ t.rd HD_DMAP_MSTAT_STATE ≠ 0) then some 2
    else if stackDom d ∧ (domKind d = 8 ∨ domKind d = 9) ∧ t.held n then some 2
    else if stackDom d ∧ 11 ≤ domKind d ∧ t.interleaved n (domKind d - 11) then some 2
    else if stackDom d ∧ domKind d = 10 ∧ (t.anyHeld ∨ (List.range 3).any fun g => t.interleaved n g && t.powered (domSH n g)) then some 2
    else none
  else if r.op = 3 then
    if !computeDom d ∨ 74 ≤ d then some 5 else if t.surviving then some 3 else if t.domState d ≠ 2 then some 2 else none
  else if r.op = 4 then
    if d ≤ 2 ∨ 74 ≤ d then some 5 else if t.surviving then some 3 else if t.tripped d then some 4
    else if t.domState d ≠ 2 ∨ (auditDoms.filter fun e => domDie e == domDie d).any (fun e => t.is (PBA_DOM_BIST e)) then some 2 else none
  else if 74 ≤ d ∨ !t.is (PBA_DOM_BIST d) then some 2 else none

/-- The request takes effect, if it fits the books and the limits. -/
def Tx.applyReq (t : Tx) (r : PbaReq) : Option Tx :=
  let d := r.dom
  match r.op with
  | 1 =>
    let ds := (onPlan d).filter t.canPower
    let cs := ds.map fun d => (d, t.floorOf d)
    if (cs.foldl (fun a (d, g) => a + (g - t.grantOf d)) 0) ≤ t.roomTokens ∧ t.changeOk cs then some (t.each ds (·.powerUp ·)) else none
  | 2 =>
    let ds := (offPlan d).filter fun d => t.domState d == 1 || t.domState d == 2
    if t.changeOk (ds.map fun d => (d, 0)) then some (t.each ds (·.release ·)) else none
  | 3 =>
    let g := max (t.floorOf d) (min r.tokens (pboost d))
    if g - t.grantOf d ≤ t.roomTokens ∧ t.changeOk [(d, g)] then
      some ((t.setGrant d g).onPba fun p => { p with want := p.want.put d g })
    else none
  | 4 =>
    let g := bistGrant d
    if g - t.grantOf d ≤ t.roomTokens ∧ t.changeOk [(d, g)] then some ((t.setGrant d g).wr (PBA_DOM_BIST d) 1) else none
  | _ =>
    let g := max (t.floorOf d) (t.d.pba.want.at d)
    if t.changeOk [(d, g)] then some ((t.setGrant d g).wr (PBA_DOM_BIST d) 0) else none

/-- PBA_RSP answers a request. -/
def Tx.pbaAnswer (t : Tx) (r : PbaReq) (code : Nat) : Tx :=
  t.setWord PBA_RSP (r.op * 2 ^ 28 + r.dom * 2 ^ 16 + code)

/-- A write of PBA_REQ (R513, R531). -/
def Tx.writePbaReq (t : Tx) (mid v : Nat) : Tx :=
  let r : PbaReq := { op := bits v 31 28, dom := bits v 22 16, tokens := bits v 12 0 }
  if t.d.pba.pending.isSome ∨ r.op = 0 ∨ 5 < r.op ∨ ((r.op = 4 ∨ r.op = 5) ∧ mid ≠ steward) then t.pwrSticky PBA_STAT_CMDREF
  else match t.refusal r with
    | some c => t.pbaAnswer r c
    | none => match t.applyReq r with
      | some t => t.pbaAnswer r 0
      | none => (t.pbaAnswer r 1).onPba fun p => { p with pending := some r }

/-- A request of operation `op` for a domain. -/
def pbaRequest (op : Nat) (mid : Mid) (dom : BitVec 7) (tokens : BitVec 13) (s : State) : Host.Outcome State Fault Refusal :=
  s.does fun t => t.swWrite mid.toNat PBA_REQ (·.writePbaReq mid.toNat (op * 2 ^ 28 + dom.toNat * 2 ^ 16 + tokens.toNat))

def execPbaOn (mid : Mid) (dom : BitVec 7) (s : State) : Host.Outcome State Fault Refusal := pbaRequest 1 mid dom 0 s
def execPbaOff (mid : Mid) (dom : BitVec 7) (s : State) : Host.Outcome State Fault Refusal := pbaRequest 2 mid dom 0 s
def execPbaGrant (mid : Mid) (dom : BitVec 7) (tokens : BitVec 13) (s : State) : Host.Outcome State Fault Refusal :=
  pbaRequest 3 mid dom tokens s
def execPbaBist (mid : Mid) (dom : BitVec 7) (s : State) : Host.Outcome State Fault Refusal := pbaRequest 4 mid dom 0 s
def execPbaBistend (mid : Mid) (dom : BitVec 7) (s : State) : Host.Outcome State Fault Refusal := pbaRequest 5 mid dom 0 s

/-- REQUEST_COMPLETE: the pending request fits, or an emergency cut has overtaken it (R513, R529). -/
def execRequestComplete (s : State) : Host.Outcome State Fault Refusal :=
  s.does fun t => match t.d.pba.pending with
    | none => t
    | some r =>
      let done (t : Tx) : Tx := t.onPba fun p => { p with pending := none }
      match t.refusal r with
      | some c => done (t.pbaAnswer r c)
      | none => match t.applyReq r with
        | some t => (done (t.pbaAnswer r 0)).pwrSticky PBA_STAT_DONE
        | none => t

/-! Floor requests. -/

/-- FLOORREQ on compute die `n`: its interrupt and, when newly set, the notice to both Cleats (R146, R161). -/
def Tx.floorReq (t : Tx) (n : Nat) : Tx :=
  if t.is (RTM_STAT_FLOORREQ (cdRtm n)) then t
  else ((t.set1 (RTM_STAT_FLOORREQ (cdRtm n))).irq (128 + 16 * n + 11)).notice 0x02 [n]

/-- WITHHOLD of each die: a domain above its grant, or a prediction of 120 °C or more (R146, R510). -/
def Tx.showWithhold (t : Tx) : Tx := { t with d := { t.d with withhold := t.d.pba.overdraw ||| t.d.pba.hot } }

/-! The survival envelope. -/

/-- A spare holds a rank-channel of MC0 (R523). -/
def Tx.mc0Spared (t : Tx) : Bool := (List.range 8).any fun q => bit (t.rmap q) 3

/-- Entry of the envelope under a cause (R501, R504, R522, R523): notice KIND 0x13, every stack off, the hub at its
survival state with harts 2 to 7 in reset, BEFF 600. -/
def Tx.survive (t : Tx) (code : Nat) (f : Pba → Pba) : Tx :=
  let t := t.onPba f
  if t.surviving then t
  else
    let on := auditDoms.filter fun d => t.domState d == 1 || t.domState d == 2 || t.domState d == 4
    let t := t.notice 0x13 []
    let t := (((t.wr PBA_STAT_MODE 2).wr PBA_STAT_CAUSE code).pwrSticky PBA_STAT_SURVIN)
    let t := t.cutDomains ((List.range 4).flatMap removeOrder)
    let t := t.cutDomains ([5, 6, 13, 10] ++ (if t.mc0Spared then [] else [11]) ++ [3])
    let t := t.retain [1, 2, 3]
    let t := t.each [2, 3, 4, 5, 6, 7] (·.hartReset ·)
    let t := t.each (auditDoms.filter fun d => t.domState d == 2) fun t d => t.wr (PBA_DOM_GRANT d) (survival d)
    let t := (t.wr PBA_AUD1_BEFF 600).pbaAudit
    let t := match t.d.pba.pending with
      | some r => t.pbaAnswer r 3
      | none => t
    (t.onPba fun p => { p with pending := none, restore := on.filter fun d => t.domState d != 2, floorAt := none, coolSince := 0 })

/-- SURVIVAL_EXIT: every cause has cleared and no trip is latched on the hub die; the budget is restored and
domains are powered again under the ramp limits (R524). -/
def execSurvivalExit (s : State) : Host.Outcome State Fault Refusal :=
  s.does fun t =>
    let p := t.d.pba
    t.when (t.surviving && !p.coolant && !p.input && !p.shed && !bit (t.rd THM_TRIP_TRIPPED) 0) fun t =>
      (((t.wr PBA_STAT_MODE 0).wr PBA_STAT_CAUSE 0).pwrSticky PBA_STAT_SURVOUT).unretain [1, 2, 3]

/-- A write of PBA_CMD (R524, R530, R531): SHED and UNSHED are the steward's. -/
def Tx.writePbaCmd (t : Tx) (mid v : Nat) : Tx :=
  match bits v 3 0 with
  | 1 => t.snapBlock PBA_CMD
  | 2 => if mid = steward then t.survive 3 fun p => { p with shed := true } else t.accErrorAt 3 mid PBA_CMD
  | 3 => if mid = steward then t.onPba fun p => { p with shed := false } else t.accErrorAt 3 mid PBA_CMD
  | _ => t.pwrSticky PBA_STAT_CMDREF

def execShed (mid : Mid) (s : State) : Host.Outcome State Fault Refusal :=
  s.does fun t => t.swWrite mid.toNat PBA_CMD (·.writePbaCmd mid.toNat 2)
def execUnshed (mid : Mid) (s : State) : Host.Outcome State Fault Refusal :=
  s.does fun t => t.swWrite mid.toNat PBA_CMD (·.writePbaCmd mid.toNat 3)

/-- A write of PBA_CTL (R507, R531): a budget from 600 to 4,500 tokens. -/
def Tx.writeBudget (t : Tx) (v : Nat) : Tx :=
  let b := bits v 12 0
  if 600 ≤ b ∧ b ≤ 4500 then t.wr PBA_CTL_BUDGET b else t.pwrSticky PBA_STAT_CMDREF

def execBudgetWrite (mid : Mid) (value : Word) (s : State) : Host.Outcome State Fault Refusal :=
  s.does fun t => t.swWrite mid.toNat PBA_CTL (·.writeBudget value.toNat)

/-! Allocation (R507 to R509, R512). -/

/-- The coolant derate target (R521). -/
def Tx.derate (t : Tx) : Nat :=
  let span := t.rd PBA_CTL_BUDGET - 600
  let flow := match t.d.pba.flow with
    | none => span
    | some f => span * min 1000 (f - 1000) / 1000
  let inlet := span * (min 20000 (85000 - t.d.pba.tin).toNat) / 20000
  600 + min flow inlet

/-- The effective budget aimed at (R507). -/
def Tx.beffTarget (t : Tx) : Nat := if t.surviving then 600 else min (t.rd PBA_CTL_BUDGET) t.derate

/-- Domains that hold a grant. -/
def Tx.holders (t : Tx) : List Nat := auditDoms.filter fun d => t.domState d == 1 || t.domState d == 2 || t.domState d == 4

/-- The sum of the floors of some domains. -/
def Tx.floors (t : Tx) (ds : List Nat) : Nat := ds.foldl (fun a d => a + (if t.domState d = 4 then t.grantOf d else t.floorOf d)) 0

/-- The sums of levels 3, 4 and 5, and the tokens for them (R509). -/
def Tx.levels (t : Tx) : Nat × Nat × Nat × Nat :=
  let hs := t.holders
  (t.floors (hs.filter fun d => !computeDom d), t.floors (hs.filter fun d => computeDom d && t.held (domStack d)),
   t.floors (hs.filter fun d => computeDom d && !t.held (domStack d)), t.beffTarget - fixedTokens - t.releasing)

/-- A domain's grant as asked for. -/
def Tx.wanted (t : Tx) (d : Nat) : Nat :=
  if t.is (PBA_DOM_BIST d) then bistGrant d
  else if computeDom d then max (t.floorOf d) (t.d.pba.want.at d) else if t.domState d = 4 then t.grantOf d else t.floorOf d

/-- What a domain is to hold (R509, levels 1 to 6). -/
def Tx.allotted (t : Tx) (d : Nat) : Nat :=
  let (l3, l4, l5, avail) := t.levels
  let fl := if t.domState d = 4 then t.grantOf d else t.floorOf d
  let excess := t.holders.foldl (fun a d => a + (t.wanted d - (if t.domState d = 4 then t.grantOf d else t.floorOf d))) 0
  let rest := avail - (l3 + l4 + l5)
  if excess ≤ rest then t.wanted d else fl + (t.wanted d - fl) * rest / excess

/-- One domain moves toward its allotment within the limits; `up` moves raises, the others cuts. -/
def Tx.moveGrant (t : Tx) (up : Bool) (x : Nat × Nat) : Tx :=
  let (d, g) := x
  let old := t.grantOf d
  let g' := if up then min g (old + min t.rampRoom.1 t.roomTokens) else max g (old - t.rampRoom.2)
  if (up && decide (g ≤ old)) || (!up && decide (old ≤ g)) then t
  else
    let ok := t.changeOk [(d, g')] && g' != old
    let t := if ok then t.setGrant d g' else t
    t.when (!ok || g' != g) (·.pwrSticky PBA_STAT_RAMPH)

/-- A whole compute die is released when the ramp limits allow it. -/
def Tx.shedDie (t : Tx) (n : Nat) : Tx :=
  let ds := (dieDoms n).filter fun d => t.domState d == 1 || t.domState d == 2
  if t.changeOk (ds.map fun d => (d, 0)) then t.each ds (·.release ·) else t.pwrSticky PBA_STAT_RAMPH

/-- The highest compute die that is powered and not held. -/
def Tx.looseDie (t : Tx) : Option Nat := ([3, 2, 1, 0]).find? fun n => !t.held n && t.domState (domCD n) == 2

/-- The PBA allocates (R509): cuts first, then BEFF, then raises; dies in `hot` are not raised. -/
def Tx.allocate (t : Tx) (hot : List Nat) : Tx :=
  let (l3, l4, l5, avail) := t.levels
  let fits4 := decide (l3 + l4 ≤ avail)
  let t := t.when (decide (avail < t.holders.foldl (fun a d => a + t.wanted d) 0)) (·.pwrSticky PBA_STAT_SHORT)
  let t := t.when (decide (l3 ≤ avail) && !fits4) fun t =>
    (t.each ((List.range 4).filter t.held) (·.floorReq ·)).onPba fun p => { p with floorAt := some (p.floorAt.getD t.now) }
  let t := t.when fits4 (·.onPba fun p => { p with floorAt := none })
  let t := if l3 ≤ avail ∧ l3 + l4 + l5 ≤ avail then t
    else match t.looseDie with
      | some n => t.shedDie n
      | none => if t.surviving ∨ l3 ≤ avail then t
        else
          let (k, t) := t.pick 3
          t.survive (k + 1) id
  let plan := t.holders.map fun d => (d, t.allotted d)
  let t := t.each plan (·.moveGrant false ·)
  let used := t.granted + t.releasing + fixedTokens
  let old := t.rd PBA_AUD1_BEFF
  let target := t.beffTarget
  let beff := if old ≤ target then target else max target used
  let t := t.wr PBA_AUD1_BEFF beff
  let t := t.when (!t.surviving) fun t => t.wr PBA_STAT_MODE (if beff < t.rd PBA_CTL_BUDGET then 1 else 0)
  (t.each (plan.filter fun (d, _) => !hot.contains (domDie d)) (·.moveGrant true ·)).pbaAudit

/-- FLOOR_CUT: 100 ms after FLOORREQ, held dies go in descending order until level 4 fits (R509). -/
def execFloorCut (s : State) : Host.Outcome State Fault Refusal :=
  s.does fun t => match t.d.pba.floorAt with
    | none => t
    | some f =>
      if t.now < f + 100000000 then t
      else
        let cut (t : Tx) (n : Nat) : Tx :=
          let (l3, l4, _, avail) := t.levels
          t.when (t.held n && decide (avail < l3 + l4)) fun t => (t.cutDomains (dieDoms n)).pwrSticky PBA_STAT_FLOORCUT
        (t.each [3, 2, 1, 0] cut).onPba fun p => { p with floorAt := none }

/-! The tick. -/

/-- Energies of the tick are counted and kept (R503, R510). -/
def Tx.tickEnergy (t : Tx) (es : List Nat) : Tx :=
  let t := t.each (List.range 74) fun t d => t.incPair (PBA_E_LO d) (es.getD d 0)
  let overdrawn (n : Nat) : Bool := (dieDoms n).any fun d => t.domState d == 2 && decide (100 * t.grantOf d < es.getD d 0)
  (t.onPba fun p => { p with
    used := es, ramp := (0, 0) :: p.ramp.take 9,
    overdraw := (List.range 4).foldl (fun m n => if overdrawn n then m + 2 ^ n else m) 0 }).showWithhold

/-- The dies of THM_DIEx: the domains whose power heats die `x` (R516). -/
def heatDoms (x : Nat) : List Nat :=
  if x = 0 then (List.range 15).map (3 + ·) else if x ≤ 4 then dieDoms (x - 1) else (List.range 4).map (28 + 14 * (x - 5) + ·)

/-- H_x of R516 in 1/16 °C: open within the bounds the spec gives. -/
def Tx.hotSpot (t : Tx) (top : Int) : Tx × Int :=
  let ds := (List.range 71).map (3 + ·)
  let low := ds.foldl (fun a d => a + (if computeDom d then t.usedOf d else t.usedOf d - 100 * t.grantOf d)) 0
  let high := ds.foldl (fun a d => a + (100 * t.grantOf d - t.usedOf d)) 0
  let (k, t) := t.pick ((low + high) * 8 / 1000 + 1)
  (t, top + 16 + k - (low * 8 / 1000 : Nat))

/-- A die's sensors are read (R516, R532). -/
def Tx.tickDie (t : Tx) (x : Nat) (ts : List Int) : Tx :=
  match ts with
  | [] => t
  | a :: rest =>
    let top := rest.foldl max a
    let sum := ts.foldl (· + ·) 0
    let (t, h) := t.hotSpot top
    let t := { t with d := { t.d with wear := t.d.wear.upd x fun w => { w with peak := some (max top (w.peak.getD top)) } } }
    let t := ((t.wr (THM_DIE_A_MAX x) (scode 16 top)).wr (THM_DIE_A_PRED x) (scode 16 h)).wr (THM_DIE_B_MEAN x) (scode 16 (sum / ts.length))
    match (t.d.pba.sumHist[999]?).bind (·[x]?) with
    | some old => t.wr (THM_DIE_B_SLOPE x) (scode 16 ((sum - old) / ts.length))
    | none =>
      let (v, t) := t.fresh 16
      t.wr (THM_DIE_B_SLOPE x) v

/-- Mean of some naturals. -/
def meanN (xs : List Nat) : Nat := xs.foldl (· + ·) 0 / max 1 xs.length

/-- A thermistor pair reads outside −50 °C to 150 °C (R601). -/
def thermistorBad (x : Int) : Bool := decide (x < -50000) || decide (150000 < x)

/-- The coolant flow is estimated and the derate follows (R520, R521); with a failed thermistor ΔT is unknown (R601). -/
def Tx.tickFlow (t : Tx) (tin tout : Int) : Tx :=
  let failed := thermistorBad tin || thermistorBad tout
  let t := (t.wr THM_TCOOL_TIN (scode 16 (tin * 16 / 1000))).wr THM_TCOOL_TOUT (scode 16 (tout * 16 / 1000))
  let t := t.onPba fun p => { p with tin := tin, flowHist := ((meanN p.pins, tout - tin) :: p.flowHist).take 1000 }
  let h := t.d.pba.flowHist
  let pin := meanN (h.map (·.1))
  let dt : Int := h.foldl (fun (a : Int) (_, d) => a + d) 0 / (max 1 h.length : Nat)
  let was := t.is THM_STAT_LOW
  let t := if failed && !t.is THM_STAT_FLOWUNK then t.event "POWER" [] else t
  let t := if failed || decide (dt < 300) then t.wr THM_STAT_FLOWUNK 1
    else
      let f := 60 * 90 * pin * 10 / (3550 * dt.toNat)
      ((t.wr THM_STAT_FLOWUNK 0).wr THM_FLOW_FLOW (min f 65535)).onPba fun p => { p with flow := some f }
  let low := match t.d.pba.flow with
    | some f => decide (f < 2000)
    | none => false
  let t := (t.wr THM_STAT_LOW (if low then 1 else 0)).when (low != was) (·.inc THM_FLOW_XCNT)
  let t := t.when (decide (65000 < tin)) (·.pwrSticky THM_STAT_INHOT)
  let derated := decide (t.derate < t.rd PBA_CTL_BUDGET)
  let t := t.when (derated && !t.d.pba.derated) fun t => t.pwrSticky THM_STAT_XLOW
  let t := t.when (!derated && t.d.pba.derated) (·.pwrSticky THM_STAT_XOK)
  let t := t.onPba fun p => { p with derated := derated }
  let bad := decide (85000 < tin) || (match t.d.pba.flow with
    | some f => decide (f < 1000)
    | none => false)
  let good := decide (tin ≤ 80000) && (match t.d.pba.flow with
    | some f => decide (2000 ≤ f)
    | none => true)
  let t := t.when bad (·.survive 1 fun p => { p with coolant := true })
  t.onPba fun p =>
    let since := if !good then 0 else if p.coolSince = 0 then t.now + 1 else p.coolSince
    { p with coolSince := since, coolant := p.coolant && !(since ≠ 0 && since - 1 + 10000000000 ≤ t.now) }

/-- A sudden loss of coolant is detected (R522). -/
def Tx.suddenLoss (t : Tx) (failed : Bool) (sensors : List (List Int)) : Bool :=
  let p := t.d.pba
  let win := p.flowHist.take 101
  let m := meanN (win.map (·.1))
  let rise := match win.head?, p.flowHist[100]? with
    | some (_, a), some (_, b) => decide (200 < a - b) && win.all fun (x, _) => decide (95 * m ≤ 100 * x) && decide (100 * x ≤ 105 * m)
    | _, _ => false
  let die (x : Nat) : Bool :=
    match (p.sumHist[19]?).bind (·[x]?), sensors[x]? with
    | some old, some ts =>
      let g := if x ≤ 4 then x else x - 4
      decide (64 * (ts.length : Int) < 10 * (ts.foldl (· + ·) 0 - old)) &&
        (p.raised.at g == 0 || decide (p.raised.at g - 1 + 50000000 ≤ t.now))
    | _, _ => false
  (rise && !failed) || (List.range 9).any die

/-- Compute grants are trimmed by `amount`, non-held domains toward PIDLE first, then held ones toward PHOLD
(R517). -/
def Tx.trim (t : Tx) (ns : List Nat) (amount : Nat) : Tx :=
  let ds := ns.flatMap fun n => (dieDoms n).filter fun d => t.domState d == 2
  let order := (ds.filter fun d => !t.held (domStack d)) ++ ds.filter fun d => t.held (domStack d)
  (order.foldl (fun (x : Tx × Nat) d =>
    let k := min x.2 (x.1.grantOf d - x.1.floorOf d)
    if k = 0 then x else (x.1.setGrant d (x.1.grantOf d - k), x.2 - k)) (t, amount)).1

/-- Predictions above TLIM lower the grants of the stack, or of all stacks for the hub die (R517): how much in one
tick is open within the ramp limits. -/
def Tx.tickHot (t : Tx) : Tx × List Nat :=
  let lim : Int := t.rd THM_CTL_TLIM * 16
  let hot := (List.range 9).filter fun x => decide (lim < sint 16 (t.rd (THM_DIE_A_PRED x)))
  let ns := if hot.contains 0 then [0, 1, 2, 3] else (List.range 4).filter fun n => hot.contains (1 + n) || hot.contains (5 + n)
  if hot = [] then (t, [])
  else
    let t := t.pwrSticky THM_STAT_HOTLIM
    let room := ns.foldl (fun a n => a + (dieDoms n).foldl (fun a d => a + (if t.domState d = 2 then t.grantOf d - t.floorOf d else 0)) 0) 0
    let most := min room t.rampRoom.2
    if most = 0 then (t, ns.map (1 + ·))
    else
      let (k, t) := t.pick most
      (t.trim ns (k + 1), ns.map (1 + ·))

/-- Quadrants and strand pairs follow their fences and switches at a step boundary (R90, R91, R131). -/
def Tx.tickQuadrants (t : Tx) : Tx :=
  t.each ((List.range 4).filter fun n => t.domState (domCD n) == 2) fun t n =>
    t.each (List.range 8) fun t k =>
      let d := 18 + 14 * n + k
      let off := if k < 4 then bit (t.rd (CD_BRD_QCTL_QFENCE n) ||| t.rd (CD_BRD_QCTL_QOFF n)) k else bit (t.rd (CD_STR_CTL_PAIROFF n)) (k - 4)
      let busy := if k < 4 then t.is (CD_BRD_QSTAT_BUSY n) && bit (t.schOf n).qact k else t.is (CD_STR_STAT_BUSY n) && bit (t.schOf n).pairs (k - 4)
      if off then t.when (t.domState d == 2 && !busy) (·.release d)
      else t.when (!t.surviving && t.canPower d && decide (t.floorOf d ≤ t.roomTokens) && t.changeOk [(d, t.floorOf d)]) (·.powerUp d)

/-- Domains cut by the envelope are powered again as they fit, in the order of R505 (R524). -/
def Tx.tickRestore (t : Tx) : Tx :=
  if t.surviving then t
  else
    let next (t : Tx) (d : Nat) : Tx :=
      t.when (t.canPower d && (prereq d).all t.powered && decide (t.floorOf d - t.grantOf d ≤ t.roomTokens) && t.changeOk [(d, t.floorOf d)])
        (·.powerUp d)
    let t := t.each t.d.pba.restore next
    t.onPba fun p => { p with restore := p.restore.filter fun d => t.domState d != 1 && t.domState d != 2 }

/-- PBA_TICK (R510, R514, R516, R517, R520 to R522): `energies` in µJ by domain, `sensors` in 1/16 °C by die of
THM_DIEx, coolant temperatures in mK above 0 °C; at a multiple of 1 ms, once. -/
def execPbaTick (energies : List Nat) (sensors : List (List Int)) (tin tout : Int) (s : State) : Host.Outcome State Fault Refusal :=
  s.does fun t =>
    if t.d.pba.dark || t.now % 1000000 != 0 || t.d.pba.last == t.now + 1 then t
    else
      let t := (t.onPba fun p => { p with last := t.now + 1 }).tickEnergy energies
      let t := t.each ((List.range 9).zip sensors) fun t (x, ts) => t.tickDie x ts
      let t := t.tickFlow tin tout
      let lost := t.suddenLoss (thermistorBad tin || thermistorBad tout) sensors
      let t := t.when lost fun t => (t.pwrSticky THM_STAT_CSTOP).survive 1 fun p => { p with coolant := true }
      let t := t.onPba fun p => { p with
        sens := sensors.map fun ts => (ts.foldl (· + ·) 0, ts.length),
        sumHist := ((sensors.map fun ts => ts.foldl (· + ·) 0) :: p.sumHist).take 1000 }
      let (t, hot) := t.tickHot
      ((t.tickQuadrants).tickRestore).allocate hot

/-! Domain events. -/

/-- Domains that boot powers without a request, with what each waits for (R505, R506, R570). -/
def bootWaits (d : Nat) : Option Nat :=
  match d with
  | 15 => some domAON | 16 | 17 => some domFAB | 9 | 10 | 11 => some domSTW | 4 => some domMCA
  | _ => none

/-- A domain may complete its power-on now. -/
def Tx.comingUp (t : Tx) (d : Nat) : Bool :=
  if t.domState d = 1 then (prereq d).all t.powered
  else t.domState d == 0 && !t.surviving && !t.d.pba.dark && !t.tripped d &&
    (match bootWaits d with
    | some w => t.powered w
    | none => false)

/-- DOMAIN_OFF: a domain completes its power-off and its grant is released (R505, R512). -/
def execDomainOff (d : Fin 74) (s : State) : Host.Outcome State Fault Refusal :=
  s.does fun t => t.when (t.domState d == 3) fun t => (t.removeDomain d).pbaAudit

/-- The domains a trip of die `x` removes (R518). -/
def tripDoms (x : Nat) : List Nat :=
  if x = 0 then (List.range 14).map (4 + ·) else if x ≤ 4 then dieDoms (x - 1) else removeOrder (x - 5)

/-- HARD_TRIP: the comparators of die `x` (0 hub, 1 to 4 CD0 to CD3, 5 to 8 BT0 to BT3) open its switches, and the
trip is latched (R518). -/
def execHardTrip (x : Fin 9) (s : State) : Host.Outcome State Fault Refusal :=
  s.does fun t =>
    if t.d.pba.dark then t
    else
      let t := t.each ((tripDoms x).filter fun d => t.domState d != 0) fun t d => t.losePower d 5 0
      ((t.wr THM_TRIP_TRIPPED (t.rd THM_TRIP_TRIPPED ||| 2 ^ x.val)).pwrSticky THM_STAT_TRIP).pbaAudit

/-- A write of THM_TRIP: a trip stays while its die is above 120 °C (R518, R529). -/
def Tx.writeTrip (t : Tx) (v : Nat) : Tx :=
  let keep := (List.range 9).foldl (fun m x => if 120 * 16 < sint 16 (t.rd (THM_DIE_A_MAX x)) then m + 2 ^ x else m) 0
  let old := t.rd THM_TRIP_TRIPPED
  let new := old &&& ((v ^^^ 0x1FF) ||| keep)
  let t := t.wr THM_TRIP_TRIPPED new
  t.each (auditDoms.filter fun d => t.domState d == 5 && !t.tripped d) fun t d => t.wr (PBA_DOM_STATE d) 0

/-- A write of THM_CTL: TLIM from 85 °C to 120 °C (R517, R532). -/
def Tx.writeTlim (t : Tx) (v : Nat) : Tx :=
  let c := bits v 7 0
  if 85 ≤ c ∧ c ≤ 120 then t.wr THM_CTL_TLIM c else t.pwrSticky THM_STAT_CMDREF

end Sys2Proof.Machine
end

