-- ==== Sys2Proof/Machine/HoldUp.lean ====
section
/-! DEFINITION.  The 24 V input and the hold-up store (R500, R501, R525, R526, R528, R533). -/

namespace Sys2Proof.Machine

/-- E_avail in mJ from C_meas in 0.1 mF and the store's voltage in 10 mV (R525). -/
def storeEnergy (cap vhold : Nat) : Nat := cap * (vhold * vhold - 1800 * 1800) / 200000

/-- INSTATE of HUP_STAT (R533). -/
def Tx.inState (t : Tx) : Nat := t.rd HUP_STAT_INSTATE

/-- EAVAIL follows the store; LOWE sets below 4 J (R525, R533). -/
def Tx.showStore (t : Tx) : Tx :=
  let e := storeEnergy (t.rd HUP_E_CAP) (t.rd HUP_V_VHOLD)
  (t.wr HUP_E_EAVAIL (min e 65535)).when (decide (e < 4000)) (·.pwrSticky HUP_STAT_LOWE)

/-- The input's class after a sample of `vin` mV (R500). -/
def Tx.classify (t : Tx) (vin : Nat) : Tx :=
  let p := t.d.pba
  let overV := decide (33000 < vin) || (p.overV && decide (32000 < vin))
  let gone := p.dropAt ≠ 0 && !p.overV
  let under := decide (vin < 9500) || (gone && decide (vin < 10000))
  let off := overV || under
  let t := t.when (overV && !p.overV) (·.pwrSticky HUP_STAT_OV)
  let t := t.onPba fun p => { p with
    overV := overV,
    dropAt := if !off then 0 else if p.dropAt = 0 then t.now + 1 else p.dropAt,
    below := if 16000 ≤ vin then 0 else if p.below = 0 then t.now + 1 else p.below,
    above := if vin < 17000 then 0 else if p.above = 0 then t.now + 1 else p.above }
  if off then (t.wr HUP_STAT_INSTATE 2).when (p.dropAt == 0) fun t => (t.pwrSticky HUP_STAT_DROP).inc HUP_CNT_DROPS
  else t.wr HUP_STAT_INSTATE (if p.input then 1 else 0)

/-- VIN_SAMPLE (R500, R503, R525): every 10 µs the input voltage in mV, the store's voltage in 10 mV units and the
input power in mW are measured. -/
def execVinSample (vin vhold pin : Nat) (s : State) : Host.Outcome State Fault Refusal :=
  s.does fun t =>
    if t.d.pba.dark || t.inState == 3 then t
    else
      let t := (t.wr HUP_V_VIN (min vin 65535)).wr HUP_V_VHOLD (min vhold 65535)
      let t := t.onPba fun p => { p with pins := (pin :: p.pins).take 100 }
      let ps := t.d.pba.pins
      let t := (t.wr HUP_P_PMAX1 (min (ps.foldl max 0 / 100) 65535)).wr HUP_P_PIN (min (meanN ps / 100) 65535)
      ((t.incPair HUP_EIN_LO (pin / 100)).showStore).classify vin

/-- SURVIVAL_MODE_ENTRY: the input has been below 16.0 V for 1 ms (R500, R501). -/
def execSurvivalModeEntry (s : State) : Host.Outcome State Fault Refusal :=
  s.does fun t =>
    let p := t.d.pba
    t.when (!p.dark && !p.input && p.below != 0 && decide (p.below - 1 + 1000000 ≤ t.now)) fun t =>
      let t := (t.pwrSticky HUP_STAT_UV).when (t.inState == 0) (·.wr HUP_STAT_INSTATE 1)
      t.survive 2 fun p => { p with input := true }

/-- SURVIVAL_MODE_EXIT: the input has been at or above 17.0 V for 100 ms (R500). -/
def execSurvivalModeExit (s : State) : Host.Outcome State Fault Refusal :=
  s.does fun t =>
    let p := t.d.pba
    t.when (!p.dark && p.input && p.above != 0 && decide (p.above - 1 + 100000000 ≤ t.now)) fun t =>
      ((t.onPba fun p => { p with input := false }).when (t.inState == 1) (·.wr HUP_STAT_INSTATE 0))

/-- HOLDUP_SURVIVAL: a dropout has lasted 2 ms (R526). -/
def execHoldupSurvival (s : State) : Host.Outcome State Fault Refusal :=
  s.does fun t =>
    let p := t.d.pba
    t.when (!p.dark && p.dropAt != 0 && decide (p.dropAt - 1 + 2000000 ≤ t.now)) fun t =>
      t.survive 2 fun p => { p with input := true }

/-- The whole module but the Cleats loses its power, and MOD_PWRGOOD is low (R528, R600). -/
def Tx.powerDown (t : Tx) : Tx :=
  let t := t.each ((List.range 4).flatMap removeOrder ++ (List.range 15).map (17 - ·)) fun t d => t.losePower d 0 0
  { t with d := { t.d with pwrgood := false } }.onPba fun p => { p with dark := true }

/-- SHUTDOWN: on hold-up E_avail has reached 3 J; the shutdown record goes to the next of its 16 slots, and the
stacks, the hub domains and AON are removed (R526, R528, R544).  The record's bytes are open. -/
def execShutdown (s : State) : Host.Outcome State Fault Refusal :=
  s.does fun t =>
    t.when (!t.d.pba.dark && t.inState == 2 && decide (t.rd HUP_E_EAVAIL ≤ 3000)) fun t =>
      let (w, t) := t.fresh 2048
      let t := t.wrBytes (mramBase + 0x90000 + t.d.pba.slot % 16 * 256) (leBytes 256 w)
      let t := t.onPba fun p => { p with slot := (p.slot + 1) % 16, shut := some (t.rd HUP_E_EAVAIL) }
      (t.wr HUP_STAT_INSTATE 3).powerDown

/-- CAP_MEASURE: a timed charge step gives the capacitance, in 0.1 mF (R525). -/
def execCapMeasure (cap : BitVec 16) (s : State) : Host.Outcome State Fault Refusal :=
  s.does fun t => t.when (!t.d.pba.dark) fun t => (t.wr HUP_E_CAP cap.toNat).showStore

end Sys2Proof.Machine
end

