-- ==== Sys2Proof/Machine/Sha.lean ====
section
/-! DEFINITION.  SHA-256 and SHA-384 (FIPS 180-4), which R485 and R563 name. -/

namespace Sys2Proof.Machine

/-- The first 80 primes, from which the constants come. -/
def shaPrimes : List Nat :=
  ((List.range 410).filter fun n => decide (2 ≤ n) && (List.range n).all fun d => decide (d < 2) || n % d != 0).take 80

/-- The cube root of `n`, cut. -/
def icbrt (n : Nat) : Nat → Nat → Nat
  | 0, acc => acc
  | k + 1, acc =>
    let t := acc + 2 ^ k
    if t * t * t ≤ n then icbrt n k t else icbrt n k acc

/-- The first `w` bits of the fractional part of the square root, or of the cube root, of `p`. -/
def sqrtFrac (w p : Nat) : Nat := isqrt (p * 2 ^ (2 * w)) % 2 ^ w
def cbrtFrac (w p : Nat) : Nat := icbrt (p * 2 ^ (3 * w)) (w + 4) 0 % 2 ^ w

/-- A variant: its word's width, rounds, rotations of the two sums and two sigmas (the third of a sigma a shift). -/
structure ShaKind where
  w : Nat
  rounds : Nat
  s0 : List Nat
  s1 : List Nat
  g0 : List Nat
  g1 : List Nat

def sha32 : ShaKind := ⟨32, 64, [2, 13, 22], [6, 11, 25], [7, 18, 3], [17, 19, 10]⟩
def sha64 : ShaKind := ⟨64, 80, [28, 34, 39], [14, 18, 41], [1, 8, 7], [19, 61, 6]⟩

def rotr (w x n : Nat) : Nat := x >>> n ||| (x <<< (w - n)) % 2 ^ w

/-- A sum of a variant. -/
def shaSum (k : ShaKind) (r : List Nat) (x : Nat) : Nat := r.foldl (fun a n => a ^^^ rotr k.w x n) 0
/-- A sigma of a variant. -/
def shaSig (k : ShaKind) (r : List Nat) (x : Nat) : Nat :=
  rotr k.w x (r.getD 0 0) ^^^ rotr k.w x (r.getD 1 0) ^^^ x >>> r.getD 2 0

/-- The message schedule: `n` more words after those in `ws`, which are newest first. -/
def shaSched (k : ShaKind) : Nat → List Nat → List Nat
  | 0, ws => ws
  | n + 1, ws =>
    let g (i : Nat) : Nat := ws.getD i 0
    shaSched k n (((shaSig k k.g1 (g 1) + g 6 + shaSig k k.g0 (g 14) + g 15) % 2 ^ k.w) :: ws)

/-- A round. -/
def shaRound (k : ShaKind) (v : List Nat) (kw : Nat) : List Nat :=
  match v with
  | [a, b, c, d, e, f, g, h] =>
    let t1 := h + shaSum k k.s1 e + ((e &&& f) ^^^ ((2 ^ k.w - 1 - e) &&& g)) + kw
    let t2 := shaSum k k.s0 a + ((a &&& b) ^^^ (a &&& c) ^^^ (b &&& c))
    [(t1 + t2) % 2 ^ k.w, a, b, c, (d + t1) % 2 ^ k.w, e, f, g]
  | _ => v

/-- A big-endian number. -/
def beNat (bs : List Byte) : Nat := bs.foldl (fun n b => n * 256 + b.toNat) 0
/-- Its `n` bytes. -/
def beBytes (n v : Nat) : List Byte := (leBytes n v).reverse

/-- One block. -/
def shaBlock (k : ShaKind) (consts h : List Nat) (b : List Byte) : List Nat :=
  let m := (List.range 16).map fun i => beNat ((b.drop (i * (k.w / 8))).take (k.w / 8))
  let ws := (shaSched k (k.rounds - 16) m.reverse).reverse
  let v := (ws.zip consts).foldl (fun v (w, c) => shaRound k v (w + c)) h
  List.zipWith (fun x y => (x + y) % 2 ^ k.w) h v

/-- The padded message. -/
def shaPad (k : ShaKind) (bs : List Byte) : List Byte :=
  let blk := 2 * k.w
  let z := (2 * blk - (bs.length + 1 + k.w / 4) % blk) % blk
  bs ++ [0x80#8] ++ List.replicate z 0#8 ++ beBytes (k.w / 4) (8 * bs.length)

/-- The digest from the initial words `h`, cut to `n` words. -/
def sha (k : ShaKind) (h : List Nat) (n : Nat) (bs : List Byte) : List Byte :=
  let p := shaPad k bs
  let consts := (shaPrimes.take k.rounds).map (cbrtFrac k.w)
  let out := (List.range (p.length / (2 * k.w))).foldl (fun h i => shaBlock k consts h ((p.drop (i * (2 * k.w))).take (2 * k.w))) h
  (out.take n).flatMap (beBytes (k.w / 8))

def sha256 (bs : List Byte) : List Byte := sha sha32 ((shaPrimes.take 8).map (sqrtFrac 32)) 8 bs
/-- SHA-384 starts from the ninth to sixteenth primes. -/
def sha384 (bs : List Byte) : List Byte := sha sha64 (((shaPrimes.drop 8).take 8).map (sqrtFrac 64)) 6 bs

end Sys2Proof.Machine
end

