-- ==== Sys2Proof/Machine/Hawser.lean ====
section
/-! DEFINITION.  The hub's side of the Hawser: ports and transport (R470 to R473), mirroring (R474 to R478), remote writes (R472,
R494), handover commands (R492), the digest unit (R485) and the block HD_HWS (R496 to R499). -/

namespace Sys2Proof.Machine

def Tx.onHws (t : Tx) (f : Hws → Hws) : Tx := { t with d := { t.d with hws := f t.d.hws } }

/-- The live bit of a port. -/
def hwsUpBit (p : Nat) : FRef := if p = 0 then HWS_STAT_UP0 else HWS_STAT_UP1
/-- Port `p` runs and is up. -/
def Tx.portUp (t : Tx) (p : Nat) : Bool := t.is HWS_CTL_EN && t.is (hwsUpBit p)

/-- A sticky bit of the block sets and raises its source (R497). -/
def Tx.hwsRaise (t : Tx) (f : FRef) : Tx := (t.set1 f).irq 47

/-- MIRCAP follows the ports that are up (R473). -/
def Tx.hwsCap (t : Tx) : Tx :=
  let n := t.rd HWS_STAT_UP0 + t.rd HWS_STAT_UP1
  t.wr HWS_MAUD_MIRCAP (if n = 2 then 312 else if n = 1 then 156 else 0)

/-- A disable of a window that waited takes effect once the queue holds no entry of it (R478). -/
def Tx.hwsDisable (t : Tx) : Tx :=
  t.each (List.range 16) fun t w =>
    let mine (e : MirEnt) : Bool := decide (t.rd (HWS_WBASE_ADDR w) ≤ e.pa / 4096) && decide (e.pa / 4096 ≤ t.rd (HWS_WLIM_ADDR w))
    if bit t.d.hws.off w && !t.d.hws.queue.any mine then
      (t.wr (HWS_WCFG_EN w) 0).onHws fun h => { h with off := h.off - 2 ^ w }
    else t

/-- The stream breaks (R477): the queue is discarded, copying stops, a running RESYNC ends, and both ends number anew. -/
def Tx.mirBreak (t : Tx) : Tx :=
  let keep (l : List HwsPkt) : List HwsPkt := l.filter fun k => k.entry == 0
  let t := t.onHws fun h => { h with
    queue := [], txSeq := 0, rxSeq := 0, early := [], rxTop := [], resync := [], last := 0,
    sent := ((h.sent.put 0 (keep (h.sent.at 0))).put 1 (keep (h.sent.at 1))) }
  let t := ((t.wr HWS_STAT_MIRON 0).wr HWS_STAT_RESYNC 0).inc HWS_CNT1_BREAKS
  ((t.hwsRaise HWS_STAT_MIRBRK).send "HAWSER" "BREAK" []).mirrorShow.hwsDisable

/-- Port `p` goes down (R470); with both down the stream breaks. -/
def Tx.hwsDown (t : Tx) (p : Nat) : Tx :=
  if !t.is (hwsUpBit p) then t
  else
    let t := ((t.wr (hwsUpBit p) 0).hwsRaise HWS_STAT_LINKCHG).hwsCap.event "LINK_CHANGE" [p, 0]
    if t.is HWS_STAT_UP0 || t.is HWS_STAT_UP1 then t else t.mirBreak

/-- The security engine holds the pair key: the seal of the module configuration in force opened (R569, R579, R580). -/
def Tx.pairKey (t : Tx) : Bool :=
  !t.d.sec.wiped && (match t.d.sec.cfg with
    | some p => Config.sealOk (((p.drop 0xE00).take 60).map (·.toNat)) % 2 == 1
    | none => false)

/-- HAWSER_LINK_UP (R470): an enabled port has trained, and its SAK comes from the pair key. -/
def execHawserLinkUp (port : Fin 2) (s : State) : Host.Outcome State Fault Refusal :=
  s.does fun t =>
    let p := port.val
    if !t.powered domFAB || !t.is HWS_CTL_EN || !bit (t.rd HWS_CTL_PORTEN) p || t.is (hwsUpBit p) || !t.pairKey then t
    else
      let t := t.onHws fun h => { h with retries := h.retries.put p 0 }
      ((t.set1 (hwsUpBit p)).hwsRaise HWS_STAT_LINKCHG).hwsCap.event "LINK_CHANGE" [p, 1]

/-- HAWSER_LINK_DOWN (R470, R477). -/
def execHawserLinkDown (port : Fin 2) (s : State) : Host.Outcome State Fault Refusal :=
  s.does fun t => t.hwsDown port.val

/-- The lines a RESYNC has still to send enter the queue as it has room, up to 4 KiB in one entry; of a line that does not answer,
the bytes sent are open (R477). -/
def Tx.resyncFill (t : Tx) : Tx :=
  match t.d.hws.resync with
  | [] => t
  | (pa, lines) :: rest =>
    let n := min lines 64
    if lines = 0 then t.onHws fun h => { h with resync := rest }
    else if 2 ^ 21 < t.mirrorBytes + 16 + 64 * n then t
    else
      let (bs, t) := match t.physRead 0x800 pa (64 * n) with
        | .ok bs => (bs, t)
        | _ => let (v, t) := t.fresh (512 * n); (leBytes (64 * n) v, t)
      let t := t.onHws fun h => { h with
        queue := h.queue ++ [⟨h.txSeq, pa, bs⟩], txSeq := (h.txSeq + 1) % 2 ^ 48,
        resync := if n = lines then rest else (pa + 64 * n, lines - n) :: rest,
        last := if n = lines ∧ rest = [] then h.txSeq + 1 else 0 }
      t.mirrorShow

/-- A packet leaves on port `p` and waits for its acknowledgement. -/
def Tx.hwsSend (t : Tx) (p : Nat) (kind : String) (entry : Nat) (bs : List Byte) : Tx :=
  let n := t.d.hws.psn.at p
  let t := t.onHws fun h => { h with
    psn := h.psn.put p ((n + 1) % 2 ^ 24), sent := h.sent.put p (h.sent.at p ++ [⟨n, t.now, kind, bs, entry⟩]) }
  t.send "HAWSER" kind (p :: n :: bs.map (·.toNat))

/-- MIRROR_ENTRY_SEND (R473, R475, R476): the oldest entry goes to a port that is up, in rotation, under the cap of the window of
1 µs; its tokens count. -/
def execMirrorEntrySend (s : State) : Host.Outcome State Fault Refusal :=
  s.does fun t =>
    let t := t.resyncFill
    let h := t.d.hws
    match h.queue with
    | [] => t
    | e :: rest =>
      let tokens := ceilDiv (16 + e.bytes.length) 64
      let used := if h.window = t.now / 1000 then h.used else 0
      let p := if t.portUp (h.port % 2) then h.port % 2 else 1 - h.port % 2
      if !t.portUp p || t.rd HWS_MAUD_MIRCAP < used + tokens then t
      else
        let t := t.onHws fun h => { h with queue := rest, window := t.now / 1000, used := used + tokens, port := 1 - p }
        let t := (t.incPair HWS_MTOK_LO tokens).hwsSend p "MIRROR" (e.seq + 1) (leBytes 6 e.seq ++ leBytes 2 e.bytes.length ++ leBytes 8 e.pa ++ e.bytes)
        t.mirrorShow.hwsDisable

/-- The enabled RX window that holds every byte of a run within a line. -/
def Tx.rxWindow (t : Tx) (pa : Nat) : Option Nat :=
  (List.range 16).find? fun w => t.is (HWS_WCFG_EN w) && t.is (HWS_WCFG_RX w) &&
    decide (t.rd (HWS_WBASE_ADDR w) ≤ pa / 4096) && decide (pa / 4096 ≤ t.rd (HWS_WLIM_ADDR w))

/-- An entry of the partner is written, line by line, each under its window's identity: done, refused, or held (R472). -/
def Tx.mirWrite (t : Tx) (e : MirEnt) : Tx × Ans Unit :=
  let runs := lineRuns e.pa e.bytes.length
  if e.bytes.isEmpty || 4096 < e.bytes.length || runs.any (fun r => decide (dramEnd ≤ r.1) || (t.rxWindow r.1).isNone) then (t, .decode e.pa)
  else runs.foldl (fun (t, acc) (a, k) =>
    match acc with
    | .ok () => t.physWrite (0x800 + (t.rxWindow a).getD 0) a ((e.bytes.drop (a - e.pa)).take k)
    | r => (t, r)) (t, .ok ())

/-- Entries that are next in number are written, at most `n`; a refused one breaks the stream. -/
def Tx.mirApply (t : Tx) : Nat → Tx
  | 0 => t
  | n + 1 =>
    match t.d.hws.early.find? fun e => e.seq == t.d.hws.rxSeq with
    | none => t
    | some e =>
      match t.mirWrite e with
      | (t, .ok ()) => (t.onHws fun h => { h with rxSeq := (h.rxSeq + 1) % 2 ^ 48, early := h.early.filter fun x => x.seq != e.seq }).mirApply n
      | (t, .held) => t
      | (t, _) => t.mirBreak

/-- A number is missing: each port that is up has carried a later one (R477). -/
def Tx.mirMissing (t : Tx) : Bool :=
  let h := t.d.hws
  !h.early.any (fun e => e.seq == h.rxSeq) && !h.early.isEmpty &&
    (List.range 2).all fun p => !t.portUp p || decide (h.rxSeq + 1 < h.rxTop.at p)

/-- MIRROR_ENTRY (R475, R477): entries are written in the order of their numbers; one already written is not written again. -/
def execMirrorEntry (port : Fin 2) (seq : Nat) (pa : Addr) (bytes : List Byte) (s : State) : Host.Outcome State Fault Refusal :=
  s.does fun t =>
    let h := t.d.hws
    if !t.powered domFAB || !t.portUp port.val then t
    else
      let fresh := decide (h.rxSeq ≤ seq) && !h.early.any fun e => e.seq == seq
      let t := t.onHws fun h => { h with
        rxTop := h.rxTop.put port.val (max (h.rxTop.at port.val) (seq + 1)), early := if fresh then h.early ++ [⟨seq, pa.toNat, bytes⟩] else h.early }
      let t := t.mirApply (t.d.hws.early.length + 1)
      if t.mirMissing then t.mirBreak else t

/-- ROCE_ACK (R470, R477): every packet up to `psn` is released; the acknowledgement of a RESYNC's last entry sets RSDONE. -/
def execRoceAck (port : Fin 2) (psn : Nat) (s : State) : Host.Outcome State Fault Refusal :=
  s.does fun t =>
    let p := port.val
    let sent := t.d.hws.sent.at p
    match sent.findIdx? fun k => k.psn == psn with
    | none => t
    | some i =>
      let last := t.d.hws.last
      let t := t.onHws fun h => { h with sent := h.sent.put p (sent.drop (i + 1)), retries := h.retries.put p 0 }
      let waits (q : Nat) : Bool := (t.d.hws.sent.at q).any fun k => k.entry != 0 && decide (k.entry ≤ last)
      if last ≠ 0 ∧ t.is HWS_STAT_RESYNC ∧ !waits 0 ∧ !waits 1 ∧ !t.d.hws.queue.any (fun e => decide (e.seq < last)) then
        ((t.onHws fun h => { h with last := 0 }).wr HWS_STAT_RESYNC 0).hwsRaise HWS_STAT_RSDONE
      else t

/-- ROCE_RETRANSMIT (R470, R477): 16 µs without an acknowledgement send every waiting packet again; after 7 retries the port is
down, and a waiting mirror entry breaks the stream. -/
def execRoceRetransmit (port : Fin 2) (s : State) : Host.Outcome State Fault Refusal :=
  s.does fun t =>
    let p := port.val
    match t.d.hws.sent.at p with
    | [] => t
    | k :: ks =>
      if t.now < k.sent + 16000 then t
      else if 7 ≤ t.d.hws.retries.at p then
        let t := t.hwsDown p
        if (t.d.hws.sent.at p).any fun x => x.entry != 0 then t.mirBreak else t
      else
        let t := t.onHws fun h => { h with
          retries := h.retries.put p (h.retries.at p + 1), sent := h.sent.put p ((k :: ks).map fun x => { x with sent := t.now }) }
        (t.inc HWS_CNT0_RETRY).each (k :: ks) fun t x => t.send "HAWSER" x.kind (p :: x.psn :: x.bytes.map (·.toNat))

/-- MACSEC_DISCARD (R470): the frame is dropped and counted. -/
def execMacsecDiscard (port : Fin 2) (s : State) : Host.Outcome State Fault Refusal :=
  s.does fun t => t.when (t.powered domFAB && t.portUp port.val) (·.inc HWS_CNT0_MACDROP)

/-- A write of queue pair `q` at `va` (R472); the answer goes back on the port, and a message may follow. -/
def Tx.rdmaWrite (t : Tx) (p q va : Nat) (bs : List Byte) (msg : Option QpMsg) : Tx :=
  if !t.powered domFAB || !t.portUp p then t
  else match t.vWrite 4 (Config.qpCtx q % 65536) (0x840 + q) va bs with
    | (t, .ok ()) =>
      let t := t.onHws fun h => { h with qp := h.qp ++ msg.toList }
      t.send "HAWSER" "ROCE_ACK" [p, q]
    | (t, .held) => t
    | (t, _) => t.send "HAWSER" "ROCE_NAK" [p, q]

/-- RDMA_WRITE (R494). -/
def execRdmaWrite (port : Fin 2) (q : Fin 64) (va : Nat) (bytes : List Byte) (s : State) : Host.Outcome State Fault Refusal :=
  s.does fun t => t.rdmaWrite port.val q.val va bytes none

/-- RDMA_WRITE_IMMEDIATE (R494): the runtime of the receiver learns that the data are complete. -/
def execRdmaWriteImmediate (port : Fin 2) (q : Fin 64) (va : Nat) (bytes : List Byte) (imm : Word) (s : State) :
    Host.Outcome State Fault Refusal :=
  s.does fun t => t.rdmaWrite port.val q.val va bytes (some ⟨q.val, va, bytes.length, imm.toNat + 1⟩)

/-- SEND (R494): the message goes to the buffer at `va` that the queue pair has posted. -/
def execSend (port : Fin 2) (q : Fin 64) (va : Nat) (bytes : List Byte) (s : State) : Host.Outcome State Fault Refusal :=
  s.does fun t => t.rdmaWrite port.val q.val va bytes (some ⟨q.val, va, bytes.length, 0⟩)

/-! Commands (R477, R492, R497). -/

/-- REARM (R477): copying starts again. -/
def Tx.hwsRearm (t : Tx) : Tx := if t.is HWS_CTL_EN then t.set1 HWS_STAT_MIRON else t.set1 HWS_STAT_CMDREF

/-- RESYNC (R477): the enabled TX windows, in ascending order of address. -/
def Tx.hwsResync (t : Tx) : Tx :=
  if !t.is HWS_STAT_MIRON || t.is HWS_STAT_RESYNC then t.set1 HWS_STAT_CMDREF
  else
    let ws := (List.range 16).filter fun w => t.is (HWS_WCFG_EN w) && t.is (HWS_WCFG_TX w) && decide (t.rd (HWS_WBASE_ADDR w) ≤ t.rd (HWS_WLIM_ADDR w))
    let runs := (ws.map fun w => (t.rd (HWS_WBASE_ADDR w) * 4096, (t.rd (HWS_WLIM_ADDR w) + 1 - t.rd (HWS_WBASE_ADDR w)) * 64)).mergeSort fun a b => decide (a.1 ≤ b.1)
    if runs.isEmpty then t.hwsRaise HWS_STAT_RSDONE
    else ((t.onHws fun h => { h with resync := runs, last := 0 }).set1 HWS_STAT_RESYNC).resyncFill

/-- HANDOVER (R492): HANDREQ to the module's Cleats and, through the partner hub, to the partner's. -/
def Tx.hwsHandover (t : Tx) : Tx :=
  let body := leBytes 4 (t.rd HWS_HKEY_KEY) ++ leBytes 4 0
  (t.cleatFrames "PAIR" (pairPayload 2 modid body)).pairPartner 2 body

/-- ASIDE (R492): ASIDEREQ to the module's own Cleats. -/
def Tx.hwsAside (t : Tx) : Tx := t.cleatFrames "PAIR" (pairPayload 3 modid (leBytes 8 0))

/-- DRESUME (R632): refused unless the ring is halted. -/
def Tx.digResume (t : Tx) : Tx :=
  if t.d.hws.halted then t.onHws fun h => { h with halted := false } else t.set1 HWS_STAT_CMDREF

/-- DABORT (R632). -/
def Tx.digAbort (t : Tx) : Tx := (t.onHws fun h => { h with halted := false }).wr HWS_DPTR_HEAD (t.rd HWS_DPTR_DBTAIL)

/-- A write of HWS_CMD (R497). -/
def Tx.writeHwsCmd (t : Tx) (v : Nat) : Tx :=
  match bits v 3 0 with
  | 1 => t.hwsRearm
  | 2 => t.hwsResync
  | 3 => t.hwsHandover
  | 4 => t.hwsAside
  | 5 => t.digResume
  | 6 => t.digAbort
  | 7 => t.snapBlock HWS_CTL
  | _ => t.set1 HWS_STAT_CMDREF

def execRearm (mid : Mid) (s : State) : Host.Outcome State Fault Refusal := s.does fun t => t.swWrite mid.toNat HWS_CMD (·.writeHwsCmd 1)
def execResync (mid : Mid) (s : State) : Host.Outcome State Fault Refusal := s.does fun t => t.swWrite mid.toNat HWS_CMD (·.writeHwsCmd 2)
def execHandover (mid : Mid) (s : State) : Host.Outcome State Fault Refusal := s.does fun t => t.swWrite mid.toNat HWS_CMD (·.writeHwsCmd 3)
def execAside (mid : Mid) (s : State) : Host.Outcome State Fault Refusal := s.does fun t => t.swWrite mid.toNat HWS_CMD (·.writeHwsCmd 4)
def execDresume (mid : Mid) (s : State) : Host.Outcome State Fault Refusal := s.does fun t => t.swWrite mid.toNat HWS_CMD (·.writeHwsCmd 5)
def execDabort (mid : Mid) (s : State) : Host.Outcome State Fault Refusal := s.does fun t => t.swWrite mid.toNat HWS_CMD (·.writeHwsCmd 6)

/-- A write of HWS_CTL: a port that is no longer enabled goes down. -/
def Tx.writeHwsCtl (t : Tx) (v : Nat) : Tx :=
  let t := t.applyAt HWS_CTL v
  t.each (List.range 2) fun t p => if t.is HWS_CTL_EN && bit (t.rd HWS_CTL_PORTEN) p then t else t.hwsDown p

/-- A write of a window's registers (R478): refused while the window is enabled, but for the disable itself. -/
def Tx.writeHwsWindow (t : Tx) (w a v : Nat) : Tx :=
  if !t.is (HWS_WCFG_EN w) then t.applyAt a v
  else if a = HWS_WCFG w ∧ bits v 2 0 + 4 = bits (t.word a) 2 0 then
    (if bit t.d.hws.off w then t else t.onHws fun h => { h with off := h.off + 2 ^ w }).hwsDisable
  else t.set1 HWS_STAT_CMDREF

/-! The digest unit (R485, R499). -/

/-- The log of the ring's size; other values act as 4. -/
def Tx.digLog (t : Tx) : Nat :=
  let l := t.rd HWS_DCFG_LOG2SZ
  if 4 ≤ l ∧ l ≤ 12 then l else 4

/-- A write of HWS_DDB. -/
def Tx.digDoorbell (t : Tx) (v : Nat) : Tx :=
  let n := 2 ^ t.digLog
  let tail := bits v 11 0
  let head := t.rd HWS_DPTR_HEAD
  if tail ≥ n ∨ (tail + n - head) % n < (t.rd HWS_DPTR_DBTAIL + n - head) % n then t.set1 HWS_STAT_CMDREF
  else t.wr HWS_DPTR_DBTAIL tail

def execDigestDoorbell (mid : Mid) (value : Word) (s : State) : Host.Outcome State Fault Refusal :=
  s.does fun t => t.swWrite mid.toNat HWS_DDB (·.digDoorbell value.toNat)

/-- A write of the ring's configuration or bases (R499, R632). -/
def Tx.writeDigSetup (t : Tx) (a v : Nat) : Tx :=
  if t.is HWS_STAT_DHALT then t.set1 HWS_STAT_CMDREF
  else
    let t := t.applyAt a v
    if a = HWS_DRBASE_LO ∨ a = HWS_DRBASE_HI ∨ a = HWS_DCFG then t.setWord HWS_DPTR 0 else t

/-- The unit's identity. -/
def digMid : Nat := 0x150

/-- The hub compares the originals it carries (R485). -/
def Tx.hubDigest (t : Tx) (cls key m : Nat) (hash : List Byte) : Tx :=
  if t.d.hws.digs.any (fun e => e.1 == cls && e.2.1 == key && e.2.2.1 == m) then t
  else
    let other := t.d.hws.digs.find? fun e => e.1 == cls && e.2.1 == key
    let t := t.onHws fun h => { h with digs := h.digs ++ [(cls, key, m, hash)] }
    match other with
    | some e => if e.2.2.2 = hash then t else (t.hwsRaise HWS_STAT_DMISM).inc HWS_CNT1_DMISMCNT
    | none => t

/-- A digest record that the hub carries: only originals without a fault are compared. -/
def Tx.hubCarries (t : Tx) (r : List Byte) : Tx :=
  if fld r 7 1 % 2 = 0 ∧ !bit (fld r 7 1) 2 ∧ r.length = 80 then t.hubDigest (fld r 4 1) (fld r 8 4) (fld r 5 1) ((r.drop 0x28).take 32) else t

/-- STATUS of an access that failed (R485). -/
def digStatus (a : VAns (List Byte)) : Nat :=
  match a with
  | .ok _ => 0
  | .fault cause _ => if cause = 0xB then 3 else 1
  | .poison _ => 2
  | .held => 0

/-- The regions of a job in list order: the bytes read so far, and how it ended; none while an access is held. -/
def Tx.digRegions (t : Tx) (ctx : Nat) (acc : List Byte) : List (Nat × Nat) → Tx × Option (List Byte × Nat)
  | [] => (t, some (acc, 0))
  | (va, len) :: rest =>
    match t.vRead 4 ctx digMid va len with
    | (t, .ok bs) => t.digRegions ctx (acc ++ bs) rest
    | (t, .held) => (t, none)
    | (t, a) => (t, some (acc, digStatus a))

/-- A job is well formed. -/
def digJobOk (j : List Byte) : Bool :=
  let f := fld j
  decide (2 ≤ f 0 1) && decide (f 0 1 ≤ 7) && decide (f 1 1 < 4) && (decide (f 2 1 < 4) || f 2 1 == 0xFF) &&
    decide (1 ≤ f 3 1) && decide (f 3 1 ≤ 32) && (j.drop 0x18).all (· == 0#8)

/-- The record of a job (R485). -/
def digRecord (j hash : List Byte) (now n status : Nat) : List Byte :=
  let f := fld j
  let b := leBytes 4 0x44475331 ++ leBytes 1 (f 0 1) ++ leBytes 1 modid ++ leBytes 1 (f 2 1) ++
    leBytes 1 (f 1 1 % 2 + if status = 0 then 0 else 4) ++ leBytes 4 (f 4 4) ++ leBytes 4 0 ++ leBytes 8 (f 8 8) ++ leBytes 8 now ++
    leBytes 8 n ++ hash ++ leBytes 1 status ++ leBytes 3 0
  b ++ leBytes 4 (crc32c b)

/-- A job ends: its record is written in ring order and sent, and a failure halts the ring with HEAD at it; while the write of the record
is held, the job waits. -/
def Tx.digEnd (t : Tx) (ctx head : Nat) (j bs : List Byte) (status : Nat) : Tx :=
  let (v, t) := if status = 0 then (0, t) else t.fresh 256
  let hash := if status = 0 then sha256 bs else leBytes 32 v
  let r := digRecord j hash t.now bs.length status
  match t.vWrite 4 ctx digMid (sext48 ((t.pair HWS_DCBASE_LO / 128 * 128 + 128 * head) % 2 ^ 48)) r with
  | (_, .held) => t
  | (t, a) =>
    let t := (((t.hubCarries r).cleatFrames "PAIR" (pairPayload 1 modid r)).pairPartner 1 r)
    if status ≠ 0 ∨ !a.isOk then (t.onHws fun h => { h with halted := true }).hwsRaise HWS_STAT_DHALT
    else (t.wr HWS_DPTR_HEAD ((head + 1) % 2 ^ t.digLog)).when (bit (fld j 1 1) 1) (·.irq 47)

/-- DIGEST_JOB (R485): the job at HEAD runs to its end. -/
def execDigestJob (s : State) : Host.Outcome State Fault Refusal :=
  s.does fun t =>
    let head := t.rd HWS_DPTR_HEAD
    let ctx := t.rd HWS_DCFG_DEVCTX
    if !t.powered domFAB || !t.is HWS_CTL_EN || t.d.hws.halted || head = t.rd HWS_DPTR_DBTAIL then t
    else match t.vRead 4 ctx digMid (sext48 ((t.pair HWS_DRBASE_LO / 64 * 64 + 64 * head) % 2 ^ 48)) 64 with
      | (t, .held) => t
      | (t, .ok j) =>
        if !digJobOk j then t.digEnd ctx head j [] 3
        else match t.vRead 4 ctx digMid (fld j 0x10 8) (16 * fld j 3 1) with
          | (t, .held) => t
          | (t, .ok l) =>
            match t.digRegions ctx [] ((List.range (fld j 3 1)).map fun i => (fld l (16 * i) 8, fld l (16 * i + 8) 8)) with
            | (t, some (bs, st)) => t.digEnd ctx head j bs st
            | (t, none) => t
          | (t, a) => t.digEnd ctx head j [] (digStatus a)
      | (t, a) => t.digEnd ctx head (leBytes 64 0) [] (digStatus a)

end Sys2Proof.Machine
end

