-- ==== Sys2Proof/Machine/Geo.lean ====
section
/-! DEFINITION.  Binary32 geometry of the hub's engines (R348, R349, R354, R356, R359): trigonometric table,
angles, vectors and rotations.  A value is its FP32 code. -/

namespace Sys2Proof.Machine

/-- The negation of an FP32 code. -/
def gneg (a : Nat) : Nat := roundF32 (decF32 a).neg

/-- The FP32 code of a quotient of naturals, correctly rounded: 200 bits and a sticky bit decide. -/
def f32Quot (num den : Nat) : Nat :=
  let q := num * 2 ^ 200 / den
  roundF32 (.fin false (2 * q + (if num * 2 ^ 200 % den = 0 then 0 else 1)) (-201))

/-- `round_f32` of an integer. -/
def f32Int (v : Int) : Nat := roundF32 (.ofInt v)

def f32Half : Nat := 0x3F000000
def f32One : Nat := 0x3F800000
/-- dt of R348: 0.001. -/
def f32Dt : Nat := f32Quot 1 1000
/-- G of R348: 9.80665. -/
def f32G : Nat := f32Quot 980665 100000
/-- KB of R348: 2^32 / (2π) rounded. -/
def f32Kb : Nat := 0x4E22F983
def f32Micro : Nat := f32Quot 1 1000000
def f32Nano : Nat := f32Quot 1 1000000000

/-- π · 2^128, cut. -/
def piFix : Nat := 1069028584064966747859680373161870783300

/-- The alternating series of the sine at `th · 2^-128`, `k` terms from the term `term` of order `n` on. -/
def sinSeries (th : Nat) : Nat → Nat → Nat → Int
  | 0, _, _ => 0
  | k + 1, n, term => (term : Int) - sinSeries th k (n + 2) (term * th / 2 ^ 128 * th / 2 ^ 128 / ((n + 1) * (n + 2)))

/-- `ST[j] = round_f32(sin(2π j / 4096))` (R349). -/
def sinTable (j : Nat) : Nat :=
  if j = 0 then 0 else if j = 1024 then 0x3F800000
  else
    let th := piFix * j / 2048
    roundF32 (.fin false (sinSeries th 24 1 th).toNat (-128))

/-- `sin_b` of R349, of an angle in units of 2^-32 turn. -/
def sinB (a : Nat) : Nat :=
  let a : Nat := a % 2 ^ 32
  let q : Nat := a / 2 ^ 30
  let r : Nat := a % 2 ^ 30
  let r : Nat := if q = 1 ∨ q = 3 then 2 ^ 30 - r else r
  let j : Nat := r / 2 ^ 20
  let v := if j = 1024 then sinTable 1024
    else fadd (sinTable j) (fmul (fsub (sinTable (j + 1)) (sinTable j)) (fmul (f32Int ((r % 2 ^ 20 : Nat) : Int)) 0x35800000))
  if 2 ≤ q then gneg v else v

/-- `cos_b` of R349. -/
def cosB (a : Nat) : Nat := sinB (a + 2 ^ 30)

/-- `bam` of R348: an angle in radians as a 32-bit binary angle. -/
def bam (x : Nat) : Nat := (roundInt 32 (decF32 (fmul x f32Kb))).code

/-- `q24` of R348: metres in units of 2^-24 m, as a 64-bit integer. -/
def q24 (m : Nat) : Int := sint 64 (roundInt 64 (decF32 (fmul m 0x4B800000))).code

/-- `round_rne` of an FP32 value to a 64-bit integer. -/
def rneOf (a : Nat) : Int := sint 64 (roundInt 64 (decF32 a)).code

/-! Vectors of three and matrices of three rows. -/

abbrev V3 := List Nat
abbrev M3 := List (List Nat)

def v3add (a b : V3) : V3 := List.zipWith fadd a b
def v3sub (a b : V3) : V3 := List.zipWith fsub a b
def v3mul (a : V3) (k : Nat) : V3 := a.map (fmul · k)

/-- The dot product of R348. -/
def v3dot (p q : V3) : Nat :=
  match List.zipWith fmul p q with
  | [a, b, c] => fadd (fadd a b) c
  | _ => 0

/-- A matrix times a vector. -/
def m3v (m : M3) (v : V3) : V3 := m.map fun r => v3dot r v

/-- The transpose. -/
def m3t (m : M3) : M3 := (List.range 3).map fun i => m.map fun r => r.getD i 0

/-- A matrix product, elementwise as R348 gives. -/
def m3mul (a b : M3) : M3 :=
  let cols := m3t b
  a.map fun r => cols.map fun c => v3dot r c

/-- `rot(a, b, c) = (Rz(a) × Ry(b)) × Rx(c)` (R356). -/
def rot (a b c : Nat) : M3 :=
  let rz : M3 := [[cosB a, gneg (sinB a), 0], [sinB a, cosB a, 0], [0, 0, f32One]]
  let ry : M3 := [[cosB b, 0, sinB b], [0, f32One, 0], [gneg (sinB b), 0, cosB b]]
  let rx : M3 := [[f32One, 0, 0], [0, cosB c, gneg (sinB c)], [0, sinB c, cosB c]]
  m3mul (m3mul rz ry) rx

/-- `ubam` of R359: µdeg to a binary angle, exact. -/
def ubam (udeg : Int) : Nat := (rneDiv (udeg * 2 ^ 32) 360000000 % 2 ^ 32).toNat

/-- C of a calibration set (R359). -/
def calRot (a : List Int) : M3 := rot (ubam (a.getD 2 0)) (ubam (a.getD 1 0)) (ubam (a.getD 0 0))
/-- tcal of a calibration set (R359). -/
def calTrn (a : List Int) : V3 := (List.range 3).map fun i => fmul (f32Int (a.getD (3 + i) 0)) f32Micro

end Sys2Proof.Machine
end

