-- ==== Sys2Proof/Machine/Ingest.lean ====
section
/-! DEFINITION.  The sensor ingest: streams and their table (R337), the ports (R338 to R341, R641), records and
rings (R342 to R346). -/

namespace Sys2Proof.Machine

/-- The ingest's identity. -/
def ingMid : Nat := 0x120

/-- A change of the ingest's state. -/
def Tx.onIng (t : Tx) (f : Ing → Ing) : Tx := { t with d := { t.d with ing := f t.d.ing } }

/-- The descriptor of stream `k` while the table is held. -/
def Tx.stream (t : Tx) (k : Nat) : List Byte := t.d.ing.table.getD k []

/-- The streams of a type whose descriptor satisfies `p`. -/
def Tx.streams (t : Tx) (typ : Nat) (p : List Byte → Bool) : List Nat :=
  (List.range 64).filter fun k => fld (t.stream k) 0 1 == typ && p (t.stream k)

/-! The stream table. -/

/-- A range holds zeros. -/
def zeroed (s : List Byte) (o n : Nat) : Bool := fld s o n == 0

/-- A descriptor's fields are in range, as its type gives them (R337). -/
def streamOk (k : Nat) (s : List Byte) : Bool :=
  let f := fld s
  let typ := f 0 1
  crc32c (s.take 0x3C) == f 0x3C 4 && decide (typ ≤ 5) &&
  (typ == 0 || (decide (f 2 1 < 64) && decide (f 3 1 < 64) && decide (f 4 4 ≤ 50000000) && zeroed s 0x24 0x18)) &&
  (if k = 63 then typ == 0 || typ == 5 else typ != 5) &&
  (match typ with
  | 1 => decide (f 1 1 < 16) && decide (f 8 1 < 4) && decide (1 ≤ f 10 1) && decide (f 10 1 ≤ 64) &&
      (f 11 1 == 1 || f 11 1 == 2 || f 11 1 == 4) && zeroed s 0x10 0x14
  | 2 => decide (f 1 1 < 8) && decide (f 8 1 < 2) && decide (f 9 1 < 8) && decide (1 ≤ f 14 2) && decide (f 14 2 ≤ 1024) &&
      decide (f 0x1C 1 ≤ 20) && decide (f 0x1D 1 ≤ 8) && (f 0x1E 1 == 2 || f 0x1E 1 == 4) && zeroed s 0x1F 1 && zeroed s 0x22 2
  | 3 => decide (f 1 1 < 2) && decide (1 ≤ f 8 1) && decide (f 8 1 ≤ 4) && decide (1 ≤ f 9 1) && decide (f 9 1 ≤ 32) &&
      (f 10 1 == 0 || f 10 1 == 3) && decide (1 ≤ f 11 1) && decide (f 11 1 ≤ 20) && decide (f 0x16 1 < 4) && zeroed s 0x19 3
  | 4 => decide (f 1 1 < 4) && decide (f 0x10 2 < 512) && decide (f 0x12 1 ≤ 32) && decide (f 0x13 1 < 4) &&
      (let r := f 0x14 1; r == 0 || (decide (0x10 ≤ r) && decide (r < 0x1C)) || r == 0x20 || r == 0x21) &&
      zeroed s 0x16 2 && zeroed s 0x20 4
  | 5 => zeroed s 1 1 && zeroed s 3 1 && zeroed s 4 4 && zeroed s 8 0x34
  | _ => true)

/-- Two enabled descriptors match the same input (R337). -/
def streamsMeet (a b : List Byte) : Bool :=
  let f := fld a
  let g := fld b
  f 0 1 == g 0 1 && f 1 1 == g 1 1 &&
  (match f 0 1 with
  | 1 => f 8 1 == g 8 1 && f 9 1 == g 9 1
  | 2 => f 10 2 == g 10 2 && f 9 1 % 2 == g 9 1 % 2
  | 3 => true
  | 4 => bit (f 8 4) 31 == bit (g 8 4) 31 && (f 8 4 ^^^ g 8 4) &&& (f 12 4 &&& g 12 4) &&& 0x1FFFFFFF == 0
  | _ => false)

/-- The table is accepted (R337). -/
def tableOk (tab : List (List Byte)) : Bool :=
  (List.range 64).all (fun k => streamOk k (tab.getD k [])) &&
  (List.range 64).all fun i => (List.range i).all fun j => !streamsMeet (tab.getD i []) (tab.getD j [])

/-- A write of ING_CTL (R337): setting EN reads and checks the stream table; clearing it stops the streams. -/
def Tx.writeIngCtl (t : Tx) (v : Nat) : Tx :=
  let was := t.is ING_CTL_EN
  let t := t.wr ING_CTL_EN (bits v 0 0)
  if bit v 0 && !was then
    match t.physRead ingMid (t.pair ING_STBASE_LO) 4096 with
    | .ok bs =>
      let tab := (List.range 64).map fun k => (bs.drop (64 * k)).take 64
      if tableOk tab then (t.onIng fun g => { g with table := tab, group := [], start := [], imu := [] }).wr ING_STAT_RUN 1
      else (t.set1 ING_STAT_CFGERR).irq 34
    | _ => (t.set1 ING_STAT_CFGERR).irq 34
  else if !bit v 0 then (t.onIng fun g => { g with table := [], group := [], start := [], imu := [] }).wr ING_STAT_RUN 0
  else t

def execIngEnable (mid : Mid) (value : Word) (s : State) : Host.Outcome State Fault Refusal :=
  s.does fun t => t.swWrite mid.toNat ING_CTL (·.writeIngCtl value.toNat)

/-! Rings. -/

/-- Slots of a ring, as a logarithm; other values act as 4 (R369). -/
def Tx.ringN (t : Tx) (r : Nat) : Nat :=
  let l := t.rd (ING_RCFG_LOG2N r)
  if l = 15 ∨ (4 ≤ l ∧ l ≤ 15) then l else 4
/-- Bytes of a slot, as a logarithm; other values act as 6. -/
def Tx.ringSlot (t : Tx) (r : Nat) : Nat :=
  let l := t.rd (ING_RCFG_LOG2SLOT r)
  if 6 ≤ l ∧ l ≤ 20 then l else 6
/-- The virtual address of the slot of index `i`. -/
def Tx.ringVa (t : Tx) (r i : Nat) : Nat := sext48 (t.pair (ING_RBASE_LO r) + i % 2 ^ t.ringN r * 2 ^ t.ringSlot r)
/-- Records held, WR − RD. -/
def Tx.ringHeld (t : Tx) (r : Nat) : Nat := (t.rd (ING_RPTR_WR r) + 65536 - t.rd (ING_RCONS_RD r)) % 65536
/-- The fill available to a take, WR − TK. -/
def Tx.ringFill (t : Tx) (r : Nat) : Nat := (t.rd (ING_RPTR_WR r) + 65536 - t.rd (ING_RPTR_TK r)) % 65536

/-- The watermark after the held count has changed from `was` (R346). -/
def Tx.ringMark (t : Tx) (r was : Nat) : Tx :=
  let m := t.rd (ING_WM_MARK r)
  let held := t.ringHeld r
  let t := t.wr (ING_WM_ABOVE r) (if m ≤ held then 1 else 0)
  let cross (t : Tx) (f : FRef) : Tx := ((t.set1 f).inc (ING_WMCNT_XCNT r)).when (t.is (ING_RCFG_WMIE r)) (·.irq (64 + r))
  if was < m ∧ m ≤ held then cross t (ING_WM_XUP r) else if m ≤ was ∧ held < m then cross t (ING_WM_XDOWN r) else t

/-- A take delivers `n` records (R345). -/
def Tx.deliver (t : Tx) (r n : Nat) : Tx :=
  let tk := t.rd (ING_RPTR_TK r)
  let t := ((t.wr (ING_TAKEFIRST_FIRST r) tk).wr (ING_TAKEST_N r) n).set1 (ING_TAKEST_DONE r)
  let t := (t.wr (ING_TAKEST_PEND r) 0).wr (ING_RPTR_TK r) ((tk + n) % 65536)
  (t.onIng fun g => { g with take := g.take.put r none }).irq (64 + r)

/-- A take that waits is delivered once its records are there. -/
def Tx.tryTake (t : Tx) (r : Nat) : Tx :=
  match t.d.ing.take.at r with
  | some (b, _) => if b ≤ t.ringFill r then t.deliver r b else t
  | none => t

/-- A record of stream `k` completes (R342 to R344): written to the next slot of the stream's ring, cut to it,
or dropped and counted when the ring is full or its slot cannot be written.  `flags` are those of the port. -/
def Tx.record (t : Tx) (k stamp flags count aux : Nat) (payload : List Byte) : Tx :=
  let r := fld (t.stream k) 2 1
  let seq := t.d.ing.seq.at k
  let t := t.onIng fun g => { g with seq := g.seq.put k ((seq + 1) % 2 ^ 32) }
  let drop (t : Tx) : Tx :=
    ((t.inc (ING_DROP_DROPCNT r)).onIng fun g => { g with gap := g.gap.put k true }).when (t.is (ING_RCFG_RT r)) (·.notice 0x0E [r])
  let held := t.ringHeld r
  if 2 ^ t.ringN r ≤ held then drop t
  else
    let room := 2 ^ t.ringSlot r - 32
    let cut := payload.take room
    let flags := flags ||| (if room < payload.length then 32 else 0) ||| (if t.d.ing.gap.at k then 8 else 0)
    let head := leBytes 8 stamp ++ leBytes 4 seq ++ leBytes 2 k ++ leBytes 2 flags ++ leBytes 4 cut.length ++
      leBytes 2 count ++ leBytes 2 0 ++ leBytes 8 aux
    match t.vWrite 4 (t.rd ING_DEVCTX_DEVCTX) ingMid (t.ringVa r (t.rd (ING_RPTR_WR r))) (head ++ cut) with
    | (t, .ok ()) =>
      let t := t.onIng fun g => { g with gap := g.gap.put k false }
      ((t.wr (ING_RPTR_WR r) ((t.rd (ING_RPTR_WR r) + 1) % 65536)).ringMark r held).tryTake r
    | (t, _) => drop t

/-- A write of ING_TAKE (R345). -/
def Tx.writeTake (t : Tx) (r v : Nat) : Tx :=
  let b := bits v 15 0
  if (t.d.ing.take.at r).isSome ∨ b = 0 ∨ 32768 < b then t.set1 ING_STAT_CMDREF
  else if b ≤ t.ringFill r then t.deliver r b
  else if t.rd (ING_RCFG_FLUSH r) = 0 then t.deliver r (min b (t.ringFill r))
  else (t.wr (ING_TAKEST_PEND r) 1).onIng fun g => { g with take := g.take.put r (some (b, t.now)) }

def execIngTake (mid : Mid) (r : Fin 64) (value : Word) (s : State) : Host.Outcome State Fault Refusal :=
  s.does fun t => t.swWrite mid.toNat (ING_TAKE r) (·.writeTake r value.toNat)

/-- TAKE_FLUSH (R345): FLUSH µs after it was posted, a take delivers what is there. -/
def execTakeFlush (r : Fin 64) (s : State) : Host.Outcome State Fault Refusal :=
  s.does fun t =>
    match t.d.ing.take.at r with
    | some (b, at_) =>
      if at_ + t.rd (ING_RCFG_FLUSH r) * 1000 ≤ t.now then t.deliver r (min b (t.ringFill r)) else t
    | none => t

/-- A write of ING_RCONS (R343): slots up to the value are released; outside RD to TK it is refused. -/
def Tx.writeRcons (t : Tx) (r v : Nat) : Tx :=
  let rd := t.rd (ING_RCONS_RD r)
  let v := bits v 15 0
  let held := t.ringHeld r
  if (v + 65536 - rd) % 65536 ≤ (t.rd (ING_RPTR_TK r) + 65536 - rd) % 65536 then (t.wr (ING_RCONS_RD r) v).ringMark r held
  else t.set1 ING_STAT_CMDREF

def execRconsWrite (mid : Mid) (r : Fin 64) (value : Word) (s : State) : Host.Outcome State Fault Refusal :=
  s.does fun t => t.swWrite mid.toNat (ING_RCONS r) (·.writeRcons r value.toNat)

/-- A write of ING_WM: MARK and the stickies; ABOVE is live. -/
def Tx.writeWm (t : Tx) (r v : Nat) : Tx :=
  let t := t.applyAt (ING_WM r) v
  t.wr (ING_WM_ABOVE r) (if t.rd (ING_WM_MARK r) ≤ t.ringHeld r then 1 else 0)

/-- A write of ING_RCFG or ING_RBASE: refused while RUN is 1; accepted, it clears the ring's indices (R369,
R632). -/
def Tx.writeRing (t : Tx) (r a v : Nat) : Tx :=
  if t.is ING_STAT_RUN then t.set1 ING_STAT_CMDREF
  else
    let t := ((t.applyAt a v).setWord (ING_RPTR r) 0).setWord (ING_RCONS r) 0
    (t.onIng fun g => { g with take := g.take.put r none }).wr (ING_TAKEST_PEND r) 0

/-! Ports. -/

/-- The recorded stamp: the captured time less the stream's OFFSET (R333). -/
def Tx.stampOf (t : Tx) (k captured : Nat) : Nat := captured - fld (t.stream k) 4 4

/-- A line group is written and the next one begins (R338). -/
def Tx.closeGroup (t : Tx) (k : Nat) (short : Bool) : Tx :=
  let g := t.d.ing.group.at k
  let t := t.onIng fun x => { x with group := x.group.put k {} }
  let flags := (if g.crcerr then 1 else 0) + (if short || g.short then 2 else 0) + (if g.trunc then 32 else 0) +
    (if g.fs.isSome then 64 else 0)
  t.record k g.stamp flags g.count (g.fs.getD 0) g.lines

/-- CSI2_LONG_PACKET (R338): a line of a matched stream is stored as received; an uncorrectable header drops its
packet and leaves the group short; an unmatched packet is discarded and counted. -/
def execCsi2LongPacket (port : Fin 16) (vc : Fin 4) (dt : BitVec 8) (data : List Byte) (header : Ecc) (crcOk : Bool) (s : State) :
    Host.Outcome State Fault Refusal :=
  s.does fun t =>
    if !t.is ING_STAT_RUN then t
    else match (t.streams 1 fun d => fld d 1 1 == port.val && fld d 8 1 == vc.val && fld d 9 1 == dt.toNat).head? with
      | none => t.onIng fun g => { g with discard := g.discard.upd port (· + 1) }
      | some k =>
        if header = .uncorrectable then t.onIng fun x => { x with group := x.group.upd k fun g => { g with short := true } }
        else
          let d := t.stream k
          let max := fld d 12 4
          let g := t.d.ing.group.at k
          let key := port.val * 4 + vc.val
          let g := if g.count = 0 then { g with stamp := t.stampOf k t.now, fs := t.d.ing.start.at (64 * k + key) } else g
          let t := t.onIng fun x => { x with start := x.start.put (64 * k + key) none }
          let g := { g with lines := g.lines ++ data.take max, count := g.count + 1, crcerr := g.crcerr || !crcOk, trunc := g.trunc || decide (max < data.length) }
          let t := t.onIng fun x => { x with group := x.group.put k g }
          t.when (decide (fld d 10 1 ≤ g.count)) (·.closeGroup k false)

/-- The CSI streams of a port and channel. -/
def Tx.csiStreams (t : Tx) (port vc : Nat) : List Nat := t.streams 1 fun d => fld d 1 1 == port && fld d 8 1 == vc

/-- FRAME_START (R338): its stamp goes with the next group of each stream of the channel. -/
def execFrameStart (port : Fin 16) (vc : Fin 4) (s : State) : Host.Outcome State Fault Refusal :=
  s.does fun t => t.when (t.is ING_STAT_RUN) fun t =>
    t.each (t.csiStreams port vc) fun t k =>
      t.onIng fun x => { x with start := x.start.put (64 * k + (port.val * 4 + vc.val)) (some (t.stampOf k t.now)) }

/-- FRAME_END (R338): a group under way is written short. -/
def execFrameEnd (port : Fin 16) (vc : Fin 4) (s : State) : Host.Outcome State Fault Refusal :=
  s.does fun t => t.when (t.is ING_STAT_RUN) fun t =>
    t.each (t.csiStreams port vc) fun t k => t.when (decide (0 < (t.d.ing.group.at k).count)) (·.closeGroup k true)

/-- A coordinate of a lidar point: the raw value rounded to FP32, times 2^−SCL (R339). -/
def lidarCoord (d payload : List Byte) (o : Nat) : Nat :=
  let n := if bit (fld d 9 1) 2 then 4 else 2
  let raw := if bit (fld d 9 1) 1 then fldBE payload o n else fld payload o n
  roundF32 ((decF32 (f32Int (sint (8 * n) raw))).scale (-(fld d 0x1C 1 : Int)))

/-- The entry of point `p`, or none where it lies beyond the payload or its DT is too large (R339). -/
def lidarPoint (d payload : List Byte) (p : Nat) : Option (List Byte) :=
  let f := fld d
  let base := f 12 2 + p * f 0x10 2
  let n := if bit (f 9 1) 2 then 4 else 2
  let dtw := f 0x1E 1
  let dtoff := f 0x18 2
  let ioff := f 0x1A 2
  let ends := [f 0x12 2 + n, f 0x14 2 + n, f 0x16 2 + n] ++ (if dtoff = 0xFFFF then [] else [dtoff + dtw]) ++
    (if ioff = 0xFFFF then [] else [ioff + 1])
  let dt := if dtoff = 0xFFFF then 0
    else (if bit (f 9 1) 1 then fldBE payload (base + dtoff) dtw else fld payload (base + dtoff) dtw) * 2 ^ f 0x1D 1
  if ends.any (fun e => decide (payload.length < base + e)) ∨ 8388607 < dt then none
  else
    let inten := if ioff = 0xFFFF then 0 else fld payload (base + ioff) 1
    some (leBytes 4 (lidarCoord d payload (base + f 0x12 2)) ++ leBytes 4 (lidarCoord d payload (base + f 0x14 2)) ++
      leBytes 4 (lidarCoord d payload (base + f 0x16 2)) ++ leBytes 4 (dt * 256 + inten))

/-- LIDAR_FRAME (R336, R339): a matching UDP frame is stamped, on arrival or by the sensor's own time, and
converted into a record; a frame without a stream is dropped and counted (R639); a port without a configuration is
disabled (R603). -/
def execLidarFrame (port : EthPort) (ipv6 : Bool) (udpPort : BitVec 16) (checks fragment : Bool) (payload : List Byte) (s : State) :
    Host.Outcome State Fault Refusal :=
  s.does fun t =>
    if !t.is (ETH_PSTAT_CFG port) || !t.is ING_STAT_RUN || !checks || fragment then t
    else match (t.streams 2 fun d => fld d 1 1 == port.val && fld d 10 2 == udpPort.toNat && bit (fld d 9 1) 0 == ipv6).head? with
      | none => t.inc (ETH_PCNT_RXDROP port)
      | some k =>
        let d := t.stream k
        let arrival := t.stampOf k (t.now - t.rd (ING_ETHLAT_LAT port))
        let tsoff := fld d 0x20 2
        let raw := if bit (fld d 9 1) 1 then fldBE payload tsoff 8 else fld payload tsoff 8
        let own : Int := (raw : Int) - sint 64 (t.pair TB_OFS_LO) - fld d 4 4
        let sensor := fld d 8 1 == 1
        let trusted := t.is TB_STAT_LOCKED && decide (tsoff + 8 ≤ payload.length) && decide ((own - arrival).natAbs ≤ 10000000)
        let stamp := if sensor && trusted then own.toNat else arrival
        let pts := (List.range (fld d 14 2)).filterMap (lidarPoint d payload)
        t.record k stamp (if sensor && !trusted then 4 else 0) pts.length (if sensor then raw else 0) pts.flatten

/-- A change of the integrator's state. -/
def Tx.onEgo (t : Tx) (f : Ego → Ego) : Tx := { t with d := { t.d with ego := f t.d.ego } }

/-- A sample stamped in the window of a tick that has run is late (R347). -/
def Tx.late (t : Tx) (stamp : Nat) : Bool := t.is EGO_CTL_EN && decide (stamp + 1000000 ≤ t.d.ego.next * 1000000)

/-- IMU_DATA_READY (R340): an edge starts a read, unless one runs or the last edge was less than 400 µs ago. -/
def execImuDataReady (port : Fin 2) (s : State) : Host.Outcome State Fault Refusal :=
  s.does fun t =>
    match (t.streams 3 fun d => fld d 1 1 == port.val).head? with
    | none => t
    | some k =>
      if !t.is ING_STAT_RUN then t
      else
        let p := t.d.ing.imu.at port
        let busy := p.reading.isSome || (p.edge != 0 && decide (t.now < p.edge - 1 + 400000))
        let p' : ImuPort := ⟨if busy then p.reading else some (t.stampOf k t.now), t.now + 1⟩
        let t := t.onIng fun g => { g with imu := g.imu.put port p' }
        if busy then t.inc ING_OVERRUN_COUNT
        else t.send "SPI" "COMMAND" ([port.val] ++ ((t.stream k).drop 12 |>.take (fld (t.stream k) 8 1)).map (·.toNat))

/-- A channel of an IMU sample (R340). -/
def imuChannel (d data : List Byte) (o scale : Nat) : Nat :=
  let n := if bit (fld d 0x16 1) 0 then 4 else 2
  let raw := if bit (fld d 0x16 1) 1 then fldBE data o n else fld data o n
  fmul (f32Int (sint (8 * n) raw)) scale

/-- SPI_READ_DONE (R340, R347): the six channels become a record and a sample of the integrator. -/
def execSpiReadDone (port : Fin 2) (data : List Byte) (s : State) : Host.Outcome State Fault Refusal :=
  s.does fun t =>
    match (t.streams 3 fun d => fld d 1 1 == port.val).head?, (t.d.ing.imu.at port).reading with
    | some k, some stamp =>
      let d := t.stream k
      let f := fld d
      let t := t.onIng fun g => { g with imu := g.imu.upd port fun p => { p with reading := none } }
      let v := (List.range 3).map (fun i => imuChannel d data (f (0x10 + i) 1) (f 0x1C 4)) ++
        [imuChannel d data (f 0x13 1) (f 0x20 4), imuChannel d data (f 0x14 1) (f 0x20 4), imuChannel d data (f 0x15 1) (f 0x20 4)]
      let bad := f 0x17 1 != 0xFF && (fld data (f 0x17 1) 1 &&& f 0x18 1) != 0
      let t := t.record k stamp (if bad then 16 else 0) 1 0 (v.flatMap (leBytes 4))
      if bad then t
      else if t.late stamp then t.inc ING_LATE_COUNT
      else t.onEgo fun e => { e with samples := e.samples ++ [⟨port, stamp, v⟩] }
    | _, _ => t

/-- Bit `i` of a CAN data field (R641). -/
def canBit (data : List Byte) (i : Nat) : Nat := if (data.getD (i / 8) 0).toNat.testBit (i % 8) then 1 else 0

/-- The bit positions a signal takes, in the order `signal` of R641 visits them. -/
def signalBits (motorola : Bool) : Nat → Nat → List Nat
  | 0, _ => []
  | n + 1, p => p :: signalBits motorola n (if motorola then (if p % 8 = 0 then p + 15 else p - 1) else p + 1)

/-- `signal` of R641; none where it needs a bit beyond the data. -/
def canSignal (data : List Byte) (start len sfmt : Nat) : Option Int :=
  let ps := signalBits (bit sfmt 0) len start
  if ps.any fun p => decide (8 * data.length ≤ p) then none
  else
    let raw := if bit sfmt 0 then ps.foldl (fun r p => 2 * r + canBit data p) 0
      else (List.range len).foldl (fun r i => r + canBit data (start + i) * 2 ^ i) 0
    some (if bit sfmt 1 then sint len raw else raw)

/-- CAN_FD_FRAME (R341): a matching frame is recorded, and its signal passed to the integrator under its
role; a port that is not enabled is not on the bus (R618). -/
def execCanFdFrame (port : CanPort) (id : BitVec 29) (ide : Bool) (dlc : Fin 16) (data : List Byte) (s : State) :
    Host.Outcome State Fault Refusal :=
  s.does fun t =>
    let m (d : List Byte) : Bool := fld d 1 1 == port.val && bit (fld d 8 4) 31 == ide &&
      ((id.toNat ^^^ fld d 8 4) &&& fld d 12 4 &&& 0x1FFFFFFF) == 0
    match (t.streams 4 m).head? with
    | none => t
    | some k =>
      if !t.is ING_STAT_RUN || !t.is (CAN_CTL_EN port) then t
      else
        let f := fld (t.stream k)
        let stamp := t.stampOf k t.now
        let t := t.record k stamp 0 data.length (id.toNat + dlc.val * 2 ^ 32) data
        let role := f 0x14 1
        let slot := if role < 0x20 then role - 0x10 else role - 0x14
        if role = 0 ∨ f 0x12 1 = 0 then t
        else match canSignal data (f 0x10 2) (f 0x12 1) (f 0x13 1) with
          | none => t
          | some raw =>
            let v := fadd (fmul (f32Int raw) (f 0x18 4)) (f 0x1C 4)
            if t.late stamp then t.inc ING_LATE_COUNT
            else t.onEgo fun e => { e with sigs := e.sigs.upd slot fun l => ⟨stamp, v, f 0x15 1 == 1⟩ :: l }

end Sys2Proof.Machine
end

