-- ==== Sys2Proof/Machine/CleatCore.lean ====
section
/-! DEFINITION.  A Cleat's own ground: its parameters (R402), its clock and estimate of device time (R407), the vehicle
state (R408), its stop (R422 to R424), its frames to the hub, its events, votes and changes of state (R419 to R421). -/

namespace Sys2Proof.Machine

/-- Cleat `c` (0 for A, 1 for B). -/
def Tx.cl (t : Tx) (c : Nat) : Cleat := t.d.cleat.at c
/-- A change of Cleat `c`. -/
def Tx.onCl (t : Tx) (c : Nat) (f : Cleat → Cleat) : Tx := { t with d := { t.d with cleat := t.d.cleat.upd c f } }
/-- A change of the pair side of Cleat `c`. -/
def Tx.onPair (t : Tx) (c : Nat) (f : Pair → Pair) : Tx := t.onCl c fun x => { x with pair := f x.pair }

def cleatName (c : Nat) : String := if c = 0 then "A" else "B"

/-- The origin of Cleat `c` of this module (R471). -/
def origin (c : Nat) : Nat := 2 * modid + c

/-- The number of a state in records and the mirror (R419). -/
def CSt.code : CSt → Nat
  | .boot => 0
  | .restricted => 1
  | .ready => 2
  | .engaged => 3
  | .stopping => 4
  | .expelled => 5
  | .tripped => 0

/-! The safety parameter block (R402). -/

def Cleat.spbF (x : Cleat) (o n : Nat) : Nat := fld (x.spb.getD []) o n
/-- Parameter `i` of LIMITS, in the order of R410. -/
def Cleat.lim (x : Cleat) (i : Nat) : Int := sint 32 (x.spbF (0x40 + 4 * i) 4)
/-- The footprint, placed as in a plan descriptor (R374). -/
def Cleat.footprint (x : Cleat) : List Byte := List.replicate 0x80 0#8 ++ ((x.spb.getD []).drop 0xC0).take 208
/-- NB of the footprint. -/
def Cleat.nb (x : Cleat) : Nat := x.spbF 0xC0 1
/-- The age budget of class `k` (R413). -/
def Cleat.age (x : Cleat) (k : Nat) : Nat := x.spbF (0x990 + 8 * k) 8
/-- A field of task `i` (R414). -/
def Cleat.taskF (x : Cleat) (i o n : Nat) : Nat := x.spbF (0x9D0 + 32 * i + o) n
/-- A field of CANIN entry `i` (R408). -/
def Cleat.canF (x : Cleat) (i o n : Nat) : Nat := x.spbF (0x19D0 + 32 * i + o) n
def Cleat.dstop (x : Cleat) : Nat := x.spbF 0x1DD0 2
def Cleat.jstop (x : Cleat) : Nat := x.spbF 0x1DD2 2
def Cleat.kstop (x : Cleat) : Nat := x.spbF 0x1DD4 2
/-- MOVEGRACE, in ns. -/
def Cleat.moveGrace (x : Cleat) : Nat := x.spbF 0x1DD6 2 * 1000000

/-- The estimate of device time (R407). -/
def Cleat.est (x : Cleat) : Int :=
  match x.basis with
  | some (dt, ct) => (dt : Int) + x.ct - ct
  | none => x.ct

/-- The Cleat runs. -/
def Cleat.alive (x : Cleat) : Bool := !x.dark && x.st != .tripped

/-- The Cleat works in a pair: its view is not SOLO (R479). -/
def Cleat.paired (x : Cleat) : Bool := x.pair.view != .solo

/-! Frames to the hub, events and the status mirror. -/

/-- A frame of Cleat `c` to the hub (R403). -/
def Tx.clSend (t : Tx) (c : Nat) (kind : String) (payload : List Byte) : Tx :=
  t.send ("HUB-" ++ cleatName c) kind (payload.map (·.toNat))

/-- An event of Cleat `c` for the log, in an EVENT frame (R404, R553, R554). -/
def Tx.clEvent (t : Tx) (c sev code unit arg : Nat) : Tx :=
  let ts := leBytes 8 (t.cl c).est.toNat
  let b := leBytes 1 (2 + c) ++ leBytes 1 sev ++ leBytes 2 (0x700 + code) ++ leBytes 2 unit ++ leBytes 4 arg
  t.clSend c "EVENT" (ts ++ leBytes 6 0 ++ b ++ leBytes 4 (crc32c (ts ++ b)) ++ leBytes 4 0)

/-- FLAGS of the stop record and the mirror (R423). -/
def Cleat.flags (x : Cleat) (old : Bool) : Nat :=
  (if old then 1 else 0) + (if x.paired then 2 else 0) + (if x.st = .expelled then 4 else 0) + (if x.degraded then 8 else 0) +
    (if x.latent then 16 else 0)

/-- The image of the status mirror (R431, R433). -/
def Cleat.image (x : Cleat) : List Byte :=
  let gen := leBytes 4 x.gen
  let tv := (List.range 16).map fun b =>
    BitVec.ofNat 8 ((List.range 8).foldl (fun v i => v + (if (x.tasks.at (8 * b + i)).viol then 2 ^ i else 0)) 0)
  let head := gen ++ leBytes 1 x.st.code ++ leBytes 1 x.reason ++ leBytes 1 (x.flags x.vehLost) ++ leBytes 1 0 ++ leBytes 4 x.seqref ++
    leBytes 4 (fld (x.grid.getD []) 4 4) ++ tv ++ leBytes 4 (x.refuse % 2 ^ 16 + bits x.refuse 23 16 * 2 ^ 16 + bits x.refuse 31 24 * 2 ^ 24) ++
    leBytes 4 (min x.badfrm 0xFFFF + min x.gaps 0xFFFF * 2 ^ 16)
  head ++ leBytes (0x100 - 0x28) 0 ++ ((List.range 64).flatMap fun k => leBytes 4 (x.rsp.at k)) ++ leBytes (0xFFC - 0x200) 0 ++ gen

/-- A STATUS frame of Cleat `c` (R404, R433). -/
def Tx.clStatus (t : Tx) (c : Nat) : Tx :=
  let t := t.onCl c fun x => { x with gen := (x.gen + 1) % 2 ^ 32 }
  t.clSend c "STATUS" (t.cl c).image

/-! The vehicle state (R408). -/

/-- The value of a KIND at the instant `at_`, with its stamp: that of the latest valid frame. -/
def Cleat.valAt (x : Cleat) (kind : Nat) (at_ : Int) : Option (Int × Int) := (x.hist.at kind).find? fun h => decide (h.1 ≤ at_)

/-- PERIOD of the entries of a KIND, in ns: that of the first such entry. -/
def Cleat.period (x : Cleat) (kind : Nat) : Nat :=
  match (List.range 32).find? fun i => x.canF i 5 1 == kind with
  | some i => x.canF i 6 2 * 1000000
  | none => 0

/-- The value of a KIND held at `at_`: its frame is no older than PERIOD + 5 ms. -/
def Cleat.heldAt (x : Cleat) (kind : Nat) (at_ : Int) : Option Int :=
  match x.valAt kind at_ with
  | some (s, v) => if at_ ≤ s + x.period kind + 5000000 then some v else none
  | none => none

/-- The KINDs that must be valid. -/
def Cleat.needs (x : Cleat) : List Nat := if x.nb ≥ 2 then [1, 2, 3] else [1, 2]

/-- The latest value of a KIND, or 0 when none has ever been valid. -/
def Cleat.latest (x : Cleat) (kind : Nat) : Int :=
  match x.hist.at kind with
  | h :: _ => h.2
  | [] => 0

/-- The vehicle state is valid now: every needed KIND has come within its time. -/
def Cleat.vehicleOk (x : Cleat) : Bool :=
  x.needs.all fun k => (List.range 32).any fun i => x.canF i 5 1 == k && (x.canin.at i).last != 0 &&
    decide (x.ct + 1 ≤ (x.canin.at i).last + x.period k + 5000000)

/-- `floor (num / den)`, or an open neighbour where the quotient is not whole (the spec names no rounding). -/
def Tx.inexact (t : Tx) (num : Int) (den : Nat) : Int × Tx :=
  let q := num / (den : Int)
  if num % (den : Int) = 0 then (q, t)
  else
    let (k, t) := t.pick 2
    (q + k, t)

/-! The standing stop (R422). -/

/-- The stopping time in ms and distance in 2^-8 m from speed `v` and acceleration `a` under deceleration `d` and jerk
`j`, all in units of 2^-16, rounded up. -/
def stopProfile (v a d j : Int) : Nat × Nat :=
  let up (num den : Int) : Nat := (-((-num) / den)).toNat
  let rootUp (n : Int) : Int :=
    let r := isqrt n.toNat
    if (r * r : Int) = n then r else r + 1
  if v ≤ 0 ∨ d ≤ 0 ∨ j ≤ 0 then (0, 0)
  else
    let n := a + d
    let p := 2 * j * v + 2 * a * n - n * n
    if p ≤ 0 then
      let x := a * a + 2 * j * v
      (up (1000 * a + rootUp (1000000 * x)) j, up (a * (3 * j * v + a * a) + rootUp (x * x * x)) (768 * j * j))
    else
      (up (1000 * (2 * d * n + p)) (2 * j * d),
        up (24 * j * d * v * n + 12 * d * a * n * n - 4 * d * n * n * n + 3 * p * p) (256 * 24 * j * j * d))

/-- The stop of Cleat `c` computed at the present instant (R422). -/
def Tx.clCompute (t : Tx) (c : Nat) : Tx :=
  let x := t.cl c
  let e := x.est
  let v := x.latest 1
  let (a, t) : Int × Tx := match x.valAt 1 e, x.valAt 1 (e - 100000000) with
    | some (_, v1), some (_, v0) => (10 * (v1 - v0), t)
    | _, _ =>
      let (r, t) := t.fresh 24
      (sint 24 r, t)
  let a := clampI (-(256 * x.dstop : Nat)) (256 * x.lim 3) a
  let (k0, t) := if 2 * 65536 ≤ v then t.inexact (x.latest 2 * 65536) v.toNat else (0, t)
  let (v0, t) := t.inexact v 256
  let (a0, t) := t.inexact a 256
  -- 2^-16 rad to 2^-16 turn: divide by 2π
  let (r1, t) := t.inexact (x.latest 3 * 2 ^ 128) (2 * 1069028584064966747859680373161870783300)
  let (r2, t) := t.inexact (x.latest 4 * 2 ^ 128) (2 * 1069028584064966747859680373161870783300)
  let (ts, ss) := stopProfile v a (256 * x.dstop) (256 * x.jstop)
  t.onCl c fun x => { x with stop := ⟨e, v0, clampI (-(x.kstop : Int)) x.kstop k0, a0, ts, ss, r1, r2, x.vehLost⟩ }

/-- The stop record (R423). -/
def Cleat.record (x : Cleat) (c : Nat) : List Byte :=
  let f := x.stop
  let b := leBytes 1 0x51 ++ leBytes 1 c ++ leBytes 1 x.st.code ++ leBytes 1 (if x.st = .stopping ∨ x.pair.aside then x.stopReason else 0) ++
    leBytes 2 x.counter ++ leBytes 2 (x.flags f.old) ++ leBytes 8 (scode 64 f.t0) ++ leBytes 8 (scode 64 x.est) ++ leBytes 4 (scode 32 f.v0) ++
    leBytes 4 (scode 32 f.k0) ++ leBytes 4 (scode 32 f.a0) ++ leBytes 2 x.dstop ++ leBytes 2 x.jstop ++ leBytes 4 f.tstop ++ leBytes 4 f.sstop ++
    leBytes 2 (scode 16 f.art1) ++ leBytes 2 (scode 16 f.art2) ++ leBytes 4 x.seqref ++ leBytes 4 0
  b ++ leBytes 4 (crc32c b)

/-- The states that publish a stop record (R419). -/
def CSt.publishes : CSt → Bool
  | .restricted | .ready | .engaged | .stopping | .expelled => true
  | .boot | .tripped => false

/-- Cleat `c` publishes its stop record on both CAN FD ports and its SGMII port (R423, R424); module 1 transmits under
each identifier plus 0x10 (R487). -/
def Tx.clPublish (t : Tx) (c : Nat) : Tx :=
  let x := t.cl c
  if !x.st.publishes then t
  else
    let t := if x.st = .stopping then t else t.clCompute c
    let t := t.onCl c fun x => { x with counter := (x.counter + 1) % 65536, published := x.ct + 1 }
    let x := t.cl c
    let r := (x.record c).map (·.toNat)
    let id (o : Nat) : Nat := x.spbF o 4 + 0x10 * modid
    let t := t.send ("CAN-" ++ cleatName c ++ "0") "STOP" (id 0x1DD8 :: r)
    let t := t.send ("CAN-" ++ cleatName c ++ "1") "STOP" (id 0x1DDC :: r)
    t.send ("SGMII-" ++ cleatName c) "STOP" (((((x.spb.getD []).drop 0x1DE0).take 6).map (·.toNat)) ++ [x.spbF 0x1DE6 2, 0x88B6] ++ r)

/-! Relay messages (R481). -/

/-- The relay message of Cleat `c` of this kind and COUNTER. -/
def relayMessage (c kind n : Nat) (body : List Byte) : List Byte :=
  let b := leBytes 1 (origin c) ++ leBytes 1 kind ++ leBytes 2 n ++ leBytes 1 1 ++ leBytes 3 0 ++ body
  b ++ leBytes 4 (crc32c b)

/-- A relay message of Cleat `c` to the Cleats of `dest` (origins). -/
def Tx.clRelay (t : Tx) (c kind : Nat) (dest : List Nat) (body : List Byte) : Tx :=
  let n := (t.cl c).pair.ctr
  let t := t.onPair c fun p => { p with ctr := (n + 1) % 65536 }
  t.each dest fun t d => t.clSend c "RELAY" (leBytes 1 d ++ relayMessage c kind n body)

/-- The origins of the partner module. -/
def partnerOrigins : List Nat := [2 * (1 - modid), 2 * (1 - modid) + 1]
/-- The three other Cleats. -/
def otherOrigins (c : Nat) : List Nat := (2 * modid + (1 - c)) :: partnerOrigins

/-- MODID of the module that drives, in a Cleat's view, or 0xFF for SOLO. -/
def View.code : View → Nat
  | .solo => 0xFF
  | .source => modid
  | .follower => 1 - modid

/-- The body of the STATE message (R481). -/
def Cleat.stateBody (x : Cleat) : List Byte :=
  leBytes 1 x.st.code ++ leBytes 1 x.pair.view.code ++ leBytes 1 ((if x.pair.aside then 1 else 0) + (if x.pair.synced then 2 else 0)) ++
    leBytes 1 x.reason ++ leBytes 4 x.pair.matched

/-- The STATE message of Cleat `c` (R481). -/
def Tx.clState (t : Tx) (c : Nat) : Tx := t.clRelay c 4 (otherOrigins c) (t.cl c).stateBody

/-! Changes of state (R419 to R421). -/

/-- Cleat `c` enters the state `st`: its gate wave starts or stops, and it tells of the change. -/
def Tx.clEnter (t : Tx) (c : Nat) (st : CSt) : Tx :=
  let old := (t.cl c).st
  if old = st then t
  else
    let t := t.onCl c fun x => { x with st := st, outside := if old = .engaged ∨ old = .stopping then x.ct else x.outside }
    let t := if st = .engaged then t.send ("GATE-" ++ cleatName c) "WAVE" [] else if old = .engaged then t.send ("GATE-" ++ cleatName c) "STATIC" [] else t
    let t := t.clStatus c
    if (t.cl c).paired then (t.clState c).clPublish c else t

/-- Cleat `c` enters STOPPING with this fault: the stop is computed once and then held (R422). -/
def Tx.clStopping (t : Tx) (c code : Nat) : Tx :=
  ((t.clCompute c).onCl c fun x => { x with stopReason := code, published := 0, slow := 0 }).clEnter c .stopping

/-- SYNCED clears: twenty equal comparisons in a row set it again (R491). -/
def Pair.unsync (p : Pair) : Pair := { p with synced := false, equalRun := 0 }

/-- Cleat `c` takes a view (R479). -/
def Tx.clView (t : Tx) (c : Nat) (v : View) : Tx :=
  if (t.cl c).pair.view = v then t
  else ((t.onPair c fun p => if v = .solo then { p.unsync with view := v } else { p with view := v }).clStatus c).clState c

/-! Module votes (R427, R490). -/

/-- The module votes that Cleat `c` knows of are counted: three against its own module expel it; three against the other leave it
alone. -/
def Tx.clModuleVotes (t : Tx) (c : Nat) : Tx :=
  let x := t.cl c
  let votes (m : Nat) : Nat := popcount 4 (x.pair.mvotes.at m)
  if 3 ≤ votes modid then (if x.st = .boot then t else t.clEnter c .expelled)
  else if 3 ≤ votes (1 - modid) then t.clView c .solo else t

/-- Cleat `c` votes against module `m`; a module vote is never withdrawn (R490). -/
def Tx.clModuleVote (t : Tx) (c m code : Nat) : Tx :=
  let x := t.cl c
  if bit x.pair.cast m then t
  else
    let p := leBytes 1 1 ++ leBytes 1 m ++ leBytes 1 1 ++ leBytes 1 code ++ leBytes 4 0
    let t := t.onPair c fun q => { q with cast := q.cast + 2 ^ m, mvotes := q.mvotes.upd m fun v => v ||| 2 ^ origin c }
    ((t.clSend c "VOTE" p).clRelay c 1 (otherOrigins c) p).clModuleVotes c

/-- A report of a Cleat of module `m` that it stands aside: three within 600 s are a vote against `m` (R490). -/
def Tx.clAsideReport (t : Tx) (c m : Nat) : Tx :=
  let t := t.onCl c fun x => { x with pair := { x.pair with
    asides := (x.ct, m) :: x.pair.asides.filter fun e => decide (x.ct < e.1 + 600000000000) } }
  if 3 ≤ (((t.cl c).pair.asides).filter fun e => e.2 == m).length then t.clModuleVote c m 0x54 else t

/-- Cleat `c` stands aside (R489) and reports it, its own report counting with the others (R490). -/
def Tx.clAside (t : Tx) (c code : Nat) : Tx :=
  let t := t.onCl c fun x => { x with reason := code, stopReason := code, pair := { x.pair.unsync with aside := true, asideAt := x.ct + 1 } }
  (t.clEnter c .ready).clAsideReport c modid

/-- A fault of Cleat `c` (R420, R488). -/
def Tx.clFault (t : Tx) (c code : Nat) : Tx :=
  let x := t.cl c
  if x.st = .boot ∨ !x.alive then t
  else
    let t := (t.onCl c fun x => { x with reason := code }).clEvent c 3 code 0 0
    if x.st ≠ .engaged then (if x.pair.synced then (t.onPair c Pair.unsync).clState c else t).clStatus c
    else if !(x.paired && x.pair.synced) then t.clStopping c code
    else if code ≤ 0x17 ∨ code = 0x51 then (t.onPair c Pair.unsync).clStopping c code
    else if code = 0x52 ∨ code = 0x53 then
      if x.pair.view = .follower then t.clAside c code
      else (t.onPair c Pair.unsync).clState c
    else if (code = 0x50 ∨ code = 0x54) ∧ x.pair.view = .source then t
    else t.clAside c code

/-- A count of link faults (R403, R405, R406): more than two within 100 ms are the fault 0x33. -/
def Tx.clLinkFault (t : Tx) (c : Nat) (gap : Bool) : Tx :=
  let t := t.onCl c fun x => { x with
    faults := x.ct :: x.faults.filter (fun f => decide (x.ct < f + 100000000))
    gaps := x.gaps + (if gap then 1 else 0), badfrm := x.badfrm + (if gap then 0 else 1) }
  let x := t.cl c
  if x.faults.length > 2 ∧ !x.linkLost then (t.onCl c fun x => { x with linkLost := true }).clFault c 0x33 else t

/-- A violation of task `i` (R414). -/
def Tx.clViolation (t : Tx) (c i : Nat) : Tx :=
  let x := t.cl c
  let t := (t.onCl c fun x => { x with tasks := x.tasks.upd i fun k => { k with viol := true } }).clStatus c
  match x.taskF i 1 1 with
  | 1 => (t.onCl c fun x => { x with degraded := true }).clEvent c 2 0x31 i 0
  | 2 => t.clFault c 0x31
  | _ => t.clEvent c 2 0x31 i 0

/-- Task `i` has met its condition again. -/
def Tx.clGood (t : Tx) (c i : Nat) : Tx := t.onCl c fun x => { x with tasks := x.tasks.upd i fun k => { k with viol := false } }

/-! Votes (R426). -/

/-- Cleat `c` casts its vote against die `n`. -/
def Tx.clVote (t : Tx) (c n code : Nat) : Tx :=
  let x := t.cl c
  if bit x.vote n ∨ bit x.gone n then t
  else
    let p := leBytes 1 0 ++ leBytes 1 n ++ leBytes 1 1 ++ leBytes 1 code ++ leBytes 4 0
    (t.onCl c fun x => { x with vote := x.vote + 2 ^ n }).clSend c "VOTE" p

/-- Evidence against die `n` (R416): three items within 1 s, and none against another die, cast the vote. -/
def Tx.clEvidence (t : Tx) (c n code : Nat) (items : Nat := 1) : Tx :=
  let t := t.onCl c fun x => { x with
    evidence := List.replicate items (x.ct, n) ++ x.evidence.filter fun e => decide (x.ct < e.1 + 1000000000) }
  let x := t.cl c
  if x.evidence.all (fun e => e.2 == n) ∧ 3 ≤ x.evidence.length then t.clVote c n code else t

/-! Becoming ready (R415, R420). -/

/-- No fault stands: the vehicle state is valid, the hub link is up and the gate reports agree. -/
def Cleat.clear (x : Cleat) : Bool := !x.vehLost && !x.linkLost && decide (x.gateBad < 2) && !x.poseBad && !x.envelope

/-- Supervision starts (R415). -/
def Cleat.supervise (x : Cleat) : Cleat :=
  { x with tasks := (List.range 128).foldl (fun ts i =>
      let p := x.taskF i 8 4 * 1000
      match x.taskF i 0 1 with
      | 1 | 3 => ts.put i { due := some (x.ct + p + x.taskF i 12 4 * 1000) }
      | 2 => ts.put i { act := if p = 0 then 0 else ((x.est - (x.taskF i 0x18 4 * 1000 : Nat) + p - 1) / p).toNat }
      | _ => ts) [] }

/-- A booted Cleat leaves BOOT once its SPB is valid, the hub link is up and the vehicle state is valid; its self-test has
passed with the boot. -/
def Tx.clTryReady (t : Tx) (c : Nat) : Tx :=
  let x := t.cl c
  if x.st = .boot ∧ x.alive ∧ x.spb.isSome ∧ x.basis.isSome ∧ !x.linkLost ∧ x.vehicleOk then
    (t.onCl c Cleat.supervise).clEnter c (if x.qualified then .ready else .restricted)
  else t

/-! The pair as a Cleat judges it (R484, R487, R489). -/

/-- Neither partner Cleat has been heard, by either path, for 120 ms. -/
def Cleat.silent (x : Cleat) : Bool :=
  [x.pair.partner.at 0, x.pair.partner.at 1].all fun p => decide (max p.relay p.heard + 120000000 ≤ x.ct + 1)

/-- The partner is not driving (R487): each partner Cleat last reported a STATE other than 3 or ASIDE, or neither has been
heard for 120 ms. -/
def Cleat.notDriving (x : Cleat) : Bool :=
  [x.pair.partner.at 0, x.pair.partner.at 1].all (fun p => decide (0 < max p.relay p.heard) && (p.state != 3 || p.aside)) || x.silent

/-- The partner is cut off (R487): no relay for 30 ms, and a partner Cleat heard in STATE 3 within 60 ms. -/
def Cleat.cutOff (x : Cleat) : Bool :=
  let ps := [x.pair.partner.at 0, x.pair.partner.at 1]
  ps.all (fun p => decide (p.relay + 30000000 ≤ x.ct + 1)) &&
    ps.any fun p => decide (0 < p.heard) && decide (x.ct + 1 ≤ p.heard + 60000000) && p.state == 3

/-- Cleat `c` judges the partner and acts on it (R487, R489). -/
def Tx.clJudge (t : Tx) (c : Nat) : Tx :=
  let x := t.cl c
  if x.pair.aside ∧ x.st = .ready ∧ x.ct < x.pair.asideAt + 1000000000 ∧ x.notDriving then t.clStopping c x.reason
  else if !x.paired then t
  else if x.notDriving ∧ (x.pair.drove ∨ x.silent) then
    ((t.onPair c fun p => { p with drove := false }).onCl c fun x => { x with skipSeq := x.skipSeq || x.pair.view == .follower }).clView c .solo
  else if x.cutOff then (if x.pair.view = .source then t.clView c .solo else t.clFault c 0x54)
  else t

/-- A mismatch of trajectory records that no dispute has been resolved for within 200 ms is a fault (R484). -/
def Tx.clExpire (t : Tx) (c : Nat) : Tx :=
  let x := t.cl c
  if x.pair.mism.any (fun m => decide (m ≤ x.ct)) then
    (t.onPair c fun p => { p with mism := p.mism.filter fun m => decide (x.ct < m) }).clFault c 0x53
  else t

/-- The bytes of a record that are compared: all of it but SEQ, TPUB and CRC (R484). -/
def comparedBytes (r : List Byte) : List Byte := r.take 4 ++ (r.drop 8).take 8 ++ (r.drop 0x18).take 100 ++ r.drop 0x80

/-- The pair is comparable (R484). -/
def comparable (a b : List Byte) : Bool :=
  fld a 0x28 2 &&& 0xB == 0 && fld b 0x28 2 &&& 0xB == 0 && fld a 0x2A 2 == fld b 0x2A 2

/-- A trajectory record of module `m` is matched by PLANID and compared, or waits for its counterpart (R483, R484). -/
def Tx.clCompare (t : Tx) (c m : Nat) (r : List Byte) : Tx :=
  let x := t.cl c
  let plan := fld r 0x2C 4
  if !x.paired then t
  else match x.pair.recs.find? fun e => e.1 == 1 - m && e.2.1 == plan with
    | none =>
      let due := ((x.ct : Int) + (x.age 0 : Nat) - (x.est - (fld r 8 8 : Nat))).toNat
      t.onPair c fun p => { p with recs := p.recs ++ [(m, plan, r, due)] }
    | some e =>
      let t := t.onPair c fun p => { p with recs := p.recs.filter (fun y => !(y.1 == 1 - m && y.2.1 == plan)), unmatched := 0 }
      if !comparable r e.2.2.1 then t.onPair c fun p => { p with uncompared := p.uncompared + 1 }
      else if comparedBytes r = comparedBytes e.2.2.1 then
        let was := x.pair.synced
        let t := t.onPair c fun p => { p with
          matched := (p.matched + 1) % 2 ^ 32, equalRun := p.equalRun + 1, synced := p.synced || decide (20 ≤ p.equalRun + 1) }
        if !was && (t.cl c).pair.synced then t.clState c else t
      else
        let t := t.onPair c fun p => { p with equalRun := 0 }
        if x.pair.resolved.any (fun d => decide (x.ct ≤ d.1 + 200000000)) then t
        else t.onPair c fun p => { p with mism := p.mism ++ [x.ct + 200000000] }

/-! The forms of a Cleat's commands. -/

/-- An event of Cleat `c` at the instant `ct` of its own clock, if the Cleat runs. -/
def clDoes (c ct : Nat) (f : Tx → Tx) (s : State) : Host.Outcome State Fault Refusal :=
  s.does fun t => if (t.cl c).alive then f ((t.onCl c fun x => { x with ct := max x.ct ct }).clExpire c) else t

/-- A frame of the hub reaches Cleat `c` (R403): a gap in LSEQ is a link fault. -/
def clFrame (c ct : Nat) (lseq : Nat) (f : Tx → Tx) (s : State) : Host.Outcome State Fault Refusal :=
  clDoes c ct (fun t =>
    let x := t.cl c
    let t := t.onCl c fun x => { x with lseq := some ((lseq + 1) % 2 ^ 32) }
    f (if x.lseq.isSome ∧ x.lseq ≠ some lseq then t.clLinkFault c true else t)) s

end Sys2Proof.Machine
end

