-- ==== Sys2Proof/Machine/Egomotion.lean ====
section
/-! DEFINITION.  The ego-motion integrator (R347 to R352). -/

namespace Sys2Proof.Machine

/-- A write of EGO_CTL (R348): setting EN zeroes the state; ticks go on from the first not yet due. -/
def Tx.writeEgoCtl (t : Tx) (v : Nat) : Tx :=
  let was := t.is EGO_CTL_EN
  let t := t.wr EGO_CTL_EN (bits v 0 0)
  t.when (bit v 0 && !was) fun t =>
    t.onEgo fun e => { e with
      next := (t.now + 999999 - 2000000) / 1000000, samples := [], sigs := [], poses := [], cur := {}, accel := [0, 0, 0],
      noWheel := 0, noImu := 0, invalid := false }

def execEgoEnable (mid : Mid) (value : Word) (s : State) : Host.Outcome State Fault Refusal :=
  s.does fun t => t.swWrite mid.toNat EGO_CTL (·.writeEgoCtl value.toNat)

/-- A write of EGO_BIASCMD (R352, R370): APPLY starts the read of the bias record; refused while one runs. -/
def Tx.writeBiasCmd (t : Tx) (v : Nat) : Tx :=
  if !bit v 0 then t
  else if t.d.ego.biasRead then t.set1 EGO_STAT_CMDREF
  else t.onEgo fun e => { e with biasRead := true }

def execBiasApply (mid : Mid) (s : State) : Host.Outcome State Fault Refusal :=
  s.does fun t => t.swWrite mid.toNat EGO_BIASCMD (·.writeBiasCmd 1)

/-- BIAS_RECORD_READ (R352): the record is applied from the next tick, or rejected. -/
def execBiasRecordRead (s : State) : Host.Outcome State Fault Refusal :=
  s.does fun t =>
    if !t.d.ego.biasRead then t
    else
      let t := t.onEgo fun e => { e with biasRead := false }
      let bad (t : Tx) : Tx := (t.set1 EGO_STAT_BIASERR).irq 35
      match t.physRead 0x122 (t.pair EGO_BIAS_LO / 128 * 128) 128 with
      | .ok bs =>
        if crc32c (bs.take 0x7C) ≠ fld bs 0x7C 4 then bad t
        else
          let w (o n : Nat) := (List.range n).map fun i => fld bs (o + 4 * i) 4
          (t.onEgo fun e => { e with bias := (List.range 4).map (fun i => w (8 + 12 * i) 3), wc := w 0x38 12 }).setWord
            EGO_BIASSEQ (fld bs 0 4)
      | _ => bad t

/-- A sum by fadd in order. -/
def faddAll : List Nat → Nat
  | [] => 0
  | x :: xs => xs.foldl fadd x

/-- The applied calibration of a sensor. -/
def Tx.calOf (t : Tx) (e : Nat) : List Int := (t.d.aln.cal.getD e {}).a

/-- The mean of IMU `i`'s usable samples, corrected by its biases and turned into the body frame: rates and
accelerations (R348). -/
def Tx.imuMean (t : Tx) (i tk : Nat) : Option (V3 × V3) :=
  let ss := t.d.ego.samples.filter fun s => s.imu == i && decide (tk < s.stamp + 1000000) && decide (s.stamp ≤ tk)
  let ss := ss.mergeSort fun a b => decide (a.stamp ≤ b.stamp)
  if ss.isEmpty then none
  else
    let k := recipF32 (f32Int ss.length)
    let mean (o : Nat) : V3 := (List.range 3).map fun j => fmul (faddAll (ss.map fun s => s.v.getD (o + j) 0)) k
    let m := match (t.streams 3 fun d => fld d 1 1 == i).head? with
      | some st => calRot (t.calOf (fld (t.stream st) 3 1))
      | none => calRot []
    some (m3v m (v3sub (mean 0) (t.d.ego.bias.getD (2 * i) [0, 0, 0])), m3v m (v3sub (mean 3) (t.d.ego.bias.getD (2 * i + 1) [0, 0, 0])))

/-- The signals of a role stamped at or before `tk`, newest first. -/
def Tx.sigsAt (t : Tx) (role tk : Nat) : List Sig :=
  ((t.d.ego.sigs.at role).filter fun s => decide (s.stamp ≤ tk)).mergeSort fun a b => decide (b.stamp ≤ a.stamp)

/-- A signal received within the last 50 ms (R347). -/
def sigValid (tk : Nat) (l : List Sig) : Option Sig :=
  l.head?.filter fun s => decide (tk ≤ s.stamp + 50000000)

/-- An articulation: angle, rate and validity (R348). -/
def articulation (tk : Nat) (l : List Sig) : Nat × Nat × Bool :=
  let valid := (sigValid tk l).isSome
  match l with
  | a :: rest =>
    match rest.find? (·.stamp != a.stamp) with
    | some b => (a.value, fmul (fsub a.value b.value) (recipF32 (fmul (f32Int ((a.stamp : Int) - b.stamp)) f32Nano)), valid)
    | none => (a.value, 0, valid)
  | [] => (0, 0, false)

/-- The pose of tick `k` and the integrator after it (R348, R350, R351). -/
def Tx.egoStep (t : Tx) (k : Nat) : Pose × Ego :=
  let e := t.d.ego
  let tk := k * 1000000
  let i0 := t.imuMean 0 tk
  let i1 := t.imuMean 1 tk
  let imus := i0.isSome || i1.isSome
  let (w, s) := match i0, i1 with
    | some (w0, s0), some (w1, s1) => (v3mul (v3add w0 w1) f32Half, v3mul (v3add s0 s1) f32Half)
    | some x, none => x
    | none, some x => x
    | none, none => (e.cur.w, e.accel)
  let phi := fadd e.cur.phi (fmul (w.getD 0 0) f32Dt)
  let theta := fadd e.cur.theta (fmul (w.getD 1 0) f32Dt)
  let dpsi := fmul (w.getD 2 0) f32Dt
  let alon := fsub (s.getD 0 0) (fmul f32G (sinB (bam theta)))
  let wheel := (List.range 12).filterMap fun i =>
    match sigValid tk (t.sigsAt i tk) with
    | some g => if g.use then some (fmul g.value (fadd f32One (e.wc.getD i 0))) else none
    | none => none
  let wheels := !wheel.isEmpty
  let v := if wheels then fmul (faddAll wheel) (recipF32 (f32Int wheel.length))
    else if imus then fadd e.cur.v (fmul alon f32Dt) else e.cur.v
  let d := fmul v f32Dt
  let mid := (e.cur.psi + bam (fmul dpsi f32Half)) % 2 ^ 32
  let dh := fmul d (cosB (bam theta))
  let noWheel := if imus && !wheels then e.noWheel + 1 else 0
  let noImu := if !imus && wheels then e.noImu + 1 else 0
  let invalid := if imus && wheels then false
    else e.invalid || decide (500 ≤ noWheel) || decide (20 ≤ noImu) || (!imus && !wheels)
  let (a1, r1, v1) := articulation tk (t.sigsAt 12 tk)
  let (a2, r2, v2) := articulation tk (t.sigsAt 13 tk)
  let b (x : Bool) (n : Nat) := if x then 2 ^ n else 0
  let flags := b i0.isSome 0 + b i1.isSome 1 + b wheels 2 + b v1 3 + b v2 4 + b (!imus) 5 + b invalid 6
  let pose : Pose :=
    { t := tk, x := e.cur.x + q24 (fmul dh (cosB mid)), y := e.cur.y + q24 (fmul dh (sinB mid)),
      z := e.cur.z + q24 (fmul d (sinB (bam theta))), psi := (e.cur.psi + bam dpsi) % 2 ^ 32, phi := phi, theta := theta,
      v := v, alon := alon, w := w, art := [a1, a2, r1, r2], flags := flags, k := k }
  (pose, { e with
    next := k + 1, cur := pose, accel := s, poses := (pose :: e.poses).take 1024, noWheel := noWheel, noImu := noImu, invalid := invalid,
    samples := e.samples.filter fun x => decide (tk < x.stamp) })

/-- The 96 bytes of a pose (R350). -/
def Pose.bytes (p : Pose) : List Byte :=
  leBytes 8 p.t ++ leBytes 8 (scode 64 p.x) ++ leBytes 8 (scode 64 p.y) ++ leBytes 8 (scode 64 p.z) ++
    ([p.psi, p.phi, p.theta, p.v, p.alon] ++ p.w ++ p.art ++ [p.flags, p.k % 2 ^ 32]).flatMap (leBytes 4) ++ leBytes 8 0

/-- EGO_TICK (R347, R350, R351): the next tick runs 2 ms after its instant; its pose enters the buffer, is
written as a record of stream 63, and shows in the status; a rise or fall of INVALID is reported. -/
def execEgoTick (s : State) : Host.Outcome State Fault Refusal :=
  s.does fun t =>
    let k := t.d.ego.next
    if !t.is EGO_CTL_EN || decide (t.now < k * 1000000 + 2000000) then t
    else
      let was := t.d.ego.invalid
      let (p, e) := t.egoStep k
      let t := (t.onEgo fun _ => e).setPair EGO_TICK_LO k
      let t := ((t.wr EGO_STAT_IMU0 (bits p.flags 0 0)).wr EGO_STAT_IMU1 (bits p.flags 1 1)).wr EGO_STAT_WHL (bits p.flags 2 2)
      let t := (t.wr EGO_STAT_DR (bits p.flags 5 5)).wr EGO_STAT_INVALID (bits p.flags 6 6)
      let t := if e.invalid && !was then ((t.set1 EGO_STAT_XINV).irq 35).notice 0x0F []
        else if was && !e.invalid then ((t.set1 EGO_STAT_XVAL).irq 35).notice 0x10 [] else t
      t.when (t.is ING_STAT_RUN && fld (t.stream 63) 0 1 == 5) (·.record 63 p.t (if e.invalid then 16 else 0) 1 0 p.bytes)

end Sys2Proof.Machine
end

