-- ==== Sys2Proof/Machine/Align.lean ====
section
/-! DEFINITION.  The alignment engine: job ring (R353, R357, R371, R632), poses at an instant (R354 to R356),
calibration (R359, R360) and the raw occupancy grid (R362 to R365). -/

namespace Sys2Proof.Machine

/-- The engine's identity. -/
def alnMid : Nat := 0x121

/-- A change of the engine's state. -/
def Tx.onAln (t : Tx) (f : Aln → Aln) : Tx := { t with d := { t.d with aln := f t.d.aln } }

/-- The log of the job ring's size; other values act as 4. -/
def Tx.alnLog (t : Tx) : Nat :=
  let l := t.rd ALN_CFG_LOG2SZ
  if 4 ≤ l ∧ l ≤ 12 then l else 4

/-- A write of ALN_DB (R353, R632). -/
def Tx.alnDoorbell (t : Tx) (v : Nat) : Tx :=
  let n := 2 ^ t.alnLog
  let tail := bits v 11 0
  let head := t.rd ALN_PTR_HEAD
  if tail ≥ n ∨ (tail + n - head) % n < (t.rd ALN_PTR_DBTAIL + n - head) % n then t.set1 ALN_STAT_CMDREF
  else t.wr ALN_PTR_DBTAIL tail

def execAlnDoorbell (mid : Mid) (value : Word) (s : State) : Host.Outcome State Fault Refusal :=
  s.does fun t => t.swWrite mid.toNat ALN_DB (·.alnDoorbell value.toNat)

/-- A write of ALN_CMD (R357, R632): RESUME of a ring that is not halted is refused; ABORT empties the ring. -/
def Tx.writeAlnCmd (t : Tx) (v : Nat) : Tx :=
  match bits v 3 0 with
  | 1 => if t.d.aln.halted then t.onAln fun a => { a with halted := false } else t.set1 ALN_STAT_CMDREF
  | 2 => (t.onAln fun a => { a with halted := false }).wr ALN_PTR_HEAD (t.rd ALN_PTR_DBTAIL)
  | _ => t.set1 ALN_STAT_CMDREF

def execAlnResume (mid : Mid) (s : State) : Host.Outcome State Fault Refusal :=
  s.does fun t => t.swWrite mid.toNat ALN_CMD (·.writeAlnCmd 1)
def execAlnAbort (mid : Mid) (s : State) : Host.Outcome State Fault Refusal :=
  s.does fun t => t.swWrite mid.toNat ALN_CMD (·.writeAlnCmd 2)

/-- A write of ALN_CFG or of a base: refused while a job executes or HALT is set; a ring base or size sets the
indices to 0 (R371, R632). -/
def Tx.writeAlnSetup (t : Tx) (a v : Nat) : Tx :=
  if t.is ALN_STAT_BUSY ∨ t.is ALN_STAT_HALT ∨ t.d.aln.halted then t.set1 ALN_STAT_CMDREF
  else
    let t := t.applyAt a v
    if a = ALN_CBASE_LO ∨ a = ALN_CBASE_HI then t else t.setWord ALN_PTR 0

/-! Calibration. -/

/-- An entry of the calibration table as read: nominal set and limits (R359). -/
def calEntry (bs : List Byte) : Cal :=
  let n := (List.range 6).map fun i => sint 32 (fld bs (4 * i) 4)
  { n := n, a := n, tgt := n, lrot := fld bs 0x18 4, ltrn := fld bs 0x1C 4 }

/-- A write of ALN_CTL (R359): setting EN reads the calibration table when the engine holds none. -/
def Tx.writeAlnCtl (t : Tx) (v : Nat) : Tx :=
  let was := t.is ALN_CTL_EN
  let t := t.wr ALN_CTL_EN (bits v 0 0)
  if bit v 0 && !was && t.d.aln.cal.isEmpty then
    let fail (t : Tx) : Tx := ((t.onAln fun a => { a with failed := true }).set1 ALN_STAT_CFGERR).irq 36
    match t.physRead alnMid (t.pair ALN_CALBASE_LO / 2048 * 2048) 2048 with
    | .ok bs =>
      let tab := (List.range 64).map fun e => calEntry ((bs.drop (32 * e)).take 32)
      if tab.any fun c => decide (5000000 < c.lrot) || decide (100000 < c.ltrn) then fail t
      else t.onAln fun a => { a with cal := tab, calseq := 0, failed := false }
    | _ => fail t
  else t.when (!bit v 0) (·.onAln fun a => { a with failed := false })

def execAlnEnable (mid : Mid) (value : Word) (s : State) : Host.Outcome State Fault Refusal :=
  s.does fun t => t.swWrite mid.toNat ALN_CTL (·.writeAlnCtl value.toNat)

/-- The limit of axis `x`: LROT for an angle, LTRN for a translation. -/
def Cal.lim (c : Cal) (x : Nat) : Int := if x < 3 then c.lrot else c.ltrn

/-- One calibration step of a sensor (R360). -/
def Cal.step (c : Cal) : Cal :=
  { c with a := (List.range 6).map fun x =>
      let st : Int := if x < 3 then 50 else 1
      let a := c.a.getD x 0
      let n := c.n.getD x 0
      clampI (n - c.lim x) (n + c.lim x) (a + clampI (-st) st (c.tgt.getD x 0 - a)) }

/-- CAL_STEP (R360): at a multiple of 1 ms the applied sets move toward their targets; a change advances
CALSEQ. -/
def execCalStep (s : State) : Host.Outcome State Fault Refusal :=
  s.does fun t =>
    if !t.is ALN_CTL_EN || t.d.aln.cal.isEmpty || t.now % 1000000 != 0 || t.d.aln.stepped == t.now + 1 then t
    else
      let cal := t.d.aln.cal.map Cal.step
      t.onAln fun a => { a with cal := cal, stepped := t.now + 1, calseq := if cal = a.cal then a.calseq else a.calseq + 1 }

/-! Jobs. -/

/-- How a job ends: STATUS, NSTALE, NOUT, TOLD (R357); or an access of it is held, and the job with it (R20). -/
structure JobEnd where
  status : Nat := 0
  nstale : Nat := 0
  nout : Nat := 0
  told : Nat := 0
  held : Bool := false

/-- The end of a job by STATUS `st` of a failed access, 0 naming one that is held. -/
def JobEnd.fail (st : Nat) : JobEnd := { status := st, held := st == 0 }

/-- STATUS of a failed access. -/
def VAns.status {α : Type} : VAns α → Nat
  | .ok _ => 0
  | .fault c _ => if c = 0xB then 3 else 1
  | .poison _ => 2
  | .held => 0

/-- The device context of the job ring. -/
def Tx.alnCtx (t : Tx) : Nat := t.rd ALN_CFG_DEVCTX

/-- A job descriptor's fields (R353). -/
abbrev Job := List Byte

/-- The descriptor is well formed for its operation (R353, R360). -/
def jobOk (j : Job) : Bool :=
  let f := fld j
  decide (1 ≤ f 0 1) && decide (f 0 1 ≤ 4) && decide (f 1 1 < 4) && f 0x31 15 == 0 &&
  (match f 0 1 with
  | 1 | 2 => decide (f 2 2 < 64)
  | 3 => decide (1 ≤ f 0x18 4) && decide (f 0x18 4 ≤ 64) && (decF32 (f 0x28 4)).lt (decF32 (f 0x2C 4)) &&
      decide (1 ≤ f 0x30 1) && decide (f 0x30 1 ≤ 15)
  | _ => decide (f 2 2 < 64))

/-- What `pose_at` answers besides the pose. -/
inductive PoseSt where
  | interp | extrap | stale
  deriving DecidableEq, Repr

/-- INVALID stands in a pose. -/
def Pose.inv (p : Pose) : Bool := bit p.flags 6

/-- `pose_at` of R354 over a buffer, newest first; the last answer tells whether an INVALID pose made it
stale. -/
def poseAt (ps : List Pose) (tm : Nat) : Pose × PoseSt × Bool :=
  match ps.head?, ps.getLast? with
  | some pn, some po =>
    if tm < po.t then ({}, .stale, false)
    else if tm ≤ pn.t then
      match ps.find? fun p => decide (p.t ≤ tm) && decide (tm < p.t + 1000000) with
      | none => ({}, .stale, false)
      | some p0 =>
        let p1 := if tm = pn.t then pn else (ps.find? fun p => p.t == p0.t + 1000000).getD pn
        let p0 := if tm = pn.t then pn else p0
        let f := fmul (f32Int ((tm - p0.t : Nat) : Int)) f32Micro
        let lin (a b : Int) : Int := a + rneOf (fmul (f32Int (b - a)) f)
        let mix (a b : Nat) : Nat := fadd a (fmul (fsub b a) f)
        let p : Pose := { p0 with
          x := lin p0.x p1.x, y := lin p0.y p1.y, z := lin p0.z p1.z,
          psi := ((p0.psi : Int) + rneOf (fmul (f32Int (sint 32 ((p1.psi + 2 ^ 32 - p0.psi) % 2 ^ 32))) f)).toNat % 2 ^ 32,
          phi := mix p0.phi p1.phi, theta := mix p0.theta p1.theta, v := mix p0.v p1.v, alon := mix p0.alon p1.alon,
          w := List.zipWith mix p0.w p1.w, art := List.zipWith mix p0.art p1.art }
        if p0.inv || p1.inv then (p, .stale, true) else (p, .interp, false)
    else
      let hn := tm - pn.t
      if 20000000 < hn then ({}, .stale, false)
      else
        let h := fmul (f32Int hn) f32Nano
        let sd := fadd (fmul pn.v h) (fmul (fmul f32Half pn.alon) (fmul h h))
        let dpsi := fmul (pn.w.getD 2 0) h
        let mid := (pn.psi + bam (fmul dpsi f32Half)) % 2 ^ 32
        let sh := fmul sd (cosB (bam pn.theta))
        let p : Pose := { pn with
          x := pn.x + q24 (fmul sh (cosB mid)), y := pn.y + q24 (fmul sh (sinB mid)), z := pn.z + q24 (fmul sd (sinB (bam pn.theta))),
          psi := (pn.psi + bam dpsi) % 2 ^ 32 }
        if pn.inv then (p, .stale, true) else (p, .extrap, false)
  | _, _ => ({}, .stale, false)

/-- M(t) of R356. -/
def Pose.mat (p : Pose) : M3 := rot p.psi (bam p.theta) (bam p.phi)

/-- d of R356. -/
def poseDelta (a b : Pose) : V3 :=
  [a.x - b.x, a.y - b.y, a.z - b.z].map fun v => fmul (f32Int v) 0x33800000

/-- Flags of a sample: bit 0 STALE, bit 1 EXTRAP, bit 2 TUNC, bit 3 POSEINV (R355, R356). -/
def sampleFlags (s c : PoseSt) (inv tunc : Bool) : Nat :=
  let stale := s = .stale ∨ c = .stale
  (if stale then 1 else 0) + (if ¬stale ∧ (s = .extrap ∨ c = .extrap) then 2 else 0) + (if tunc then 4 else 0) +
    (if stale ∧ inv then 8 else 0)

/-- A stale coordinate. -/
def staleNan : Nat := 0x7FC00000

/-- The records a job reads from its source ring, header and payload; or how the read failed. -/
def Tx.readRecords (t : Tx) (r first : Nat) : Nat → Tx × Except Nat (List (List Byte))
  | 0 => (t, .ok [])
  | n + 1 =>
    match t.vRead 4 (t.rd ING_DEVCTX_DEVCTX) alnMid (t.ringVa r first) (2 ^ t.ringSlot r) with
    | (t, .ok bs) =>
      match t.readRecords r (first + 1) n with
      | (t, .ok rest) => (t, .ok (bs :: rest))
      | x => x
    | (t, a) => (t, .error a.status)

/-- The sensor of a record, by the stream it names. -/
def Tx.sensorOf (t : Tx) (rec : List Byte) : Nat := fld (t.stream (fld rec 12 2)) 3 1

/-- A point of a record as POINTS writes it (R355, R356), with its time unless it is stale. -/
def Tx.alignPoint (t : Tx) (tc : Nat) (rec : List Byte) (i : Nat) : List Byte × Option Nat :=
  let o := 32 + 16 * i
  let w := fld rec (o + 12) 4
  let ts := ((fld rec 0 8 : Int) + sint 24 (w / 256)).toNat
  let (ps, ss, si) := poseAt t.d.ego.poses ts
  let (pc, sc, ci) := poseAt t.d.ego.poses tc
  let sensor := t.sensorOf rec
  let cal := t.calOf sensor
  let fl := sampleFlags ss sc (si || ci) (bit (fld rec 14 2) 2)
  let p := [fld rec o 4, fld rec (o + 4) 4, fld rec (o + 8) 4]
  let xyz := if bit fl 0 then [staleNan, staleNan, staleNan]
    else m3v (m3t pc.mat) (v3add (m3v ps.mat (v3add (m3v (calRot cal) p) (calTrn cal))) (poseDelta ps pc))
  (xyz.flatMap (leBytes 4) ++ leBytes 1 (w % 256) ++ leBytes 1 sensor ++ leBytes 2 fl, if bit fl 0 then none else some ts)

/-- The least of some times; 0 of none. -/
def earliest (ts : List Nat) : Nat :=
  match ts with
  | [] => 0
  | x :: xs => xs.foldl min x

/-- A job's output is written at DST. -/
def Tx.jobWrite (t : Tx) (va : Nat) (bs : List Byte) (e : JobEnd) : Tx × JobEnd :=
  match t.vWrite 4 t.alnCtx alnMid va bs with
  | (t, .ok ()) => (t, e)
  | (t, a) => (t, .fail a.status)

/-- POINTS (R356). -/
def Tx.jobPoints (t : Tx) (j : Job) : Tx × JobEnd :=
  match t.readRecords (fld j 2 2) (fld j 4 4) (fld j 0x18 4) with
  | (t, .error st) => (t, .fail st)
  | (t, .ok recs) =>
    let tc := fld j 8 8
    let pts := recs.flatMap fun r => (List.range (min (fld r 0x14 2) (fld r 0x10 4 / 16))).map fun i => t.alignPoint tc r i
    let told := earliest (pts.filterMap (·.2))
    let stale := (pts.filter (·.2.isNone)).length
    if fld j 0x1C 4 < 32 + 16 * pts.length then (t, { status := 5 })
    else
      let head := leBytes 8 tc ++ leBytes 8 told ++ leBytes 4 pts.length ++ leBytes 4 stale ++ leBytes 4 t.d.aln.calseq ++ leBytes 4 0
      t.jobWrite (fld j 0x10 8) (head ++ pts.flatMap (·.1)) { nstale := stale, nout := pts.length, told := told }

/-- CAMXF (R356): the transform of a line group. -/
def Tx.alignGroup (t : Tx) (tc : Nat) (rec : List Byte) : List Byte × Bool :=
  let ts := fld rec 0 8
  let (ps, ss, si) := poseAt t.d.ego.poses ts
  let (pc, sc, ci) := poseAt t.d.ego.poses tc
  let cal := t.calOf (t.sensorOf rec)
  let fl := sampleFlags ss sc (si || ci) (bit (fld rec 14 2) 2)
  let mt := m3t pc.mat
  let r := m3mul (m3mul mt ps.mat) (calRot cal)
  let v := m3v mt (v3add (m3v ps.mat (calTrn cal)) (poseDelta ps pc))
  let rows := (List.zipWith (fun a b => a ++ [b]) r v).flatten
  let rows := if bit fl 0 then List.replicate 12 staleNan else rows
  (leBytes 4 (fld rec 8 4) ++ leBytes 2 fl ++ leBytes 2 0 ++ leBytes 8 ts ++ rows.flatMap (leBytes 4), bit fl 0)

def Tx.jobCamxf (t : Tx) (j : Job) : Tx × JobEnd :=
  match t.readRecords (fld j 2 2) (fld j 4 4) (fld j 0x18 4) with
  | (t, .error st) => (t, .fail st)
  | (t, .ok recs) =>
    let es := recs.map (t.alignGroup (fld j 8 8))
    if fld j 0x1C 4 < 64 * es.length then (t, { status := 5 })
    else t.jobWrite (fld j 0x10 8) (es.flatMap (·.1)) { nstale := (es.filter (·.2)).length, nout := es.length }

/-- CALSET (R360): the target record's values, clamped into N ± L, become the sensor's target. -/
def Tx.jobCalset (t : Tx) (j : Job) : Tx × JobEnd :=
  match t.vRead 4 t.alnCtx alnMid (fld j 0x20 8) 32 with
  | (t, .ok bs) =>
    let e := fld j 2 2
    if crc32c (bs.take 0x1C) ≠ fld bs 0x1C 4 ∨ fld bs 0 2 ≠ e ∨ 64 ≤ e ∨ fld bs 2 2 ≠ 0 then (t, { status := 3 })
    else
      let c := t.d.aln.cal.getD e {}
      let want := (List.range 6).map fun x => sint 32 (fld bs (4 + 4 * x) 4)
      let got := (List.range 6).map fun x => clampI (c.n.getD x 0 - c.lim x) (c.n.getD x 0 + c.lim x) (want.getD x 0)
      let hit := decide (got ≠ want)
      let t := t.onAln fun a => { a with cal := a.cal.set e { c with tgt := got, hit := c.hit || hit } }
      (t.when hit fun t => ((t.set1 ALN_STAT_LIMHIT).irq 36).notice 0x11 [e], {})
  | (t, a) => (t, .fail a.status)

/-! The grid. -/

/-- `floor((x + off) / 0.25)` of an FP32 value, exactly; none where it is not finite (R362). -/
def cellOf (x : Nat) (off : Int) : Option Int :=
  match decF32 x with
  | .fin s m e =>
    let v : Int := if s then -(m : Int) else m
    some (if 0 ≤ e then (v * 2 ^ e.toNat + off) * 4 else (v + off * 2 ^ (-e).toNat) * 4 / 2 ^ (-e).toNat)
  | _ => none

/-- Cell (i, j) lies in the grid. -/
def inGrid (i j : Int) : Bool := decide (0 ≤ i) && decide (i < 512) && decide (0 ≤ j) && decide (j < 512)
/-- Its number. -/
def cellNo (i j : Int) : Nat := (i * 512 + j).toNat

/-- The cells a ray marks (R363). -/
def rayCells (i0 j0 i1 j1 : Int) : List Nat :=
  let di := i1 - i0
  let dj := j1 - j0
  let n : Int := max di.natAbs dj.natAbs
  ((List.range (min n.toNat 256)).drop 1).filterMap fun m =>
    let i := i0 + (2 * di * m + n) / (2 * n)
    let j := j0 + (2 * dj * m + n) / (2 * n)
    if inGrid i j then some (cellNo i j) else none

/-- What one used point adds: hits, free cells (R362). -/
def gridPoint (origin p : V3) (zlo zhi : Nat) : List Nat × List Nat :=
  match cellOf (p.getD 0 0) 32, cellOf (p.getD 1 0) 64, cellOf (origin.getD 0 0) 32, cellOf (origin.getD 1 0) 64 with
  | some i, some j, some i0, some j0 =>
    let z := decF32 (p.getD 2 0)
    let own := if inGrid i j then [cellNo i j] else []
    if (decF32 zhi).lt z then ([], [])
    else if z.lt (decF32 zlo) then ([], own ++ rayCells i0 j0 i j)
    else (own, rayCells i0 j0 i j)
  | _, _, _, _ => ([], [])

/-- A point of a buffer is used: not stale, finite, its sensor below 64 (R362). -/
def pointUsed (b : List Byte) : Bool :=
  !bit (fld b 14 2) 0 && decide (fld b 13 1 < 64) &&
    [0, 4, 8].all fun o => match decF32 (fld b o 4) with
      | .fin _ _ _ => true
      | _ => false

/-- A byte of the cells: four states (R364). -/
def gridByte (hits free : List Nat) (occmin c : Nat) : Byte :=
  let st (c : Nat) : Nat := if occmin ≤ min 15 (hits.count c) then 2 else if free.contains c then 1 else 0
  BitVec.ofNat 8 ((List.range 4).foldl (fun v i => v + st (c + i) * 4 ^ i) 0)

/-- The buffers of a GRID job, header and entries; or how it failed (6: another TC). -/
def Tx.gridBuffers (t : Tx) (list tc : Nat) : Nat → Tx × Except Nat (List (List Byte))
  | 0 => (t, .ok [])
  | n + 1 =>
    match t.vRead 4 t.alnCtx alnMid list 16 with
    | (t, .ok e) =>
      if fld e 8 8 ≠ 0 then (t, .error 3)
      else match t.vRead 4 t.alnCtx alnMid (fld e 0 8) 32 with
        | (t, .ok h) =>
          if fld h 0 8 ≠ tc then (t, .error 6)
          else match t.vRead 4 t.alnCtx alnMid (fld e 0 8) (32 + 16 * fld h 0x10 4) with
            | (t, .ok b) =>
              match t.gridBuffers (list + 16) tc n with
              | (t, .ok rest) => (t, .ok (b :: rest))
              | x => x
            | (t, a) => (t, .error a.status)
        | (t, a) => (t, .error a.status)
    | (t, a) => (t, .error a.status)

/-- The grid record of a job over its buffers (R364). -/
def Tx.gridRecord (t : Tx) (j : Job) (bufs : List (List Byte)) : List Byte × Nat × Nat :=
  let pts := bufs.flatMap fun b => (List.range (fld b 0x10 4)).map fun i => (b.drop (32 + 16 * i)).take 16
  let used := pts.filter pointUsed
  let marks := used.map fun p =>
    gridPoint (calTrn (t.calOf (fld p 13 1))) [fld p 0 4, fld p 4 4, fld p 8 4] (fld j 0x28 4) (fld j 0x2C 4)
  let hits := marks.flatMap (·.1)
  let free := marks.flatMap (·.2)
  let told := earliest (bufs.map fun b => fld b 8 8)
  let stale := pts.length - used.length
  let head (crc : Nat) := leBytes 4 0x4F434731 ++ leBytes 4 (t.rd ALN_GSEQ_SEQ + 1) ++ leBytes 8 (fld j 8 8) ++ leBytes 8 told ++
    leBytes 4 used.length ++ leBytes 4 stale ++ leBytes 4 t.d.aln.calseq ++ leBytes 4 0 ++ leBytes 8 t.now ++
    leBytes 4 (fld j 0x28 4) ++ leBytes 4 (fld j 0x2C 4) ++ leBytes 1 (fld j 0x30 1) ++ leBytes 3 0 ++ leBytes 4 crc
  let cells := (List.range 65536).map fun b => gridByte hits free (fld j 0x30 1) (4 * b)
  let cal := (List.range 64).flatMap fun e =>
    let c := t.d.aln.cal.getD e {}
    leBytes 2 e ++ leBytes 2 (if c.hit then 1 else 0) ++ ((List.range 6).flatMap fun x => leBytes 4 (scode 32 (c.a.getD x 0))) ++ leBytes 4 0
  (head (crc32c (head 0 ++ cells ++ cal)) ++ cells ++ cal, stale, told)

/-- GRID (R362 to R365): the record goes to memory and to both Cleats. -/
def Tx.jobGrid (t : Tx) (j : Job) : Tx × JobEnd :=
  match t.gridBuffers (fld j 0x20 8) (fld j 8 8) (fld j 0x18 4) with
  | (t, .error st) => (t, .fail st)
  | (t, .ok bufs) =>
    let (rec, stale, told) := t.gridRecord j bufs
    let t := (t.setWord ALN_GSEQ (t.rd ALN_GSEQ_SEQ + 1)).onAln fun a => { a with cal := a.cal.map fun c => { c with hit := false } }
    let t := t.cleatFrames "GRID" rec
    t.jobWrite (sext48 (t.pair ALN_GRID_LO / 64 * 64)) rec { nstale := stale, nout := 1, told := told }

/-- The job at HEAD, when the engine runs and its ring is not halted. -/
def Tx.jobAtHead (t : Tx) : Bool :=
  t.is ALN_CTL_EN && !t.d.aln.cal.isEmpty && !t.d.aln.failed && !t.d.aln.halted && t.rd ALN_PTR_HEAD != t.rd ALN_PTR_DBTAIL

/-- The completion of the job at HEAD (R357): its record; HEAD advances, or the ring halts at it; none while the record is held. -/
def Tx.jobDone (t : Tx) (irq : Bool) (e : JobEnd) : Option Tx :=
  let head := t.rd ALN_PTR_HEAD
  let rec_ := leBytes 1 e.status ++ leBytes 1 0 ++ leBytes 2 (min e.nstale 65535) ++ leBytes 4 e.nout ++ leBytes 8 e.told
  match t.vWrite 4 t.alnCtx alnMid (sext48 (t.pair ALN_CBASE_LO / 64 * 64 + head * 16)) rec_ with
  | (t, a) =>
    if a.isHeld then none
    else if e.status ≠ 0 ∨ !a.isOk then some (((t.onAln fun a => { a with halted := true }).set1 ALN_STAT_HALT).irq 36)
    else some ((t.wr ALN_PTR_HEAD ((head + 1) % 2 ^ t.alnLog)).when irq (·.irq 36))

/-- The engine executes the job at HEAD when its operation is `op`; a descriptor that cannot be read or is
malformed ends at once; nothing happens while an access is held. -/
def Tx.job (t : Tx) (op : Nat) (f : Tx → Job → Tx × JobEnd) : Tx :=
  if !t.jobAtHead then t
  else match t.vRead 4 t.alnCtx alnMid (sext48 (t.pair ALN_RBASE_LO / 64 * 64 + t.rd ALN_PTR_HEAD * 64)) 64 with
    | (_, .held) => t
    | (u, .ok j) =>
      if !jobOk j then (u.jobDone false { status := 3 }).getD t
      else if fld j 0 1 ≠ op then t
      else match f u j with
        | (v, e) => if e.held then t else (v.jobDone (bit (fld j 1 1) 0) e).getD t
    | (u, a) => (u.jobDone false { status := a.status }).getD t

def execPoints (s : State) : Host.Outcome State Fault Refusal := s.does fun t => t.job 1 Tx.jobPoints
def execCamxf (s : State) : Host.Outcome State Fault Refusal := s.does fun t => t.job 2 Tx.jobCamxf
def execGrid (s : State) : Host.Outcome State Fault Refusal := s.does fun t => t.job 3 Tx.jobGrid
def execCalset (s : State) : Host.Outcome State Fault Refusal := s.does fun t => t.job 4 Tx.jobCalset

end Sys2Proof.Machine
end

