-- ==== Sys2Proof/Machine/Trajectory.lean ====
section
/-! DEFINITION.  The trajectory engine: inputs (R374 to R376, R379, R382), rollout and checks (R377 to R383), cost
(R384, R385), waves and reverse index (R386), deltas and repair (R387, R388), deadline (R389), publication and
faults (R390 to R394). -/

namespace Sys2Proof.Machine

/-- The engine's identity (R372). -/
def trjMid : Nat := 0x130

/-- A signed field of a byte list. -/
def sfld (bs : List Byte) (o n : Nat) : Int := sint (8 * n) (fld bs o n)

/-! The plan descriptor (R374). -/

/-- A square root's sum with others, in units of 2^-160: exact enough for R379, since a sum of three roots of
32-bit numbers that is not an integer differs from every integer by more than 2^-130. -/
def root160 (n : Nat) : Nat := isqrt (n * 2 ^ 320)

/-- The squared length of a vector of two 16-bit fields. -/
def sqLen (d : List Byte) (o : Nat) : Nat := (sfld d o 2 * sfld d o 2 + sfld d (o + 2) 2 * sfld d (o + 2) 2).toNat

/-- The discs of body `b`. -/
def planDiscs (d : List Byte) (b : Nat) : List Nat :=
  (List.range (if b < fld d 0x80 1 then fld d (0x81 + b) 1 else 0)).map fun k => 0x90 + (8 * b + k) * 8

/-- The reach of every disc is at most 2,048 units (R379). -/
def reachOk (d : List Byte) : Bool :=
  (List.range 3).all fun b => (planDiscs d b).all fun o =>
    let hitches := (if 1 ≤ b then root160 (sqLen d 0x84) else 0) + (if b = 2 then root160 (sqLen d 0x88) else 0)
    decide (hitches + root160 (sqLen d o) + fld d (o + 4) 2 * 2 ^ 160 ≤ 2048 * 2 ^ 160)

/-- The footprint fields hold together (R374). -/
def footprintOk (d : List Byte) : Bool :=
  let nb := fld d 0x80 1
  decide (1 ≤ nb) && decide (nb ≤ 3) &&
  (List.range 3).all (fun b =>
    let nd := fld d (0x81 + b) 1
    (if b < nb then decide (1 ≤ nd) && decide (nd ≤ 8) else nd == 0) &&
    (List.range 8).all fun k =>
      let o := 0x90 + (8 * b + k) * 8
      if b < nb ∧ k < nd then fld d (o + 6) 2 == 0 else fld d o 8 == 0) &&
  (decide (3 ≤ nb) || fld d 0x88 4 == 0) && (decide (2 ≤ nb) || fld d 0x84 4 == 0)

/-- The descriptor is valid (R374, R379). -/
def planOk (d : List Byte) : Bool :=
  let f := fld d
  crc32c (d.take 0x17C) == f 0x17C 4 && f 0x40 8 % 64 == 0 &&
  decide (1 ≤ f 0x48 2) && decide (f 0x48 2 ≤ 16384) && decide (1 ≤ f 0x4A 2) && decide (f 0x4A 2 ≤ 256) &&
  decide (1 ≤ f 0x4C 2) && decide (f 0x4C 2 ≤ 1024) && decide (f 0x4E 2 ≤ 256) &&
  decide (1000 ≤ f 0x50 4) && decide (f 0x50 4 ≤ 100000) && decide (100 ≤ f 0x54 2) && decide (f 0x54 2 ≤ 5000) &&
  decide (f 0x56 1 < 4) && f 0x57 1 == 0 && f 0x8C 4 == 0 && f 0x150 44 == 0 && footprintOk d && reachOk d

/-! A cycle's fields. -/

def Cycle.d (c : Cycle) : List Byte := c.desc.getD []
def Cycle.ncand (c : Cycle) : Nat := fld c.d 0x48 2
def Cycle.nd (c : Cycle) : Nat := ((List.range 3).map fun b => (planDiscs c.d b).length).foldl (· + ·) 0
/-- STOP (R389), in sixths of a nanosecond. -/
def Cycle.stop (c : Cycle) : Nat := 6 * (c.start + fld c.d 0x50 4 * 1000 - fld c.d 0x54 2 * 1000)
/-- CW (R386). -/
def Cycle.cw (c : Cycle) : Nat := 2048 + 64 * c.nd * (40 + fld c.d 0x4E 2)
def Cycle.ndone (c : Cycle) : Nat := (c.results.filter (·.2.isSome)).length
def Cycle.path (c : Cycle) (p : Nat) : List Byte := (c.paths.drop (8256 * p)).take 8256
def Cycle.pathOf (c : Cycle) (k : Nat) : Nat := fld c.cands (4 * k) 2
def Cycle.profOf (c : Cycle) (k : Nat) : Nat := fld c.cands (4 * k + 2) 2

/-- STATE of TRJ_STAT (R397). -/
def TrjAct.state : TrjAct → Nat
  | .load => 1
  | .publish _ => 3
  | _ => 2

/-! Rolling out a candidate. -/

/-- A pose on a path. -/
structure Smp where
  x : Int
  y : Int
  psi : Nat
  art1 : Int
  art2 : Int
  kappa : Int

/-- The pose of a path at a station (R377); none beyond its end. -/
def poseOn (p : List Byte) (sigma : Nat) : Option Smp :=
  let k := sigma / 128
  let f : Int := (sigma % 128 : Nat)
  let nst := fld p 0 2
  if nst - 1 < k ∨ (k = nst - 1 ∧ 0 < f) then none
  else
    let at_ (j o n : Nat) : Int := sfld p (64 + 16 * j + o) n
    let lin (o n : Nat) : Int := if f = 0 then at_ k o n else at_ k o n + ((at_ (k + 1) o n - at_ k o n) * f + 64) / 128
    let ang (o : Nat) : Int :=
      if f = 0 then at_ k o 2 else at_ k o 2 + (sint 16 (scode 16 (at_ (k + 1) o 2 - at_ k o 2)) * f + 64) / 128
    some ⟨lin 0 4, lin 4 4, scode 16 (ang 8), ang 10, ang 12, lin 14 2⟩

/-- SN[j] (R378). -/
def snTable (j : Nat) : Int :=
  if j = 0 then 0 else if j = 4096 then 2 ^ 30
  else
    let th := piFix * j / 8192
    rneDiv (sinSeries th 24 1 th) (2 ^ 98)

def sn (a : Nat) : Int :=
  let q := a % 65536 / 0x4000
  let r := a % 0x4000
  let v := snTable ((if q = 1 ∨ q = 3 then 0x4000 - r else r) / 4)
  if 2 ≤ q then -v else v

def cs (a : Nat) : Int := sn (a + 0x4000)

/-- `pt` of R378. -/
def planPt (b : Int × Int) (psi : Nat) (dx dy : Int) : Int × Int :=
  (b.1 + (dx * cs psi - dy * sn psi + 2 ^ 29) / 2 ^ 30, b.2 + (dx * sn psi + dy * cs psi + 2 ^ 29) / 2 ^ 30)

/-- The vehicle's discs at a pose: centre and r' (R378). -/
def discsAt (d : List Byte) (s : Smp) : List (Int × Int × Int) :=
  let psi1 := scode 16 (s.psi + s.art1)
  let b1 := planPt (s.x, s.y) s.psi (sfld d 0x84 2) (sfld d 0x86 2)
  let b2 := planPt b1 psi1 (sfld d 0x88 2) (sfld d 0x8A 2)
  ([((s.x, s.y), s.psi, 0), (b1, psi1, 1), (b2, scode 16 (psi1 + s.art2), 2)]).flatMap fun (b, psi, n) =>
    (planDiscs d n).map fun o =>
      let p := planPt b psi (sfld d o 2) (sfld d (o + 2) 2)
      (p.1, p.2, (fld d (o + 4) 2 : Int) + 2)

/-! The grid (R380, R381). -/

/-- The state of cell `n` of a grid. -/
def gridCell (g : List Byte) (n : Nat) : Nat := bits (g.getD (n / 4) 0#8).toNat (2 * (n % 4) + 1) (2 * (n % 4))
/-- A cell state counts as occupied. -/
def occState (unk : Bool) (st : Nat) : Bool := st == 2 || (unk && (st == 0 || st == 3))
/-- UNKOCC of a cycle. -/
def Cycle.unk (c : Cycle) : Bool := bit (fld c.d 0x56 1) 0

/-- The occupied cells. -/
def occupied (unk : Bool) (g : List Byte) : List Nat :=
  (List.range 262144).filter fun n => occState unk (gridCell g n)

/-- E(i, j) (R380). -/
def fieldE (occ : List Nat) (i j : Nat) : Nat :=
  match occ.map fun n => (n / 512 - i) ^ 2 + (i - n / 512) ^ 2 + (n % 512 - j) ^ 2 + (j - n % 512) ^ 2 with
  | [] => 0xFFFF
  | x :: xs => isqrt (256 * xs.foldl min x)

/-- The lookup cell of a centre, when it is inside (R381). -/
def lookup (cx cy : Int) : Option (Nat × Nat) :=
  let i := (cx + 2048) / 16
  let j := (cy + 4096) / 16
  if inGrid i j then some (i.toNat, j.toNat) else none

/-- g of every inside disc (R381). -/
def discGaps (occ : List Nat) (ds : List (Int × Int × Int)) : List Int :=
  ds.filterMap fun (x, y, r) => (lookup x y).map fun (i, j) => (fieldE occ i j : Int) - 23 - r

/-- The least of some integers. -/
def leastI : List Int → Option Int
  | [] => none
  | x :: xs => some (xs.foldl min x)

/-! Objects (R382). -/

/-- The present discs of active objects at sample `s`: centre, radius with margin. -/
def objDiscs (objs : List Byte) (n s : Nat) : List (Int × Int × Int) :=
  (List.range n).filterMap fun o =>
    let e := 576 * o + 64 + 8 * s
    if bit (fld objs (576 * o + 6) 2) 0 ∧ bit (fld objs (e + 6) 2) 0 then
      some (sfld objs e 2, sfld objs (e + 2) 2, (fld objs (e + 4) 2 + fld objs (576 * o + 4) 2 : Nat))
    else none

/-- Every pair's squared distance and contact distance. -/
def pairs (ds os : List (Int × Int × Int)) : List (Int × Int) :=
  ds.flatMap fun (x, y, r) => os.map fun (ox, oy, ro) => ((x - ox) ^ 2 + (y - oy) ^ 2, r + ro)

/-! Checks and cost (R383, R384). -/

/-- Eight times the successive differences. -/
def diffs8 : Int → List Int → List Int
  | _, [] => []
  | p, x :: xs => (x - p) * 8 :: diffs8 x xs

/-- A sample as rolled out. -/
structure Rolled where
  sigma : Nat
  v : Int
  a : Int
  j : Int
  pose : Option Smp

/-- The samples of a candidate (R376, R377). -/
def Cycle.roll (c : Cycle) (k : Nat) : List Rolled :=
  let prof := (c.profs.drop (256 * c.profOf k)).take 256
  let sg := (List.range 64).map fun s => fld prof (4 * s) 4
  let v := diffs8 0 (sg.map fun n => (n : Int))
  let a := diffs8 (fld c.d 0x58 2 : Nat) v
  let j := diffs8 (sfld c.d 0x5A 2) a
  let p := c.path (c.pathOf k)
  (List.range 64).map fun s =>
    ⟨sg.getD s 0, v.getD s 0, a.getD s 0, j.getD s 0, poseOn p (sg.getD s 0)⟩

/-- LIMIT of R383 at a sample. -/
def limitHit (d : List Byte) (r : Rolled) (p : Smp) : Bool :=
  decide (r.v < 0) || decide ((fld d 0x62 2 : Int) < r.v) || decide (r.a < sfld d 0x64 2) || decide (sfld d 0x66 2 < r.a) ||
  decide ((fld d 0x68 2 : Int) < ((r.v ^ 2 * p.kappa).natAbs : Int) / 2 ^ 24) ||
  decide (fld d 0x6A 2 < p.art1.natAbs) || decide (fld d 0x6A 2 < p.art2.natAbs)

/-- What a sample contributes: feasible, the terms' parts T4, T6, T7. -/
def sampleEval (c : Cycle) (occ : List Nat) (s : Nat) (r : Rolled) : Bool × Int × Int × Int :=
  match r.pose with
  | none => (false, 0, 0, 0)
  | some p =>
    let ds := discsAt c.d p
    let gaps := discGaps occ ds
    let prs := pairs ds (objDiscs c.objs (fld c.d 0x4E 2) s)
    let ok := !limitHit c.d r p && gaps.all (fun g => decide (0 ≤ g)) && prs.all fun (q, m) => decide (m ^ 2 ≤ q)
    let t6 : Int := match leastI gaps with
      | none => 0
      | some g => max 0 ((fld c.d 0x6C 2 : Int) - g)
    let t7 := (prs.map fun (q, m) => max 0 ((m + (fld c.d 0x6E 2 : Int)) ^ 2 - q)).foldl max 0
    (ok, ((r.v ^ 2 * p.kappa).natAbs : Int), t6, t7)

/-- Sum of integers. -/
def sumI (xs : List Int) : Int := xs.foldl (· + ·) 0

/-- The evaluation of a candidate (R383, R384). -/
def Cycle.eval (c : Cycle) (occ : List Nat) (k : Nat) : CandRes :=
  let d := c.d
  let rs := c.roll k
  let es := (rs.zip (List.range 64)).map fun (r, s) => sampleEval c occ s r
  let s63 : Int := ((rs.map (·.sigma)).getD 63 0 : Nat)
  let ts : List Int :=
    [ max 0 ((fld d 0x5C 4 : Int) - s63) / 16,
      sumI (rs.map fun r => ((r.v - (fld d 0x60 2 : Int)).natAbs : Int)) / 16,
      sumI (rs.map fun r => r.a ^ 2) / 256,
      sumI (rs.map fun r => r.j ^ 2) / 4096,
      sumI (es.map (·.2.1)) / 2 ^ 24,
      (fld (c.path (c.pathOf k)) 4 4 : Int),
      sumI (es.map (·.2.2.1)),
      sumI (es.map (·.2.2.2)) / 256 ]
  let ts := ts.map fun v => min v.toNat (2 ^ 32 - 1)
  { ok := es.all (·.1), terms := ts,
    cost := ((List.range 8).map fun i => fld d (0x70 + 2 * i) 2 * ts.getD i 0).foldl (· + ·) 0 }

/-- The tiles candidate `k` registers in (R386). -/
def Cycle.tilesOf (c : Cycle) (k : Nat) : List Nat :=
  ((c.roll k).flatMap fun r => match r.pose with
    | none => []
    | some p => (discsAt c.d p).flatMap fun (x, y, rr) => match lookup x y with
      | none => []
      | some (i, j) =>
        let rc := ceilDiv (rr.toNat + 23 + fld c.d 0x6C 2) 16
        let span (n : Nat) : List Nat := (List.range 64).filter fun t => decide (n ≤ 8 * t + 7 + rc) && decide (8 * t ≤ n + rc)
        (span i).flatMap fun ti => (span j).map fun tj => 64 * ti + tj).dedup

/-! Memory as the engine meets it. -/

/-- How an access fails: CODE and XCAUSE (R399); code 0 while it is held. -/
def VAns.trj {α : Type} : VAns α → Except (Nat × Nat) α
  | .ok v => .ok v
  | .fault c _ => if c = 0xB then .error (4, 0) else .error (2, c)
  | .poison _ => .error (3, 0)
  | .held => .error (0, 0)

/-- The engine's device context. -/
def Tx.trjCtx (t : Tx) : Nat := t.rd TRJ_CFG_DEVCTX

def Tx.trjRead (t : Tx) (va n : Nat) : Tx × Except (Nat × Nat) (List Byte) :=
  match t.vRead 4 t.trjCtx trjMid va n with
  | (t, a) => (t, a.trj)

def Tx.trjWrite (t : Tx) (va : Nat) (bs : List Byte) : Tx × Except (Nat × Nat) Unit :=
  match t.vWrite 4 t.trjCtx trjMid va bs with
  | (t, a) => (t, a.trj)

/-- Several runs read in order. -/
def Tx.trjReads (t : Tx) : List (Nat × Nat) → Tx × Except (Nat × Nat) (List (List Byte))
  | [] => (t, .ok [])
  | (va, n) :: rest =>
    match t.trjRead va n with
    | (t, .error e) => (t, .error e)
    | (t, .ok bs) =>
      match t.trjReads rest with
      | (t, .ok more) => (t, .ok (bs :: more))
      | x => x

/-- Several runs written in order. -/
def Tx.trjWrites (t : Tx) : List (Nat × List Byte) → Tx × Except (Nat × Nat) Unit
  | [] => (t, .ok ())
  | (va, bs) :: rest =>
    match t.trjWrite va bs with
    | (t, .ok ()) => t.trjWrites rest
    | x => x

/-- The cycle stands as `c`; STATE and TRJ_PROG follow it. -/
def Tx.setCycle (t : Tx) (c : Cycle) : Tx :=
  let t := { t with d := { t.d with trj := { t.d.trj with cycle := some c } } }
  ((t.wr TRJ_STAT_STATE c.act.state).wr TRJ_PROG_NDIRTY c.dirty.length).wr TRJ_PROG_NDONE c.ndone

/-! The record (R390). -/

/-- A byte list with the bytes from `o` on replaced. -/
def patch (bs : List Byte) (o : Nat) (new : List Byte) : List Byte := bs.take o ++ new ++ bs.drop (o + new.length)

/-- A record with its CRC. -/
def sealRec (bs : List Byte) : List Byte :=
  let z := patch bs 0x7C (leBytes 4 0)
  patch z 0x7C (leBytes 4 (crc32c z))

/-- The record of a cycle: what the descriptor gives, `told`, and the outcome's fields. -/
def mkRecord (d : List Byte) (seq told tpub cand ndone flags ndelta cost : Nat) (terms : List Nat) (path prof : Nat)
    (samples : List Byte) : List Byte :=
  sealRec (leBytes 4 0x54524A31 ++ leBytes 4 seq ++ leBytes 8 told ++ leBytes 8 tpub ++ leBytes 8 (fld d 8 8) ++
    leBytes 4 cand ++ leBytes 2 ndone ++ leBytes 2 (fld d 0x48 2) ++ leBytes 2 flags ++ leBytes 2 ndelta ++
    leBytes 4 (fld d 0 4) ++ leBytes 8 cost ++ (List.range 8).flatMap (fun i => leBytes 4 (terms.getD i 0)) ++
    leBytes 2 path ++ leBytes 2 prof ++ leBytes 4 (fld d 4 4) ++ leBytes 28 0 ++ leBytes 4 0 ++ samples)

/-- A cycle's samples in the record. -/
def Cycle.samples (c : Cycle) (k : Nat) : List Byte :=
  (c.roll k).flatMap fun r => match r.pose with
    | none => leBytes 16 0
    | some p => leBytes 4 (scode 32 p.x) ++ leBytes 4 (scode 32 p.y) ++ leBytes 2 p.psi ++ leBytes 2 (scode 16 p.art1) ++
        leBytes 2 (scode 16 p.art2) ++ leBytes 2 (scode 16 r.v)

/-- SEQ of the record under way. -/
def Tx.nextSeq (t : Tx) : Nat := (t.rd TRJ_SEQ_SEQ + 1) % 2 ^ 32

/-- A fault ends the cycle: its cause is recorded and a FAULT record goes out (R393). -/
def Tx.cycleFault (t : Tx) (c : Cycle) (e : Nat × Nat) : Tx :=
  let t := t.setWord TRJ_FLT (e.1 + e.2 * 16 + c.act.state * 256)
  let rec_ := mkRecord c.d t.nextSeq (fld c.d 0x10 8) t.now 0xFFFFFFFF 0 9 c.ndelta 0 [] 0 0 (leBytes 1024 0)
  t.setCycle { c with act := .publish rec_ }

/-- The best candidate (R385): the least cost, the lower index among equals. -/
def Cycle.best (c : Cycle) : Option (Nat × CandRes) :=
  c.results.foldl (fun acc (k, r) => match r, acc with
    | some r, none => if r.ok then some (k, r) else none
    | some r, some (j, b) => if r.ok ∧ r.cost < b.cost then some (k, r) else some (j, b)
    | none, acc => acc) none

/-! Deltas (R387, R388). -/

/-- Entries of the delta ring, as a logarithm; other values act as 4. -/
def Tx.deltaLog (t : Tx) : Nat :=
  let l := t.rd TRJ_CFG_LOG2DN
  if 4 ≤ l ∧ l ≤ 10 then l else 4

/-- How a delta entry reads. -/
inductive DeltaEnt where
  | held | skip | bad
  | cells (ts : Nat) (ws : List Nat)

/-- A cell word is well formed. -/
def cellWordOk (w : Nat) : Bool := decide (w < 2 ^ 20) && decide (bits w 19 18 < 3)
/-- The cell of a word. -/
def wordCell (w : Nat) : Nat := bits w 17 9 * 512 + bits w 8 0
/-- The tile of a cell. -/
def cellTile (n : Nat) : Nat := n / 512 / 8 * 64 + n % 512 / 8

/-- Entry `i` of the delta ring. -/
def Tx.deltaEntry (t : Tx) (c : Cycle) (i : Nat) : Tx × DeltaEnt :=
  match t.trjRead (sext48 (t.pair TRJ_DRBASE_LO / 32 * 32 + 32 * i)) 32 with
  | (t, .error (0, _)) => (t, .held)
  | (t, .error _) => (t, .bad)
  | (t, .ok e) =>
    if fld e 8 4 ≠ fld c.d 4 4 then (t, .skip)
    else
      let n := fld e 12 2
      if n = 0 ∨ 4096 < n ∨ fld e 14 2 ≠ 0 ∨ fld e 24 8 ≠ 0 then (t, .bad)
      else match t.trjRead (fld e 0 8) (4 * n) with
        | (t, .error (0, _)) => (t, .held)
        | (t, .error _) => (t, .bad)
        | (t, .ok bs) =>
          let ws := (List.range n).map fun i => fld bs (4 * i) 4
          if ws.all cellWordOk then (t, .cells (fld e 16 8) ws) else (t, .bad)

/-- The grid with a cell word applied. -/
def applyCell (g : List Byte) (w : Nat) : List Byte :=
  let n := wordCell w
  let o := 2 * (n % 4)
  g.set (n / 4) (BitVec.ofNat 8 (putBits (g.getD (n / 4) 0#8).toNat (o + 1) o (bits w 19 18)))

/-- The entries from ring index `i` on, `k` of them; none while one is held. -/
def Tx.deltaEntries (t : Tx) (c : Cycle) (i : Nat) : Nat → Tx × Option (List DeltaEnt)
  | 0 => (t, some [])
  | k + 1 =>
    match t.deltaEntry c i with
    | (t, .held) => (t, none)
    | (t, e) =>
      match t.deltaEntries c ((i + 1) % 2 ^ t.deltaLog) k with
      | (t, some es) => (t, some (e :: es))
      | x => x

/-- The batch at a wave boundary and its cells and tiles, when entries wait (R388). -/
def Tx.takeBatch (t : Tx) (c : Cycle) : Tx × Option (Delta × Nat × Nat) :=
  let head := t.rd TRJ_DPTR_HEAD
  let tail := t.rd TRJ_DPTR_DBTAIL
  let n := 2 ^ t.deltaLog
  if !bit (fld c.d 0x56 1) 1 ∨ c.stuck ∨ head = tail then (t, none)
  else match t.deltaEntries c head ((tail + n - head) % n) with
    | (t, none) => (t, none)
    | (t, some es) =>
      let ok := es.filterMap fun e => match e with
        | .cells ts ws => some (ts, ws)
        | _ => none
      let ws := ok.flatMap (·.2)
      let g := ws.foldl applyCell c.grid
      let cells := (ws.map wordCell).dedup
      (t, some ({ grid := g, applied := ok.length, told := earliest (c.told :: ok.map (·.1)),
                  skipped := (es.filter fun e => match e with
                    | .skip => true
                    | _ => false).length,
                  bad := (es.filter fun e => match e with
                    | .bad => true
                    | _ => false).length,
                  upto := tail,
                  changed := cells.filter fun k => occState c.unk (gridCell g k) != occState c.unk (gridCell c.grid k) },
                ws.length, (cells.map cellTile).dedup.length))

/-! Waves. -/

/-- What follows a wave boundary at instant `at_` once no batch is taken: repair waves, then waves, then the
reduction (R386, R388, R389). -/
def Cycle.proceed (c : Cycle) (at_ : Nat) : Cycle :=
  let due := at_ + 5 * c.cw
  let wave (cands : List Nat) (repair : Bool) : Cycle :=
    if due ≤ c.stop then { c with act := .wave cands repair, due := due } else { c with act := .spent }
  match c.dirty with
  | _ :: _ => wave (c.dirty.take 64) true
  | [] =>
    if 64 * c.next < c.ncand then
      wave ((List.range (min 64 (c.ncand - 64 * c.next))).map (64 * c.next + ·)) false
    else { c with act := .reduce, due := at_ + 5 * 2048 }

/-- A wave boundary at instant `at_` (R388). -/
def Tx.boundary (t : Tx) (c : Cycle) (at_ : Nat) : Tx :=
  match t.takeBatch c with
  | (t, none) => t.setCycle (c.proceed at_)
  | (t, some (b, cells, tiles)) =>
    let due := at_ + 5 * (65536 + 4 * cells + 512 * tiles)
    if due ≤ c.stop then t.setCycle { c with act := .delta b, due := due }
    else t.setCycle ({ c with stuck := true }.proceed at_)

/-! Commands. -/

/-- The descriptor is read and checked (R374). -/
def Tx.loadPlan (t : Tx) (c : Cycle) : Tx × Except (Nat × Nat) Cycle :=
  match c.desc with
  | some _ => (t, .ok c)
  | none =>
    match t.trjRead (sext48 (t.pair TRJ_PLAN_LO / 64 * 64)) 384 with
    | (t, .error e) => (t, .error e)
    | (t, .ok d) => (t, .ok { c with desc := some d, told := fld d 0x10 8 })

/-- A write of TRJ_CTL (R397): setting EN restarts SEQ at 1. -/
def Tx.writeTrjCtl (t : Tx) (v : Nat) : Tx :=
  let was := t.is TRJ_CTL_EN
  (t.applyAt TRJ_CTL v).when (bit v 0 && !was) (·.setWord TRJ_SEQ 0)

def execTrjEnable (mid : Mid) (value : Word) (s : State) : Host.Outcome State Fault Refusal :=
  s.does fun t => t.swWrite mid.toNat TRJ_CTL (·.writeTrjCtl value.toNat)

/-- The engine is at work on a cycle. -/
def Tx.cycle (t : Tx) : Option Cycle := t.d.trj.cycle

/-- STOP at instant `at_`: the reduction starts, whatever runs is abandoned (R389). -/
def Cycle.stopAt (c : Cycle) (at_ : Nat) : Cycle := { c with act := .reduce, due := at_ + 5 * 2048 }

/-- START: the cycle begins with the read of its descriptor (R374, R394). -/
def Tx.trjStart (t : Tx) : Tx :=
  if !t.is TRJ_CTL_EN ∨ t.cycle.isSome then t.set1 TRJ_STAT_CMDREF
  else
    let c : Cycle := { start := t.now }
    match t.loadPlan c with
    | (t, .error (0, _)) => t.setCycle c
    | (t, .error e) => t.cycleFault c e
    | (t, .ok c) => if planOk c.d then t.setCycle c else t.cycleFault c (1, 0)

/-- ABORT: STOP at once (R394). -/
def Tx.trjAbort (t : Tx) : Tx :=
  match t.cycle with
  | none => t.set1 TRJ_STAT_CMDREF
  | some c =>
    match c.act with
    | .publish _ => t
    | .reduce => t.setCycle { c with aborted := true }
    | _ =>
      if c.desc.isSome then t.setCycle ({ c with aborted := true }.stopAt (6 * t.now))
      else
        let (w, t) := t.fresh (8 * 384)
        let d := leBytes 384 w
        t.setCycle ({ c with aborted := true, desc := some d, told := fld d 0x10 8 }.stopAt (6 * t.now))

/-- A write of TRJ_CMD (R397). -/
def Tx.writeTrjCmd (t : Tx) (v : Nat) : Tx :=
  match bits v 3 0 with
  | 1 => t.trjStart
  | 2 => t.trjAbort
  | 3 => t.snapBlock TRJ_CMD
  | _ => t.set1 TRJ_STAT_CMDREF

def execStart (mid : Mid) (s : State) : Host.Outcome State Fault Refusal :=
  s.does fun t => t.swWrite mid.toNat TRJ_CMD (·.writeTrjCmd 1)
def execTrjAbort (mid : Mid) (s : State) : Host.Outcome State Fault Refusal :=
  s.does fun t => t.swWrite mid.toNat TRJ_CMD (·.writeTrjCmd 2)

/-- A write of a register that is closed while a cycle runs; a base or the size sets the delta ring's indices
to 0 (R397, R632). -/
def Tx.writeTrjSetup (t : Tx) (a v : Nat) : Tx :=
  if t.cycle.isSome then t.set1 TRJ_STAT_CMDREF
  else
    let t := t.applyAt a v
    t.when (a == TRJ_CFG || a == TRJ_DRBASE_LO || a == TRJ_DRBASE_HI) (·.setWord TRJ_DPTR 0)

/-- A write of TRJ_DDB (R387, R398, R632). -/
def Tx.writeDdb (t : Tx) (v : Nat) : Tx :=
  let n := 2 ^ t.deltaLog
  let tail := bits v 9 0
  let head := t.rd TRJ_DPTR_HEAD
  if n ≤ tail ∨ (tail + n - head) % n < (t.rd TRJ_DPTR_DBTAIL + n - head) % n then t.set1 TRJ_STAT_CMDREF
  else t.wr TRJ_DPTR_DBTAIL tail

def execDeltaDoorbell (mid : Mid) (value : Word) (s : State) : Host.Outcome State Fault Refusal :=
  s.does fun t => t.swWrite mid.toNat TRJ_DDB (·.writeDdb value.toNat)

/-- An object is well formed (R382). -/
def objectOk (o : List Byte) : Bool :=
  decide (fld o 6 2 < 2) && fld o 8 56 == 0 && (List.range 64).all fun s => decide (fld o (64 + 8 * s + 6) 2 < 2)

/-- A path's header is well formed (R375). -/
def pathOk (h : List Byte) : Bool := decide (2 ≤ fld h 0 2) && decide (fld h 0 2 ≤ 512) && fld h 2 2 == 0 && fld h 8 56 == 0

/-- The tables are read and checked (R374 to R376, R382). -/
def Tx.loadTables (t : Tx) (c : Cycle) : Tx × Except (Nat × Nat) Cycle :=
  let f := fld c.d
  let npath := f 0x4A 2
  let nobj := f 0x4E 2
  let heads := (List.range npath).map fun p => (f 0x28 8 + p * 8256, 64)
  match t.trjReads ((f 0x18 8, 65536) :: (f 0x20 8, 576 * nobj) :: heads) with
  | (t, .ok (grid :: objs :: hs)) =>
    if !(List.range nobj).all (fun o => objectOk ((objs.drop (576 * o)).take 576)) ∨ !hs.all pathOk then (t, .error (1, 0))
    else
      let stations := (hs.zip (List.range npath)).map fun (h, p) => (f 0x28 8 + p * 8256 + 64, 16 * fld h 0 2)
      match t.trjReads ((f 0x30 8, 256 * f 0x4C 2) :: (f 0x38 8, 4 * c.ncand) :: stations) with
      | (t, .ok (profs :: cands :: sts)) =>
        let c := { c with grid := grid, objs := objs, profs := profs, cands := cands,
                          paths := (hs.zip sts).flatMap fun (h, st) => h ++ st ++ List.replicate (8192 - st.length) 0#8 }
        if (List.range c.ncand).all fun k => decide (c.pathOf k < npath) && decide (c.profOf k < f 0x4C 2) then (t, .ok c)
        else (t, .error (1, 0))
      | (t, .error e) => (t, .error e)
      | (t, .ok _) => (t, .error (1, 0))
  | (t, .error e) => (t, .error e)
  | (t, .ok _) => (t, .error (1, 0))

/-- PLAN_LOAD_DONE: the tables are in the table store and the distance field starts (R374, R380, R386). -/
def execPlanLoadDone (s : State) : Host.Outcome State Fault Refusal :=
  s.does fun t => match t.cycle with
    | some c =>
      match c.act with
      | .load =>
        match t.loadPlan c with
        | (_, .error (0, _)) => t
        | (t, .error e) => t.cycleFault c e
        | (t, .ok c) =>
          if !planOk c.d then t.cycleFault c (1, 0)
          else match t.loadTables c with
            | (_, .error (0, _)) => t
            | (t, .error e) => t.cycleFault c e
            | (t, .ok c) => t.setCycle { c with act := .field, due := 6 * t.now + 5 * 65536 }
      | _ => t
    | none => t

/-- The event is due: the instant at which the activity ends has come. -/
def Tx.isDue (t : Tx) (c : Cycle) : Bool := decide (c.due ≤ 6 * t.now)

/-- DISTANCE_FIELD_DONE: the first wave boundary (R380, R388). -/
def execDistanceFieldDone (s : State) : Host.Outcome State Fault Refusal :=
  s.does fun t => match t.cycle with
    | some c => if c.act = .field ∧ t.isDue c then t.boundary c c.due else t
    | none => t

/-- The reverse index words of wave `w` (R386). -/
def Cycle.indexWords (c : Cycle) (w : Nat) (cands : List Nat) : List (Nat × List Byte) :=
  let regs := cands.map fun k => (k, c.tilesOf k)
  (List.range 4096).map fun tile =>
    (fld c.d 0x40 8 + tile * 2048 + w * 8,
     leBytes 8 ((regs.filter fun (_, ts) => ts.contains tile).foldl (fun v (k, _) => v + 2 ^ (k % 64)) 0))

/-- WAVE_END: the wave's candidates are completed, its reverse index is written, and the boundary follows
(R386, R388). -/
def execWaveEnd (s : State) : Host.Outcome State Fault Refusal :=
  s.does fun t => match t.cycle with
    | some c =>
      match c.act with
      | .wave cands repair =>
        if !t.isDue c then t
        else
          let occ := occupied c.unk c.grid
          let c' := { c with
            results := cands.foldl (fun r k => r.put k (some (c.eval occ k))) c.results
            dirty := if repair then c.dirty.drop cands.length else c.dirty
            next := if repair then c.next else c.next + 1 }
          match t.trjWrites (if repair then [] else c.indexWords c.next cands) with
          | (_, .error (0, _)) => t
          | (t, .error e) => t.cycleFault c e
          | (t, .ok ()) => t.boundary c' c.due
      | _ => t
    | none => t

/-- DELTA_APPLY_DONE: the batch is applied, and the candidates it touches join those still dirty, in ascending index (R388). -/
def execDeltaApplyDone (s : State) : Host.Outcome State Fault Refusal :=
  s.does fun t => match t.cycle with
    | some c =>
      match c.act with
      | .delta b =>
        if !t.isDue c then t
        else
          let tiles := (b.changed.map cellTile).dedup
          match t.trjReads (tiles.map fun n => (fld c.d 0x40 8 + n * 2048, 2048)) with
          | (_, .error (0, _)) => t
          | (t, .error e) => t.cycleFault c e
          | (t, .ok maps) =>
            let hit (k : Nat) : Bool := maps.any fun m => bit (m.getD (k / 8) 0#8).toNat (k % 8)
            let dirty := ((c.results.filter fun (k, r) => r.isSome && hit k).map (·.1)).foldr (List.orderedInsert (· ≤ ·)) c.dirty
            let t := ((t.wr TRJ_DPTR_HEAD b.upto).inc TRJ_CNT1_DSKIP b.skipped).inc TRJ_CNT1_DERR b.bad
            t.boundary { c with grid := b.grid, told := b.told, ndelta := c.ndelta + b.applied, dirty := dirty,
                                results := dirty.foldl (fun r k => r.put k none) c.results } c.due
      | _ => t
    | none => t

/-- TRJ_STOP: evaluation stops (R389). -/
def execTrjStop (s : State) : Host.Outcome State Fault Refusal :=
  s.does fun t => match t.cycle with
    | some c =>
      match c.act with
      | .reduce | .publish _ => t
      | _ => if c.desc.isSome ∧ c.stop ≤ 6 * t.now then t.setCycle (c.stopAt (max c.stop (6 * c.start))) else t
    | none => t

/-- The record of a reduction (R385, R390). -/
def Tx.trjRecord (t : Tx) (c : Cycle) : List Byte :=
  let cut := decide (c.ndone ≠ c.ncand)
  let flags := (if cut then 2 else 0) + (if c.aborted then 4 else 0)
  match c.best with
  | some (k, r) =>
    mkRecord c.d t.nextSeq c.told t.now k c.ndone flags c.ndelta r.cost r.terms (c.pathOf k) (c.profOf k) (c.samples k)
  | none =>
    mkRecord c.d t.nextSeq c.told t.now 0xFFFFFFFF c.ndone (flags + 1) c.ndelta 0
      ((List.range 8).map Config.noCand) (Config.noCand 8) (Config.noCand 9) (leBytes 1024 0)

/-- REDUCTION_DONE: the record is formed and goes out (R385, R390, R392). -/
def execReductionDone (s : State) : Host.Outcome State Fault Refusal :=
  s.does fun t => match t.cycle with
    | some c => if c.act = .reduce ∧ t.isDue c then t.setCycle { c with act := .publish (t.trjRecord c) } else t
    | none => t

/-- A record turned into a FAULT record at publication (R393). -/
def faultRecord (r : List Byte) : List Byte :=
  let r := patch r 0x20 (leBytes 4 0xFFFFFFFF)
  let r := patch r 0x24 (leBytes 2 0)
  let r := patch r 0x28 (leBytes 2 (fld r 0x28 2 ||| 9))
  sealRec (patch (patch r 0x30 (leBytes 44 0)) 0x80 (leBytes 1024 0))

/-- What a published record leaves in the registers (R397, R399). -/
def Tx.trjPublished (t : Tx) (r : List Byte) : Tx :=
  let fl := fld r 0x28 2
  let t := (t.setWord TRJ_SEQ (fld r 4 4)).set1 TRJ_STAT_PUB
  let t := t.when (bit fl 0) (·.set1 TRJ_STAT_NOVAL)
  let t := t.when (bit fl 1) fun t => (t.set1 TRJ_STAT_CUT).inc TRJ_CNT0_CUTCNT
  (t.when (bit fl 3) (·.set1 TRJ_STAT_FAULT)).irq 37

/-- PUBLICATION_COMPLETE: the record is in its slot, with both Cleats and, with EGREN, in the egress queue
(R392, R393). -/
def execPublicationComplete (s : State) : Host.Outcome State Fault Refusal :=
  s.does fun t => match t.cycle with
    | some c =>
      match c.act with
      | .publish rec_ =>
        match t.trjWrite (sext48 (t.pair TRJ_RES_LO / 2048 * 2048 + fld rec_ 4 4 % 8 * 2048)) rec_ with
        | (_, .error (0, _)) => t
        | (t, a) =>
          let (t, r) := match a with
            | .error e => (t.setWord TRJ_FLT (e.1 + e.2 * 16 + 3 * 256), faultRecord rec_)
            | .ok () => (t, rec_)
          let t := (t.cleatFrames "RESULT" r).pairPartner 4 r
          let q := t.d.trj.egress
          let q := if t.is TRJ_CTL_EGREN then q ++ [{ seq := fld r 4 4, pub := fld r 0x10 8, bytes := r }] else q
          ({ t with d := { t.d with trj := { cycle := none, egress := q } } }.wr TRJ_STAT_STATE 0).trjPublished r
      | _ => t
    | none => t

/-- A Cleat's release for a SEQ reaches the egress queue (R392). -/
def Tx.trjRelease (t : Tx) (cleatB : Bool) (seq : Nat) : Tx :=
  { t with d := { t.d with trj := { t.d.trj with egress := t.d.trj.egress.map fun e =>
      if e.seq = seq then (if cleatB then { e with relB := true } else { e with relA := true }) else e } } }

/-- EGRESS_SEND: the record at the queue's head leaves on EPORT once it has both releases and both output gates
are open (R30, R392). -/
def execEgressSend (s : State) : Host.Outcome State Fault Refusal :=
  s.does fun t => match t.d.trj.egress with
    | e :: rest =>
      if e.relA ∧ e.relB ∧ t.is CLP_STAT_GATEA ∧ t.is CLP_STAT_GATEB then
        let t := { t with d := { t.d with trj := { t.d.trj with egress := rest } } }
        t.send "ETH" "FRAME" ([t.rd TRJ_CTL_EPORT, t.pair TRJ_EMAC_LO, 0x8100, t.rd TRJ_EVLAN_TCI, 0x88B5] ++ e.bytes.map (·.toNat))
      else t
    | [] => t

/-- The release timeout in ns: RELTO × 100 µs, 0 acting as 1 (R392). -/
def Tx.relTimeout (t : Tx) : Nat := max 1 (t.rd TRJ_CTL_RELTO) * 100000

/-- RELEASE_TIMEOUT: records unsent for RELTO are discarded (R392). -/
def execReleaseTimeout (s : State) : Host.Outcome State Fault Refusal :=
  s.does fun t =>
    let late (e : Egress) : Bool := decide (e.pub + t.relTimeout ≤ t.now)
    let gone := (t.d.trj.egress.filter late).length
    if gone = 0 then t
    else
      let t := { t with d := { t.d with trj := { t.d.trj with egress := t.d.trj.egress.filter fun e => !late e } } }
      ((t.set1 TRJ_STAT_RELDROP).inc TRJ_CNT0_RELDROPCNT gone).irq 37

end Sys2Proof.Machine
end

