-- ==== Sys2Proof/Machine/CleatChecks.lean ====
section
/-! DEFINITION.  What a Cleat checks of the hub's results: the pose track (R408, R642), the trajectory record (R409 to R411) and
the raw grid record (R412). -/

namespace Sys2Proof.Machine

/-! The pose track in exact arithmetic: positions in units of 2^-46 m, angles in units of 2^-128 rad. -/

/-- The sine of an angle. -/
def sinFix (a : Int) : Int :=
  let p : Int := piFix
  let a := a % (2 * p)
  let (s, a) := if p ≤ a then (true, a - p) else (false, a)
  let a := if p < 2 * a then p - a else a
  let v := sinSeries a.toNat 24 1 a.toNat
  if s then -v else v
def cosFix (a : Int) : Int := sinFix (a + (piFix : Int) / 2)

/-- A point turned by an angle. -/
def turn (a : Int) (p : Int × Int) : Int × Int :=
  (((p.1 * cosFix a - p.2 * sinFix a) / 2 ^ 128), (p.1 * sinFix a + p.2 * cosFix a) / 2 ^ 128)

/-- A displacement and a turn. -/
structure Move where
  x : Int := 0
  y : Int := 0
  a : Int := 0

/-- A constant-turn arc of `dt` ns at speed `v` (2^-16 m/s) and yaw rate `w` (2^-16 rad/s) after `m`. -/
def Move.arc (m : Move) (v w dt : Int) : Move :=
  let da := w * dt * 2 ^ 112 / 1000000000
  let h := da / 2
  let len := v * dt * 2 ^ 30 / 1000000000
  let chord := if h = 0 then len else len * sinFix h / h
  let d := turn (m.a + h) (chord, 0)
  ⟨m.x + d.1, m.y + d.2, m.a + da⟩

/-- The stamps of valid speed and yaw-rate frames after `lo` and before `hi`, oldest first. -/
def Cleat.breaks (x : Cleat) (lo hi : Int) : List Int :=
  let all := ((x.hist.at 1) ++ (x.hist.at 2)).map (·.1)
  (all.filter fun s => decide (lo < s) && decide (s < hi)).foldl (fun acc s =>
    (acc.filter fun y => decide (y < s)) ++ [s] ++ acc.filter fun y => decide (s < y)) []

/-- The track from `lo` to `hi`, in the frame of the vehicle at `lo`. -/
def Cleat.trackMove (x : Cleat) (lo hi : Int) : Move :=
  ((x.breaks lo hi ++ [hi]).foldl (fun (m, s) e =>
    let v := match x.valAt 1 s with
      | some h => h.2
      | none => 0
    let w := match x.valAt 2 s with
      | some h => h.2
      | none => 0
    (m.arc v w (e - s), e)) (({} : Move), lo)).1

/-- The pose track holds the instant: within the last 500 ms, from the first valid speed and yaw rate on. -/
def Cleat.onTrack (x : Cleat) (at_ : Int) : Bool :=
  decide (x.est - 500000000 ≤ at_) && decide (at_ ≤ x.est + 4000) && (x.valAt 1 at_).isSome && (x.valAt 2 at_).isSome

/-- A point in the frame at `a` moved to the frame at `b`. -/
def Cleat.reframe (x : Cleat) (a b : Int) (p : Int × Int) : Int × Int :=
  if a ≤ b then
    let m := x.trackMove a b
    turn (-m.a) (p.1 - m.x, p.2 - m.y)
  else
    let m := x.trackMove b a
    let q := turn m.a p
    (q.1 + m.x, q.2 + m.y)

/-- A distance against a threshold, outside a band of two units to either side (R642): more, less, or inside. -/
inductive Side where
  | beyond | within | band

/-- The place of the distance of two points (2^-46 m) against a threshold in units of 2^-6 m. -/
def sideOf (p q : Int × Int) (thr : Int) : Side :=
  let d2 := (p.1 - q.1) * (p.1 - q.1) + (p.2 - q.2) * (p.2 - q.2)
  let sq (k : Int) : Int := let e := max 0 (k * 2 ^ 40); e * e
  -- a sixty-fourth of a unit more, for the cuts of this arithmetic
  if sq (thr + 2) + 2 ^ 36 * (max 0 (thr + 2) * 2 ^ 40) < d2 then .beyond
  else if 2 < thr ∧ d2 < sq (thr - 2) - 2 ^ 36 * ((thr - 2) * 2 ^ 40) then .within
  else .band

/-! The trajectory record. -/

/-- Sample `s` of a record: X, Y, PSI, ART1, ART2, V. -/
def recSmp (r : List Byte) (s : Nat) : Smp :=
  let o := 0x80 + 16 * s
  ⟨sfld r o 4, sfld r (o + 4) 4, fld r (o + 8) 2, sfld r (o + 10) 2, sfld r (o + 12) 2, 0⟩
def recV (r : List Byte) (s : Nat) : Int := (fld r (0x80 + 16 * s + 14) 2 : Nat)

/-- The first sample that meets a condition. -/
def firstSmp (lo : Nat) (f : Nat → Bool) : Option Nat := ((List.range 64).drop lo).find? f

/-- How a follower converts source times (R482): what it adds for the age, for the future check, and for TC. -/
structure Conv where
  age : Int := 0
  future : Int := 0
  mid : Int := 0

/-- `θ` at the present instant: its bounds widened by 200 ppm of the time since the exchange (R482). -/
def Cleat.theta (x : Cleat) : Option (Int × Int) :=
  match x.pair.theta with
  | some (lo, hi, ct) =>
    let g : Int := ((x.ct - ct) * 200 + 999999) / 1000000
    some (lo - g, hi + g)
  | none => none

def Cleat.conv (x : Cleat) : Conv :=
  if x.pair.view = .follower then
    match x.theta with
    | some (lo, hi) => ⟨hi, lo, (lo + hi) / 2⟩
    | none => {}
  else {}

/-- A check of the record: passed, refused at a sample, or open. -/
inductive Chk where
  | pass | refuse (s : Nat) | openAt (s : Nat)

/-- A condition on samples, as a check. -/
def chk : Option Nat → Chk
  | some s => .refuse s
  | none => .pass
/-- A condition on the whole record. -/
def chkIf (b : Bool) : Chk := if b then .refuse 0xFF else .pass

/-- Code 0x14 (R410): the record's initial speed or articulation lies too far from the Cleat's own at `tc`, or those cannot be
formed. -/
def Cleat.initialBad (x : Cleat) (r : List Byte) (tc : Int) : Bool :=
  match x.heldAt 1 tc, x.heldAt 1 (tc - 100000000) with
  | some v1, some v0 =>
    decide (1024 * x.lim 6 < ((1024 * recV r 0 - 4 * v1 - 5 * (v1 - v0)).natAbs : Int)) ||
      (decide (2 ≤ x.nb) && (match x.heldAt 3 tc with
        | some n => decide (x.lim 7 * 2 * piFix < (((recSmp r 0).art1 * 2 * piFix - n * 2 ^ 128).natAbs : Int))
        | none => true))
  | _, _ => true

/-- The checks of R410 before those of the pose and the grid, in their order; `tc` is TC in the Cleat's time, `prev` the previous
SEQ of the source. -/
def Cleat.recordChecks (x : Cleat) (r : List Byte) (v : Conv) (prev : Option Nat) : List (Nat × Chk) :=
  let e := x.est
  let told : Int := (fld r 8 8 : Nat)
  let tc : Int := (fld r 0x18 8 : Nat) - v.mid
  let flags := fld r 0x28 2
  let vs := recV r
  let acc (s : Nat) : Int := (vs s - vs (s - 1)) * 8
  let p := recSmp r
  let crcOk := crc32c (patch r 0x7C (leBytes 4 0)) == fld r 0x7C 4
  let dpsi (s : Nat) : Nat := (sint 16 (scode 16 (((p s).psi : Int) - (if s = 0 then 0 else (p (s - 1)).psi : Nat)))).natAbs
  let position : Chk :=
    if !x.onTrack tc then .refuse 0
    else
      let m := x.trackMove tc (tc + 125000000)
      match sideOf (m.x, m.y) ((p 0).x * 2 ^ 40, (p 0).y * 2 ^ 40) (x.lim 8) with
      | .beyond => .refuse 0
      | .band => .openAt 0
      | .within => .pass
  let step (s : Nat) : Bool :=
    let a := p (s - 1)
    let b := p s
    let q := (a.x - b.x) * (a.x - b.x) + (a.y - b.y) * (a.y - b.y)
    let sum := vs (s - 1) + vs s
    let up := sum + 64 * x.lim 4
    let lo := sum - 64 * x.lim 4
    decide (up < 0) || decide (up * up < 4096 * q) || (decide (0 < lo) && decide (4096 * q < lo * lo))
  let art (f : Smp → Int) (s : Nat) : Bool :=
    decide (x.lim 9 < ((f (p s)).natAbs : Int)) || (s != 0 && decide (x.lim 10 < (((f (p s) - f (p (s - 1))) * 8).natAbs : Int)))
  [(0x01, chkIf (fld r 0 4 != 0x54524A31 || !crcOk || flags / 16 != 0 || fld r 0x60 28 != 0)),
   (0x02, chkIf (match prev with
      | some q => decide (fld r 4 4 ≤ q)
      | none => false)),
   (0x03, chkIf (bit flags 0 || bit flags 3 || bit flags 2 ||
      (bit flags 1 && decide ((fld r 0x24 2 * 1024 : Int) < x.lim 0 * (fld r 0x26 2 : Nat))))),
   (0x04, chkIf (decide ((x.age 0 : Int) < e - told + v.age + 4000))),
   (0x05, chkIf (decide (e + v.future + 4000 < told) || decide (e + v.future + 4000 < (fld r 0x18 8 : Nat)))),
   (0x10, chk (firstSmp 0 fun s => decide (x.lim 1 < vs s))),
   (0x11, chk (firstSmp 1 fun s => decide (acc s < x.lim 2) || decide (x.lim 3 < acc s))),
   (0x12, chk (firstSmp 1 step)),
   (0x13, chk (firstSmp 0 fun s => decide (x.lim 5 * 2 ^ 32 < vs s * (dpsi s : Int) * 3294200))),
   (0x14, if x.initialBad r tc then .refuse 0 else .pass),
   (0x15, position),
   (0x16, chk (firstSmp 0 fun s => art (·.art1) s || art (·.art2) s)),
   (0x17, chk (firstSmp 2 fun s => decide (x.lim 11 < (((acc s - acc (s - 1)) * 8).natAbs : Int)))),
   (0x22, chkIf x.poseBad)]

/-- The centres of the accepted grid's occupied cells (R364). -/
def gridCentres (g : List Byte) : List (Int × Int) :=
  let cells := (g.drop 0x40).take 65536
  ((List.range 262144).filter fun n => gridCell cells n == 2).map fun n => ((n / 512 : Nat) * 16 + 8 - 2048, (n % 512 : Nat) * 16 + 8 - 4096)

/-- The checks that need the accepted grid (R410, R411). -/
def Cleat.gridChecks (x : Cleat) (r : List Byte) (v : Conv) : List (Nat × Chk) :=
  let tc : Int := (fld r 0x18 8 : Nat) - v.mid
  match x.grid with
  | none => [(0x21, .refuse 0xFF)]
  | some g =>
    let tg : Int := (fld g 8 8 : Nat)
    if 120000000 < (tg - tc).natAbs ∨ !x.onTrack tc ∨ !x.onTrack tg then [(0x21, .refuse 0xFF)]
    else
      let cs := gridCentres g
      let smp (s : Nat) : Chk :=
        (discsAt x.footprint (recSmp r s)).foldl (fun acc (cx, cy, rad) =>
          let q := x.reframe tc tg (cx * 2 ^ 40, cy * 2 ^ 40)
          cs.foldl (fun acc o => match acc with
            | .refuse s => .refuse s
            | a => match sideOf q (o.1 * 2 ^ 40, o.2 * 2 ^ 40) (rad + x.lim 13 + 12) with
              | .within => .refuse s
              | .band => .openAt s
              | .beyond => a) acc) .pass
      [(0x21, .pass)] ++ (List.range (min 64 (x.lim 12).toNat)).map fun s => (0x20, smp s)

/-- The first check that refuses, in order; inside a band the outcome is open (R409, R642). -/
def Tx.firstRefusal (t : Tx) : List (Nat × Chk) → Tx × Option (Nat × Nat)
  | [] => (t, none)
  | (code, .refuse s) :: _ => (t, some (code, s))
  | (_, .pass) :: cs => t.firstRefusal cs
  | (code, .openAt s) :: cs =>
    let (k, t) := t.pick 2
    if k = 1 then (t, some (code, s)) else t.firstRefusal cs

/-- Cleat `c` checks a record of module `m` and acts on it (R409, R479): it releases its own module's only. -/
def Tx.clCheck (t : Tx) (c m : Nat) (r : List Byte) : Tx :=
  let x := t.cl c
  let v := x.conv
  let seq := fld r 4 4
  let prev := if x.skipSeq ∧ x.pair.partnerPlan ≤ fld r 0x2C 4 then none else x.lastSeq.at m
  let (t, res) := t.firstRefusal (x.recordChecks r v prev ++ x.gridChecks r v)
  -- a record that fails its format gives no SEQ
  let t := if res = some (1, 0xFF) then t
    else t.onCl c fun x => { x with skipSeq := x.skipSeq && prev.isSome, lastSeq := x.lastSeq.put m (some seq) }
  match res with
  | some (code, s) =>
    let t := t.onCl c fun x => { x with run := 0, refuse := min (x.refuse % 2 ^ 16 + 1) 0xFFFF + s * 2 ^ 16 + code * 2 ^ 24 }
    let t := t.clSend c "REFUSE" (leBytes 4 seq ++ leBytes 1 code ++ leBytes 1 s ++ leBytes 2 0)
    t.clFault c code
  | none =>
    let t := if m = modid then t.clSend c "RELEASE" (leBytes 4 seq ++ leBytes 4 0) else t
    let plan := fld r 0x2C 4
    let t := t.onCl c fun x => { x with
      run := x.run + 1, seqref := seq,
      tasks := x.tasks.upd 0 fun k => { k with viol := false, last := x.ct + 1, due := some (x.ct + (x.taskF 0 8 4 + x.taskF 0 12 4) * 1000) },
      pair := { x.pair with
        maxPlan := max x.pair.maxPlan (plan + 1), partnerPlan := if m = modid then x.pair.partnerPlan else max x.pair.partnerPlan (plan + 1) } }
    (t.clStatus c).clPublish c

/-- The view swaps at the key of an agreed handover (R492). -/
def Tx.clSwap (t : Tx) (c plan : Nat) : Tx :=
  let x := t.cl c
  match x.pair.swap with
  | some k =>
    if k ≤ plan then (t.onPair c fun p => { p with swap := none }).clView c (if x.pair.view = .source then .follower else .source) else t
  | none => t

/-- RESULT_FRAME (R409, R410, R479): the own module's record.  It is checked in the views that check it, and compared across the
pair. -/
def execResultFrame (c : Cleat2) (ct : Nat) (lseq : Word) (bytes : List Byte) (s : State) : Host.Outcome State Fault Refusal :=
  clFrame c ct lseq.toNat (fun t =>
    let x := t.cl c
    if bytes.length ≠ 1152 then t.clLinkFault c false
    else if x.st = .boot then t
    else
      let t := t.clSwap c (fld bytes 0x2C 4)
      let t := if (t.cl c).pair.view = .follower then t else t.clCheck c modid bytes
      t.clCompare c modid bytes) s

/-! The raw grid record. -/

/-- Code 0x42: a value of A outside N ± its limit in the SPB's CALIB. -/
def Cleat.calibBad (x : Cleat) (r : List Byte) : Bool :=
  (List.range 64).any fun e =>
    let cal (o n : Nat) : Nat := x.spbF (0x190 + 32 * e + o) n
    (List.range 6).any fun i =>
      decide ((cal (if i < 3 then 24 else 28) 4 : Int) < ((sfld r (0x10040 + 32 * e + 4 + 4 * i) 4 - sint 32 (cal (4 * i) 4)).natAbs : Int))

/-- Code 0x43: the calibration moved faster than it may since the previous accepted grid. -/
def calibFast (r g : List Byte) : Bool :=
  let tc := fld r 0x28 8
  let tp := fld g 0x28 8
  let n : Int := ((tc - tp + 999999) / 1000000 + 1 : Nat)
  decide (tc < tp) || decide (fld r 0x20 4 < fld g 0x20 4) || (List.range 64).any fun e => (List.range 6).any fun i =>
    let o := 0x10040 + 32 * e + 4 + 4 * i
    decide ((if i < 3 then 50 else 1) * n < ((sfld r o 4 - sfld g o 4).natAbs : Int))

/-- The checks of a grid record in their order, 0 where it passes them all (R412). -/
def Cleat.gridCode (x : Cleat) (bytes : List Byte) : Nat :=
  let prev := x.grid.getD []
  let told : Int := (fld bytes 0x10 8 : Nat)
  let crcOk := crc32c (patch bytes 0x3C (leBytes 4 0)) == fld bytes 0x3C 4
  if fld bytes 0 4 ≠ 0x4F434731 ∨ !crcOk ∨ (x.grid.isSome ∧ fld bytes 4 4 ≤ fld prev 4 4) then 0x40
  else if (x.age 1 : Int) < x.est - told + 4000 ∨ x.est + 4000 < told then 0x41
  else if x.calibBad bytes then 0x42
  else if x.grid.isSome ∧ calibFast bytes prev then 0x43
  else if (List.range 262144).any (fun n => gridCell ((bytes.drop 0x40).take 65536) n == 3) then 0x44
  else 0

/-- GRID_FRAME (R412): a refused record leaves the previous one; an accepted one serves the occupancy check. -/
def execGridFrame (c : Cleat2) (ct : Nat) (lseq : Word) (bytes : List Byte) (s : State) : Host.Outcome State Fault Refusal :=
  clFrame c ct lseq.toNat (fun t =>
    let x := t.cl c
    if bytes.length ≠ 67648 then t.clLinkFault c false
    else if x.st = .boot then t
    else
      let code := x.gridCode bytes
      if code ≠ 0 then
        ((t.onCl c fun x => { x with refuse := min (x.refuse % 2 ^ 16 + 1) 0xFFFF + 0xFF0000 + code * 2 ^ 24 }).clEvent c 1 code 0 0).clStatus c
      else
        (t.onCl c fun x => { x with
          grid := some bytes, tasks := x.tasks.upd 1 fun k => { k with viol := false, last := x.ct + 1, due := some (x.ct + (x.taskF 1 8 4 + x.taskF 1 12 4) * 1000) } }).clStatus c) s

end Sys2Proof.Machine
end

