-- ==== Sys2Proof/Machine/CleatRows.lean ====
section
/-! DEFINITION.  A Cleat's other events: summaries and the time basis (R405 to R407), notices (R418), tasks (R414 to R416),
certificates (R417, R195), the vehicle's frames (R408), states (R401, R420) and tests (R429). -/

namespace Sys2Proof.Machine

/-! Time and the hub link. -/

/-- A summary agrees with the Cleat's own clock (R407). -/
def Cleat.timeOk (x : Cleat) (dt : Nat) : Bool :=
  match x.sums with
  | [] => true
  | (d, k) :: _ =>
    decide (d < dt) && decide ((((dt : Int) - d) - ((x.ct : Int) - k)).natAbs ≤ 10000) &&
      x.sums.all fun (d, k) => decide (x.ct > k + 100000000) || decide ((((dt : Int) - d) - ((x.ct : Int) - k)).natAbs ≤ 30000)

/-- SUMMARY (R405 to R407, R420, R421). -/
def execSummary (c : Cleat2) (ct : Nat) (lseq : Word) (dt : Nat) (gates : BitVec 8) (counts : List Word) (s : State) :
    Host.Outcome State Fault Refusal :=
  clFrame c ct lseq.toNat (fun t =>
    let x := t.cl c
    let ok := x.timeOk dt
    let first := x.sums.isEmpty
    let t := t.onCl c fun x => { x with
      sums := (dt, x.ct) :: x.sums.filter (fun m => decide (x.ct ≤ m.2 + 100000000))
      basis := if ok then some (dt, x.ct) else x.basis
      faults := x.faults.filter fun f => decide (x.ct < f + 100000000) }
    let t := t.onCl c fun x => { x with linkLost := x.linkLost && decide (2 < x.faults.length) }
    let t := if ok then t else t.clFault c 0x34
    -- the counts of notices: a difference is one link fault, and the hub's counts are taken from then on
    let same := (List.range 64).all fun k => (t.cl c).ncount.at k == (counts.getD k 0).toNat
    let t := if first ∨ same then t else t.clLinkFault c true
    let t := t.onCl c fun x => { x with ncount := (List.range 64).foldl (fun n k => n.put k (counts.getD k 0).toNat) [] }
    -- the gates
    let own := bit gates.toNat c
    let other := bit gates.toNat (1 - c)
    let x := t.cl c
    let bad := own != (x.st == .engaged)
    let closed := !other && (x.st == .engaged || bit x.gates (1 - c))
    let t := t.onCl c fun x => { x with gateBad := if bad then x.gateBad + 1 else 0, gates := gates.toNat }
    let t := if closed ∨ (bad ∧ x.gateBad = 1) then t.clFault c 0x35 else t
    t.clTryReady c) s

/-- HUB_LINK_LOST (R406): no valid SUMMARY for 3 ms by the Cleat's own clock. -/
def execHubLinkLost (c : Cleat2) (ct : Nat) (s : State) : Host.Outcome State Fault Refusal :=
  clDoes c ct (fun t =>
    let x := t.cl c
    let lastAt := match x.sums with
      | m :: _ => m.2
      | [] => 0
    if x.linkLost ∨ x.ct < lastAt + 3000000 then t
    else (t.onCl c fun x => { x with linkLost := true }).clFault c 0x33) s

/-! Notices. -/

/-- The RTLIST task of a list. -/
def Cleat.rtTask (x : Cleat) (listid : Nat) : Option Nat :=
  (List.range 128).find? fun i => x.taskF i 0 1 == 2 && x.taskF i 4 4 == listid

/-- A budget violation of an RTLIST task is evidence against its die too (R416). -/
def Tx.clOverrun (t : Tx) (c i die : Nat) : Tx := (t.clViolation c i).clEvidence c die 0x31

/-- The budget of a task in ns (R415). -/
def Cleat.budgetNs (x : Cleat) (i : Nat) : Nat :=
  match (x.tasks.at i).budget with
  | some w => min (x.taskF i 0x10 4) (ceilDiv w 1000)
  | none => x.taskF i 0x10 4

/-- What a Cleat does on a notice (R418). -/
def Tx.clNotice (t : Tx) (c kind unit arg0 arg1 : Nat) : Tx :=
  let x := t.cl c
  let onTask (i : Nat) (f : CTask → CTask) (t : Tx) : Tx := t.onCl c fun x => { x with tasks := x.tasks.upd i f }
  let watching := x.st != .boot
  match kind with
  | 0x01 => if watching ∧ unit < 4 then (t.clEvidence c unit 0x01).clVote c unit 0x01 else t
  | 0x04 => match x.rtTask arg0 with
    | some i => if watching then t.clViolation c i else t
    | none => t
  | 0x05 => match x.rtTask arg0 with
    | some i =>
      let t := onTask i (fun k => { k with run := some (arg1, x.ct), die := unit }) t
      if watching ∧ (x.tasks.at i).budget.isNone then t.clOverrun c i unit else t
    | none => t
  | 0x06 => match x.rtTask arg0 with
    | some i =>
      let k := x.tasks.at i
      let late : Bool := match k.run with
        | some (ep, t0) => ep == arg1 && decide (x.budgetNs i + 6000 < x.ct - t0)
        | none => false
      let t := onTask i (fun k => { k with
        run := none, die := unit, commit := some x.est, budget := if k.revoke then none else k.budget, revoke := false }) t
      if late && watching then t.clOverrun c i unit
      else if (x.taskF i 8 4) = 0 then t.clGood c i else t
    | none => t
  | 0x0A | 0x0D => (t.onCl c fun x => { x with degraded := true }).clStatus c
  | 0x0B => t.onCl c fun x => { x with
      gone := if unit < 4 ∧ !bit x.gone unit then x.gone + 2 ^ unit else x.gone
      tasks := (List.range 128).foldl (fun ts i =>
        if x.taskF i 0 1 = 2 ∧ (x.tasks.at i).die = unit then ts.upd i fun k => { k with grace := x.moveGrace } else ts) x.tasks }
  | 0x0F => t.onCl c fun x => { x with poseBad := true }
  | 0x10 => t.onCl c fun x => { x with poseBad := false }
  | 0x13 =>
    if !x.paired then (t.onCl c fun x => { x with envelope := true }).clFault c 0x36
    else
      let t := (t.onCl c fun x => { x with degraded := true }).clStatus c
      if x.st = .engaged ∧ x.pair.synced then t.clAside c 0x36 else t
  | 0x02 | 0x03 | 0x07 | 0x08 | 0x09 | 0x0C | 0x0E | 0x11 | 0x12 => t.clEvent c 1 kind unit arg0
  | _ => t

/-- NOTICE (R405, R418). -/
def execNotice (c : Cleat2) (ct : Nat) (lseq : Word) (kind unit : BitVec 16) (_count : Word) (_tstamp arg0 arg1 : Nat) (s : State) :
    Host.Outcome State Fault Refusal :=
  clFrame c ct lseq.toNat (fun t =>
    let t := t.onCl c fun x => { x with ncount := x.ncount.upd kind.toNat fun n => (n + 1) % 2 ^ 32 }
    t.clNotice c kind.toNat unit.toNat arg0 arg1) s

/-! Tasks. -/

/-- HB (R415): the interval since the previous heartbeat of the task lies within PERIOD ± TOL, or the task is in violation. -/
def execHb (c : Cleat2) (ct : Nat) (lseq : Word) (task : BitVec 8) (_count : Word) (s : State) : Host.Outcome State Fault Refusal :=
  clFrame c ct lseq.toNat (fun t =>
    let x := t.cl c
    let i := task.toNat
    if 128 ≤ i ∨ x.taskF i 0 1 ≠ 1 ∨ x.st = .boot then t
    else
      let k := x.tasks.at i
      let p := x.taskF i 8 4 * 1000
      let tol := x.taskF i 12 4 * 1000
      let d := x.ct + 1 - k.last
      let off := k.last ≠ 0 ∧ (d + tol < p ∨ p + tol < d)
      let t := t.onCl c fun x => { x with tasks := x.tasks.upd i fun k => { k with last := x.ct + 1, due := some (x.ct + p + tol) } }
      if off then t.clViolation c i else t.clGood c i) s

/-- TASK_DUE (R415): the due instant of a task's next event passes. -/
def execTaskDue (c : Cleat2) (ct : Nat) (task : Fin 128) (s : State) : Host.Outcome State Fault Refusal :=
  clDoes c ct (fun t =>
    let x := t.cl c
    let i := task.val
    let k := x.tasks.at i
    if x.st = .boot then t
    else match x.taskF i 0 1 with
      | 1 | 3 => match k.due with
        | some d =>
          if x.ct < d then t
          else (t.onCl c fun x => { x with tasks := x.tasks.upd i fun k => { k with due := none } }).clViolation c i
        | none => t
      | 2 =>
        let p := x.taskF i 8 4 * 1000
        let a : Int := (x.taskF i 0x18 4 * 1000 + k.act * p : Nat)
        if p = 0 ∨ x.est < a + (x.taskF i 0x14 4 * 1000 + k.grace : Nat) then t
        else
          let met := match k.commit with
            | some e => decide (a ≤ e)
            | none => false
          let t := t.onCl c fun x => { x with tasks := x.tasks.upd i fun k => { k with act := k.act + 1, grace := 0 } }
          if met then t.clGood c i else t.clViolation c i
      | _ => t) s

/-! Certificates (R193 to R195, R417). -/

/-- R194 defines W for the entry, and its W obeys it. -/
def certEntryOk (b : List Byte) : Bool :=
  let s := fld b 4 4
  let w := fld b 8 4
  match unitOf (fld b 2 1) with
  | some .transfer => w == 20000 + fld b 12 4
  | some .sync => fld b 2 1 == 0x70 && w == 20000 + fld b 12 4
  | some _ => w == (s + 16) * 1250
  | none => false

/-- The result of an admission (R417): the first check that fails, or 0x01. -/
def Cleat.admission (x : Cleat) (task certlen : Nat) (cert : List Byte) (status : Nat) : Nat :=
  let n := fld cert 2 2
  let ents := (List.range n).map fun i => (cert.drop (64 + 16 * i)).take 16
  let crcOk := crc32c (patch cert 0x3C (leBytes 4 0)) == fld cert 0x3C 4
  let zero := fld cert 8 1 / 4 == 0 && fld cert 0x0C 4 == 0 && fld cert 0x24 4 == 0 && fld cert 0x38 4 == 0 &&
    ents.all fun e => fld e 3 1 / 4 == 0
  let sum (f : List Byte → Nat) : Nat := (ents.map f).foldl (· + ·) 0
  if status ≠ 0 then 0x06
  else if certlen ≠ 64 + 16 * n ∨ cert.length ≠ certlen ∨ fld cert 0 2 ≠ 1 ∨ !crcOk ∨ !zero then 0x02
  else if fld cert 0x0A 2 ≠ sum (fun e => fld e 3 1 % 2) ∨ fld cert 0x10 8 ≠ fld cert 0x0A 2 * 25000000 + sum (fun e => fld e 8 4) ∨
      fld cert 0x18 8 ≠ sum (fun e => fld e 12 4) ∨ !ents.all certEntryOk then 0x03
  else if 128 ≤ task ∨ x.taskF task 0 1 ≠ 2 ∨ x.taskF task 4 4 ≠ fld cert 4 4 then 0x05
  else if x.taskF task 0x10 4 * 1000 < fld cert 0x10 8 then 0x04
  else 0x01

/-- The answer to a request goes to its response slot. -/
def Tx.clRespond (t : Tx) (c tag result : Nat) : Tx :=
  (t.onCl c fun x => { x with rsp := x.rsp.put (tag % 64) (tag * 2 ^ 16 + result) }).clStatus c

/-- REQUEST (R417): an ADMIT awaits its certificate; a REVOKE takes effect after the list in progress. -/
def execRequest (c : Cleat2) (ct : Nat) (lseq : Word) (entry : List Byte) (s : State) : Host.Outcome State Fault Refusal :=
  clFrame c ct lseq.toNat (fun t =>
    let x := t.cl c
    let task := fld entry 1 1
    let tag := fld entry 2 2
    if entry.length ≠ 64 then t.clLinkFault c false
    else match fld entry 0 1 with
      | 1 => t.onCl c fun x => { x with req := some (1, task, tag, fld entry 4 4), cert := [] }
      | 2 =>
        if 128 ≤ task ∨ x.taskF task 0 1 ≠ 2 then t.clRespond c tag 0x05
        else
          let t := t.onCl c fun x => { x with tasks := x.tasks.upd task fun k =>
            if k.run.isSome then { k with revoke := true } else { k with budget := none } }
          t.clRespond c tag 0x07
      | _ => t) s

/-- CERT (R417): bytes of the certificate under way. -/
def execCert (c : Cleat2) (ct : Nat) (lseq : Word) (bytes : List Byte) (s : State) : Host.Outcome State Fault Refusal :=
  clFrame c ct lseq.toNat (fun t =>
    if 4096 < bytes.length then t.clLinkFault c false
    else if (t.cl c).req.isSome then t.onCl c fun x => { x with cert := x.cert ++ bytes } else t) s

/-- CERTEND (R417). -/
def execCertend (c : Cleat2) (ct : Nat) (lseq : Word) (tag : BitVec 16) (status : BitVec 8) (s : State) :
    Host.Outcome State Fault Refusal :=
  clFrame c ct lseq.toNat (fun t =>
    let x := t.cl c
    match x.req with
    | some (_, task, g, len) =>
      if g ≠ tag.toNat then t
      else
        let r := x.admission task len x.cert status.toNat
        let t := t.onCl c fun y => { y with
          req := none, cert := []
          tasks := if r = 1 then y.tasks.upd task fun k => { k with budget := some (fld x.cert 0x10 8), revoke := false } else y.tasks }
        t.clRespond c g r
    | none => t) s

/-! The vehicle's frames. -/

/-- CRC-8 of SAE J1850 (R408). -/
def crc8J1850 (bs : List Byte) : Nat := crcL 8 0x1D 0xFF bs ^^^ 0xFF

/-- The raw signal of a frame that is valid for entry `i` (R408), and its counter. -/
def Cleat.canValid (x : Cleat) (i port : Nat) (ide : Bool) (id : Nat) (data : List Byte) : Option (Int × Nat) :=
  let f := x.canF i
  let cb := f 0x14 2
  let crcb := f 0x16 1
  let n := data.length
  let idOk := bit (f 0 4) 31 == ide && (if ide then f 0 4 % 2 ^ 29 == id else f 0 4 % 2 ^ 11 == id % 2 ^ 11)
  let ctr := (List.range 4).foldl (fun r k => r + canBit data (cb + k) * 2 ^ k) 0
  let moved := match (x.canin.at i).ctr with
    | some o => let d := (ctr + 16 - o) % 16; decide (1 ≤ d) && decide (d ≤ 3)
    | none => true
  if f 4 1 ≠ port ∨ !idOk ∨ 8 * n < cb + 4 ∨ n ≤ crcb then none
  else if crc8J1850 (data.take crcb ++ data.drop (crcb + 1)) ≠ fld data crcb 1 ∨ !moved then none
  else match canSignal data (f 8 2) (f 10 1) (f 11 1) with
    | some raw => some (raw, ctr)
    | none => none

/-- A frame on a Cleat's CAN FD port is taken by every entry of these KINDs that it is valid for; `f` acts on each. -/
def Tx.clCan (t : Tx) (c port : Nat) (ide : Bool) (id : Nat) (data : List Byte) (kinds : Nat → Bool)
    (f : Tx → Nat → Int → Tx) : Tx :=
  t.each (List.range 32) fun t i =>
    let x := t.cl c
    if !kinds (x.canF i 5 1) then t
    else match x.canValid i port ide id data with
      | some (raw, ctr) => f (t.onCl c fun x => { x with canin := x.canin.put i ⟨some ctr, x.ct + 1⟩ }) i raw
      | none => t

/-- A partner Cleat's stop record heard on a CAN FD port (R487). -/
def Tx.clHear (t : Tx) (c id : Nat) (data : List Byte) : Tx :=
  let x := t.cl c
  let ids := [x.spbF 0x1DD8 4 + 0x10 * (1 - modid), x.spbF 0x1DDC 4 + 0x10 * (1 - modid)]
  if x.spb.isSome ∧ data.length = 64 ∧ fld data 0 1 = 0x51 ∧ fld data 1 1 < 2 ∧ crc32c (data.take 60) = fld data 60 4 ∧
      ids.any (fun i => i % 2 ^ 29 == id) then
    (t.onPair c fun p => { p with partner := p.partner.upd (fld data 1 1) fun q => { q with heard := x.ct + 1, state := fld data 2 1 } }).clJudge c
  else t

/-- CLEAT_CAN_FRAME (R408): the frame, stamped with est at its start-of-frame bit, gives its signals their values. -/
def execCleatCanFrame (c : Cleat2) (ct : Nat) (port : Fin 2) (ide : Bool) (id : BitVec 29) (data : List Byte) (s : State) :
    Host.Outcome State Fault Refusal :=
  clDoes c ct (fun t =>
    let t := t.clCan c port ide id.toNat data (fun k => decide (1 ≤ k) && decide (k ≤ 4)) fun t i raw =>
      t.onCl c fun x =>
        let kind := x.canF i 5 1
        let v := raw * sint 32 (x.canF i 12 4) + sint 32 (x.canF i 16 4)
        let keep := (x.hist.at kind).filter fun h => decide (x.est - 700000000 ≤ h.1)
        let slow := if kind ≠ 1 then x.slow else if v * 10 < 65536 then (if x.slow = 0 then x.ct + 1 else x.slow) else 0
        { x with hist := x.hist.put kind ((x.est, v) :: keep), slow := slow }
    let t := t.onCl c fun x => { x with vehLost := x.vehLost && !x.vehicleOk }
    ((t.clHear c id.toNat data).clTryReady c)) s

/-- VEHICLE_STATE_LOST (R408): a needed signal is missing beyond PERIOD + 5 ms. -/
def execVehicleStateLost (c : Cleat2) (ct : Nat) (s : State) : Host.Outcome State Fault Refusal :=
  clDoes c ct (fun t =>
    let x := t.cl c
    if x.spb.isNone ∨ x.vehLost ∨ x.vehicleOk then t
    else (t.onCl c fun x => { x with vehLost := true }).clFault c 0x32) s

/-- A frame commands: its signal has length 0, or is not zero (R408). -/
def Cleat.commands (x : Cleat) (i : Nat) (raw : Int) : Bool := x.canF i 10 1 == 0 || raw != 0

/-- The conditions of an engagement (R420, R429). -/
def Cleat.mayEngage (x : Cleat) : Bool :=
  x.st == .ready && decide (10 ≤ x.run) && x.tasks.all (fun k => !k.2.viol) && !x.degraded && !x.latent && x.clear

/-- ENGAGE (R408, R420). -/
def execEngage (c : Cleat2) (ct : Nat) (port : Fin 2) (ide : Bool) (id : BitVec 29) (data : List Byte) (s : State) :
    Host.Outcome State Fault Refusal :=
  clDoes c ct (fun t => t.clCan c port ide id.toNat data (· == 5) fun t i raw =>
    let x := t.cl c
    if x.commands i raw ∧ x.mayEngage then (t.onPair c fun p => { p with aside := false }).clEnter c .engaged else t) s

/-- DISENGAGE (R408, R420). -/
def execDisengage (c : Cleat2) (ct : Nat) (port : Fin 2) (ide : Bool) (id : BitVec 29) (data : List Byte) (s : State) :
    Host.Outcome State Fault Refusal :=
  clDoes c ct (fun t => t.clCan c port ide id.toNat data (· == 6) fun t i raw =>
    let x := t.cl c
    if x.commands i raw ∧ (x.st = .engaged ∨ x.st = .stopping) then t.clEnter c .ready else t) s

/-- STOP_RECORD_PUBLISH (R424): an ACTIVE record every 10 ms; a STANDBY record at any instant, at least every 50 ms. -/
def execStopRecordPublish (c : Cleat2) (ct : Nat) (s : State) : Host.Outcome State Fault Refusal :=
  clDoes c ct (fun t =>
    let x := t.cl c
    if x.st = .stopping ∧ x.published ≠ 0 ∧ x.ct + 1 < x.published + 10000000 then t else t.clPublish c) s

/-- STANDSTILL (R420): the measured speed has stayed below 0.1 m/s for 1 s. -/
def execStandstill (c : Cleat2) (ct : Nat) (s : State) : Host.Outcome State Fault Refusal :=
  clDoes c ct (fun t =>
    let x := t.cl c
    if x.st = .stopping ∧ x.slow ≠ 0 ∧ x.slow + 1000000000 ≤ x.ct + 1 then t.clEnter c .ready else t) s

/-! SAFE, boots and tests (R401, R429, R559). -/

/-- Cleat `c` resets and boots again into BOOT, its self-test passed; nothing of an earlier state remains. -/
def Tx.clBoot (t : Tx) (c : Nat) : Tx :=
  let t := if (t.cl c).st = .engaged then t.send ("GATE-" ++ cleatName c) "STATIC" [] else t
  t.onCl c fun x => { ct := x.ct, tested := x.ct, outside := x.ct, otp := x.otp }

/-- CLEAT_SAFE (R401): the gate line becomes static and the ports fall silent; the Cleat boots again at once, or when its supply
returns if that is what was lost. -/
def execCleatSafe (c : Cleat2) (ct : Nat) (lost : Bool) (s : State) : Host.Outcome State Fault Refusal :=
  clDoes c ct (fun t => (t.clBoot c).onCl c fun x => { x with dark := lost }) s

/-- CLEAT_THERMAL_TRIP (R400, R401): the core power goes. -/
def execCleatThermalTrip (c : Cleat2) (ct : Nat) (s : State) : Host.Outcome State Fault Refusal :=
  clDoes c ct (fun t => (t.clBoot c).onCl c fun x => { x with st := .tripped }) s

/-- CLEAT_COOLED (R401): below 125 °C power returns and the Cleat boots. -/
def execCleatCooled (c : Cleat2) (ct : Nat) (s : State) : Host.Outcome State Fault Refusal :=
  s.does fun t => if (t.cl c).st = .tripped then (t.onCl c fun x => { x with ct := max x.ct ct }).clBoot c else t

/-- CLEAT_RESET_PIN (R559). -/
def execCleatResetPin (c : Cleat2) (ct : Nat) (s : State) : Host.Outcome State Fault Refusal :=
  clDoes c ct (fun t => t.clBoot c) s

/-- CLEAT_POWER_UP (R559): the Cleat's own supply returns. -/
def execCleatPowerUp (c : Cleat2) (ct : Nat) (s : State) : Host.Outcome State Fault Refusal :=
  s.does fun t => if (t.cl c).dark then (t.onCl c fun x => { x with ct := max x.ct ct }).clBoot c else t

/-- CLEAT_SRAM_SCRUB (R400): every word is read and corrected; its contents stay. -/
def execCleatSramScrub (c : Cleat2) (ct : Nat) (s : State) : Host.Outcome State Fault Refusal := clDoes c ct (fun t => t) s

/-- LATENT_TEST (R429): once 60 minutes have passed, at the first stay of 1 s outside ENGAGED and STOPPING. -/
def execLatentTest (c : Cleat2) (ct : Nat) (pass : Bool) (s : State) : Host.Outcome State Fault Refusal :=
  clDoes c ct (fun t =>
    let x := t.cl c
    if x.st = .engaged ∨ x.st = .stopping ∨ x.ct ≤ x.tested + 3600000000000 ∨ x.ct < x.outside + 1000000000 then t
    else if pass then (t.onCl c fun x => { x with tested := x.ct, latent := false }).clStatus c
    else t.clBoot c) s

/-- LATENT_OVERDUE (R429): ten hours without a passed test. -/
def execLatentOverdue (c : Cleat2) (ct : Nat) (s : State) : Host.Outcome State Fault Refusal :=
  clDoes c ct (fun t =>
    let x := t.cl c
    if x.latent ∨ x.ct ≤ x.tested + 36000000000000 then t
    else ((t.onCl c fun x => { x with latent := true }).clEvent c 2 0 0 0).clStatus c) s

/-- VOTE_WITHDRAW (R426): no evidence against the die for 1 s, and the die not expelled. -/
def execVoteWithdraw (c : Cleat2) (ct : Nat) (d : Die) (s : State) : Host.Outcome State Fault Refusal :=
  clDoes c ct (fun t =>
    let x := t.cl c
    if !bit x.vote d ∨ bit x.gone d ∨ x.evidence.any (fun e => e.2 == d.val && decide (x.ct < e.1 + 1000000000)) then t
    else (t.onCl c fun x => { x with vote := x.vote - 2 ^ d.val }).clSend c "VOTE" (leBytes 2 (256 * d.val) ++ leBytes 6 0)) s

end Sys2Proof.Machine
end

