-- ==== Sys2Proof/Machine/Builder.lean ====
section
/-! DEFINITION.  The sequence table and the round builder (R201 to R216): token placement, the list and
certificate of a round, submission, commit and failure. -/

namespace Sys2Proof.Machine

/-! ### The table -/

/-- The state codes of R205. -/
def seqFree : Nat := 0
def seqJoin : Nat := 1
def seqActive : Nat := 2
def seqLeave : Nat := 3

/-- The audit field that counts entries in a state (R230). -/
def seqAudit (d st : Nat) : FRef :=
  match st with
  | 0 => CD_SEQ_AUD0_NFREE d
  | 1 => CD_SEQ_AUD1_NJOIN d
  | 2 => CD_SEQ_AUD0_NACTIVE d
  | _ => CD_SEQ_AUD1_NLEAVE d

/-- Entry `e` enters state `st`; the audit follows (R206). -/
def Tx.seqSet (t : Tx) (d e st : Nat) : Tx :=
  let old := t.rd (CD_SEQ_ENT0_STATE d e)
  let t := t.wr (seqAudit d old) (t.rd (seqAudit d old) - 1)
  (t.wr (seqAudit d st) (t.rd (seqAudit d st) + 1)).wr (CD_SEQ_ENT0_STATE d e) st

/-- The address of an entry's page table (R231). -/
def Tx.ptaddr (t : Tx) (d e : Nat) : Nat :=
  t.word (CD_SEQ_ENT5 d e) / 512 * 512 + bits (t.word (CD_SEQ_ENT6 d e)) 15 0 * 2 ^ 32

/-! ### The builder's work -/

/-- A builder step: the command so far, and a fault's code and information; code 0 where a target holds
the access. -/
abbrev Build := ExceptT (Nat × Nat) (StateM Tx)

/-- A builder access that faults raises 0x63 (R214). -/
def bRead (d cls ctx va n : Nat) : Build (List Byte) := do
  let t ← get
  match t.dieRead d cls ctx va n with
  | (t, .ok bs) => set t; pure bs
  | (_, .held) => throw (0, 0)
  | (t, _) => set t; throw (0x63, 0)

/-- A builder write. -/
def bWrite (d cls ctx va : Nat) (bs : List Byte) : Build Unit := do
  let t ← get
  match t.dieWrite d cls ctx va bs with
  | (t, .ok ()) => set t
  | (_, .held) => throw (0, 0)
  | (t, _) => set t; throw (0x63, 0)

/-- The template header (R210). -/
structure Tpl where
  h : List Byte

namespace Tpl
def f (p : Tpl) (o n : Nat) : Nat := entF p.h o n
def stepaddr (p : Tpl) : Nat := p.f 0x00 8
def patchaddr (p : Tpl) : Nat := p.f 0x08 8
def tcert (p : Tpl) : Nat := p.f 0x10 8
def list (p : Tpl) : Nat := p.f 0x18 8
def cert (p : Tpl) : Nat := p.f 0x20 8
def commit (p : Tpl) : Nat := p.f 0x28 8
def save (p : Tpl) : Nat := p.f 0x30 8
def npre (p : Tpl) : Nat := p.f 0x38 2
def nseg (p : Tpl) : Nat := p.f 0x3A 2
def npost (p : Tpl) : Nat := p.f 0x3C 2
def npatch (p : Tpl) : Nat := p.f 0x3E 2
def pgload (p : Tpl) : Nat := p.f 0x40 2
def bmax (p : Tpl) : Nat := p.f 0x42 2
def maxpg (p : Tpl) : Nat := p.f 0x44 1
def lg2tok (p : Tpl) : Nat := p.f 0x45 1
def client (p : Tpl) : Nat := p.f 0x46 1
def partbase (p : Tpl) : Nat := p.f 0x48 4
def partsize (p : Tpl) : Nat := p.f 0x4C 4
def devctx (p : Tpl) : Nat := p.f 0x50 2
def tokb (p : Tpl) : Nat := 2 ^ p.lg2tok
def tpp (p : Tpl) : Nat := 2 ^ (14 - p.lg2tok)
def hasPg (p : Tpl) : Bool := p.pgload != 0xFFFF
/-- The template's steps in all. -/
def total (p : Tpl) : Nat := p.npre + p.nseg + p.npost
/-- The template index of the page-load step. -/
def pgIdx (p : Tpl) : Nat := p.npre + p.pgload
/-- The header's own checks, fault 0x60. -/
def bad (p : Tpl) (rt : Bool) : Bool :=
  crc32c (p.h.take 0x7C) != p.f 0x7C 4 || p.f 0x47 1 != 0 || p.f 0x52 42 != 0 || p.nseg == 0 ||
    p.bmax == 0 || p.bmax > 256 || p.maxpg == 0 || p.maxpg > 64 || p.lg2tok < 6 || p.lg2tok > 14 || p.client > 63 ||
    (p.hasPg && p.pgload ≥ p.nseg) || p.partbase % 0x10000 != 0 || p.partsize % 0x10000 != 0 || p.partsize == 0 ||
    p.partbase + p.partsize > 0x1800000 || (p.tcert != 0) != (p.cert != 0) || (p.tcert != 0) != rt ||
    decide (p.npre + p.bmax * (if p.hasPg then p.nseg - 1 + p.maxpg else p.nseg) + p.npost > 65535)
end Tpl

/-- The builder's working copy of the pool and of the page tables (R213). -/
structure Work where
  pool : Nat
  writes : List (Nat × Nat) := []
  dry : Bool := false

/-- A sequence placed in the round (R203). -/
structure Placed where
  e : Nat
  npg : Nat
  first : Nat
  len : Nat
  tok : Nat
  fresh : Bool

/-- An 8-byte slot as the working copy has it. -/
def bSlot (d cls ctx : Nat) (w : Work) (va : Nat) : Build Nat :=
  match w.writes.find? (·.1 == va) with
  | some (_, v) => pure v
  | none => do
    let bs ← bRead d cls ctx va 8
    pure (leNat bs)

/-- A slot of a page table within NPG: fault 0x64 where it is not valid. -/
def bPage (d cls ctx : Nat) (w : Work) (e va : Nat) : Build Nat := do
  let v ← bSlot d cls ctx w va
  if bit v 0 then pure v else throw (0x64, e)

/-- `place_token` of R203 for entry `e`: the working copy after it, and the placed sequence unless it is
left out of the round. -/
def placeToken (d : Nat) (p : Tpl) (pool : Nat) (w : Work) (e : Nat) : Build (Work × Option Placed) := do
  let t ← get
  let pt := t.ptaddr d e
  let len := t.word (CD_SEQ_ENT2 d e)
  let npg := t.rd (CD_SEQ_ENT0_NPG d e)
  let first := t.rd (CD_SEQ_ENT0_FIRST d e)
  let fresh := t.is (CD_SEQ_ENT0_FRESH d e)
  let slot (i : Nat) := pt + i % p.maxpg * 8
  let finish (w : Work) (npg first : Nat) : Build (Work × Option Placed) := do
    let newest ← bPage d p.client p.devctx w e (slot (first + npg - 1))
    let tok := newest / 2 ^ 14 * 2 ^ 14 % 2 ^ 48 + len % p.tpp * p.tokb
    pure (w, some ⟨e, npg, first, (npg - 1) * p.tpp + len % p.tpp + 1, tok, fresh⟩)
  if len % p.tpp = 0 then
    if npg < p.maxpg ∧ w.pool > 0 then
      let page ← bSlot d p.client p.devctx w (pool + (w.pool - 1) * 8)
      finish { w with pool := w.pool - 1, writes := (slot (first + npg), page ||| 1) :: w.writes } (npg + 1) first
    else if npg > 0 then
      let moved := slot (first + npg)
      let v ← bPage d p.client p.devctx w e (slot first)
      let w := { w with writes := (moved, v) :: w.writes }
      let w := if moved = slot first then w else { w with writes := (slot first, 0) :: w.writes, dry := true }
      finish w npg ((first + 1) % p.maxpg)
    else pure ({ w with dry := true }, none)
  else if npg = 0 then throw (0x64, e)
  else finish w npg first

/-- The pages of entry `e` go back to the pool, oldest first (R213, step 2). -/
def returnPages (d : Nat) (p : Tpl) (pool : Nat) (w : Work) (e : Nat) : Build Work := do
  let t ← get
  let pt := t.ptaddr d e
  let first := t.rd (CD_SEQ_ENT0_FIRST d e)
  (List.range (t.rd (CD_SEQ_ENT0_NPG d e))).foldlM (fun w i => do
    let v ← bPage d p.client p.devctx w e (pt + (first + i) % p.maxpg * 8)
    pure { w with pool := w.pool + 1, writes := (pool + w.pool * 8, v / 2 * 2) :: w.writes }) w

/-- A patch entry (R211). -/
structure Patch where
  tstep : Nat
  word : Nat
  lsb : Nat
  width : Nat
  kind : Nat
  mul : Nat

/-- The patch breaks R211 (fault 0x61). -/
def Patch.bad (q : Patch) (p : Tpl) : Bool :=
  q.tstep ≥ p.total || q.word < 16 || q.word > 47 || q.lsb > 31 || q.width == 0 || q.width > 48 || q.kind > 7 ||
    decide (q.word * 32 + q.lsb + q.width > 48 * 32) ||
    (q.kind ≥ 1 && q.kind ≤ 6 && !(decide (p.npre ≤ q.tstep) && decide (q.tstep < p.npre + p.nseg))) ||
    (q.kind == 6 && q.mul != 1)

/-- A step of the generated list: its template step, its batch row and sequence, the page it loads, and
where its section copy starts and how many pages that copy loads. -/
structure Gen where
  tstep : Nat
  row : Nat := 0
  seq : Option Placed := none
  page : Option Nat := none
  start : Nat
  secLo : Nat
  secHi : Nat
  pages : Nat := 1

/-- The steps of a section copy in order. -/
def sectionGens (p : Tpl) (start lo hi row : Nat) (seq : Option Placed) : List Gen :=
  (List.range (hi - lo)).flatMap fun k =>
    match seq with
    | some s =>
      if p.hasPg ∧ lo + k = p.pgIdx then
        (List.range s.npg).map fun i => ⟨lo + k, row, seq, some i, start, lo, hi, s.npg⟩
      else [⟨lo + k, row, seq, none, start, lo, hi, if p.hasPg then s.npg else 1⟩]
    | none => [⟨lo + k, row, seq, none, start, lo, hi, 1⟩]

/-- The generated list: PRE, one SEG copy per placed sequence, POST (R213, step 5). -/
def gens (p : Tpl) (ps : List Placed) : List Gen :=
  let pre := sectionGens p 0 0 p.npre 0 none
  let segs := (List.range ps.length).zip ps |>.foldl (fun acc (b, s) =>
    acc ++ sectionGens p (pre.length + acc.length) p.npre (p.npre + p.nseg) b (some s)) []
  pre ++ segs ++ sectionGens p (pre.length + segs.length) (p.npre + p.nseg) p.total 0 none

/-- The positions in the generated list of template step `m`'s instance in the section copy of `g`. -/
def Gen.instances (g : Gen) (p : Tpl) (m : Nat) : List Nat :=
  if g.seq.isSome ∧ p.hasPg ∧ m = p.pgIdx then (List.range g.pages).map fun i => g.start + (m - g.secLo) + i
  else if g.seq.isSome ∧ p.hasPg ∧ m > p.pgIdx then [g.start + (m - g.secLo) + (g.pages - 1)]
  else [g.start + (m - g.secLo)]

/-- The header word 0 and DEPMASK of the generated step at `pos` (R212). -/
def Gen.header (g : Gen) (p : Tpl) (pos w0 dep : Nat) : Nat × Nat :=
  let named := (List.range 32).filterMap fun i => if bit dep i then some (g.tstep - 1 - i, decide (g.tstep ≥ i + 1)) else none
  let inside := named.all fun (m, ok) => ok && decide (g.secLo ≤ m) && decide (m < g.secHi)
  let back := (named.flatMap fun (m, _) => g.instances p m).map fun q => pos - q
  if inside && back.all (fun k => decide (1 ≤ k) && decide (k ≤ 32)) then (w0, back.foldl (fun m k => m ||| 2 ^ (k - 1)) 0)
  else (w0 ||| 2 ^ 30, 0)

/-- The value a patch of KIND `k` takes (R211). -/
def patchValue (t : Tx) (d b round : Nat) (g : Gen) (q : Patch) : Nat :=
  match g.seq with
  | some s =>
    match q.kind with
    | 0 => b
    | 1 => g.row
    | 2 => s.len
    | 3 => s.npg
    | 4 => if s.fresh then t.rd (CD_SEQ_ENT4_OBSROW d s.e) else t.rd (CD_SEQ_ENT4_OUTROW d s.e)
    | 5 => t.rd (CD_SEQ_ENT4_OUTROW d s.e)
    | 6 => s.tok
    | _ => round % 2 ^ q.width
  | none => if q.kind = 0 then b else round % 2 ^ q.width

/-- One generated step's 192 bytes as a number (R211 to R213). -/
def genStep (d b round : Nat) (p : Tpl) (w : Work) (patches : List (Nat × Patch)) (tw : List Nat) (pos : Nat) (g : Gen) :
    Build Nat := do
  let t ← get
  let base := tw.getD g.tstep 0
  let (w0, dep) := g.header p pos (bits base 31 0) (bits base 63 32)
  let v := putBits (putBits (putBits base 31 0 w0) 63 32 dep) 79 64 pos
  let v ← match g.seq, g.page with
    | some s, some i => do
      let slot ← bPage d p.client p.devctx w s.e (t.ptaddr d s.e + (s.first + i) % p.maxpg * 8)
      let va := slot / 2 ^ 14 * 2 ^ 14 % 2 ^ 48
      pure (putBits (putBits v (17 * 32 + 47) (17 * 32) va) (19 * 32 + 24) (19 * 32) (bits v (19 * 32 + 24) (19 * 32) + i * 0x4000))
    | _, _ => pure v
  patches.foldlM (fun v (k, q) =>
    if q.tstep = g.tstep then
      let lo := q.word * 32 + q.lsb
      let x := bits v (lo + q.width - 1) lo + patchValue t d b round g q * q.mul
      if x ≥ 2 ^ q.width then throw (0x62, k) else pure (putBits v (lo + q.width - 1) lo x)
    else pure v) v

/-- The round certificate (R213, step 6; R193 to R195). -/
def roundCert (head : List Byte) (ents : List (List Byte)) : List Byte :=
  let ents := (List.range ents.length).zip ents |>.map fun (i, e) => leBytes 2 i ++ e.drop 2
  let j := (ents.filter fun e => bit (entF e 3 1) 0).length
  let sw := (ents.map fun e => entF e 8 4).foldl (· + ·) 0
  let sm := (ents.map fun e => entF e 12 4).foldl (· + ·) 0
  let h := head.take 2 ++ leBytes 2 ents.length ++ (head.drop 4).take 6 ++ leBytes 2 j ++ (head.drop 12).take 4 ++
    leBytes 8 (j * 25000000 + sw) ++ leBytes 8 sm ++ (head.drop 0x20).take 0x1C
  let body := ents.flatten
  h ++ leBytes 4 (crc32c (h ++ leBytes 4 0 ++ body)) ++ body

/-- Entries of a die in a state, in ascending index. -/
def Tx.seqIn (t : Tx) (d st : Nat) : List Nat := (List.range 256).filter fun e => t.rd (CD_SEQ_ENT0_STATE d e) == st

/-- An ACTIVE entry at the stale limit (R205). -/
def Tx.stale (t : Tx) (d e : Nat) : Bool :=
  let lim := t.rd (CD_SEQ_CTL_STALELIM d)
  lim != 0 && decide (t.rd (CD_SEQ_ENT0_STALE d e) ≥ lim)

/-- The log of a ring's size; values outside 4 to 12 act as 4 (R200). -/
def Tx.ringLog (t : Tx) (d r : Nat) : Nat :=
  let l := t.rd (CD_SCH_RCFG_LOG2SZ d r)
  if 4 ≤ l ∧ l ≤ 12 then l else 4

/-- The entries doorbelled and not fetched (R166). -/
def Tx.ringPending (t : Tx) (d r : Nat) : Nat :=
  (t.rd (CD_SCH_RPTR_DBTAIL d r) + 2 ^ t.ringLog d r - t.rd (CD_SCH_RPTR_HEAD d r)) % 2 ^ t.ringLog d r

/-- A round is built and submitted (R213, steps 1 to 7); no list where nothing is placed. -/
def buildRound (d : Nat) : Build Unit := do
  let t ← get
  let ring := t.rd (CD_SEQ_CTL_RING d)
  let rctx := t.rd (CD_SCH_RCFG_RDEVCTX d ring)
  let h ← bRead d 0 rctx (sext48 (t.pair (CD_SEQ_TPL_LO d) / 64 * 64)) 128
  let p : Tpl := ⟨h⟩
  if p.bad (t.rt d ring) then throw (0x60, 0)
  let cls := p.client
  let steps ← (List.range p.total).mapM fun k => do
    let bs ← bRead d cls p.devctx (p.stepaddr + 192 * k) 192
    pure (leNat bs)
  if p.hasPg then
    let pg := steps.getD p.pgIdx 0
    if bits pg (16 * 32 + 31) (16 * 32 + 24) ≠ 0x60 ∨ bits pg (21 * 32 + 15) (21 * 32) ≠ 1 ∨
        bits pg (20 * 32 + 20) (20 * 32) ≠ 16384 then throw (0x60, 0)
  let pool := sext48 (t.pair (CD_SEQ_POOL_LO d) / 64 * 64)
  let freed := t.seqIn d seqLeave ++ (t.seqIn d seqActive).filter (t.stale d)
  let freed := (List.range 256).filter fun e => freed.contains e
  let w ← freed.foldlM (returnPages d p pool) { pool := t.rd (CD_SEQ_POOLCNT_POOLCNT d) }
  let staying := (t.seqIn d seqActive).filter fun e => !freed.contains e
  let joined := (t.seqIn d seqJoin).take (p.bmax - staying.length)
  let active := (List.range 256).filter fun e => staying.contains e || joined.contains e
  let (w, placed) ← active.foldlM (fun (w, ps) e => do
    let (w, q) ← placeToken d p pool w e
    pure (w, match q with
      | some s => ps ++ [s]
      | none => ps)) (w, ([] : List Placed))
  modify fun t => if w.dry then t.set1 (CD_SEQ_STAT_POOLDRY d) else t
  if placed = [] then pure ()
  else
    let raw ← bRead d cls p.devctx p.patchaddr (8 * p.npatch)
    let patches := (List.range p.npatch).map fun k =>
      (k, (⟨entF raw (8 * k) 2, entF raw (8 * k + 2) 1, entF raw (8 * k + 3) 1, entF raw (8 * k + 4) 1,
        entF raw (8 * k + 5) 1, entF raw (8 * k + 6) 2⟩ : Patch))
    match patches.find? fun (_, q) => q.bad p with
    | some (k, _) => throw (0x61, k)
    | none => pure ()
    let round := t.word (CD_SEQ_ROUND d)
    let gs := gens p placed
    for (pos, g) in (List.range gs.length).zip gs do
      let v ← genStep d placed.length round p w patches steps pos g
      bWrite d cls p.devctx (p.list + 192 * pos) (leBytes 192 v)
    if p.cert ≠ 0 then
      let head ← bRead d cls p.devctx p.tcert 64
      let ents ← gs.mapM fun g => bRead d cls p.devctx (p.tcert + 64 + 16 * g.tstep) 16
      bWrite d cls p.devctx p.cert (roundCert head ents)
    let tail := t.rd (CD_SCH_RPTR_DBTAIL d ring)
    let entry := leBytes 8 p.list ++ leBytes 8 p.commit ++ leBytes 8 p.save ++ leBytes 8 p.cert ++ leBytes 8 0 ++
      leBytes 4 round ++ leBytes 2 gs.length ++ leBytes 1 p.client ++ leBytes 1 0 ++ leBytes 4 p.partbase ++
      leBytes 4 p.partsize ++ leBytes 2 p.devctx ++ leBytes 1 0 ++ leBytes 1 0x1F ++ leBytes 4 0
    bWrite d cls rctx (sext48 (t.pair (CD_SCH_RBASE_LO d ring) / 64 * 64) + tail * 64) entry
    modify fun t =>
      let r : Round := { slot := tail, devctx := p.devctx, placed := placed.map fun s => (s.e, s.npg, s.first, s.fresh),
                         joined := joined, freed := freed, writes := w.writes.reverse, pool := w.pool }
      ((t.onSch d fun s => { s with round := some r }).set1 (CD_SEQ_STAT_RBUSY d)).wr (CD_SCH_RPTR_DBTAIL d ring)
        ((tail + 1) % 2 ^ t.ringLog d ring)

/-- The number of the next round: it counts on and skips 0 (R230). -/
def Tx.nextRound (t : Tx) (d : Nat) : Tx :=
  let n := (t.word (CD_SEQ_ROUND d) + 1) % 2 ^ 32
  t.setWord (CD_SEQ_ROUND d) (if n = 0 then 1 else n)

/-- A GIVE takes effect: MODE is runtime (R207). -/
def Tx.handBack (t : Tx) (d : Nat) : Tx :=
  ((t.onSch d fun s => { s with givePend := false, kicks := 0 }).wr (CD_SEQ_STAT_MODE d) 0).set1 (CD_SEQ_STAT_HANDBACK d)

/-- A builder fault (R214): BFAULT and its code; the staged changes are discarded. -/
def Tx.builderFault (t : Tx) (d code info : Nat) : Tx :=
  (((t.set1 (CD_SEQ_STAT_BFAULT d)).wr (CD_SEQ_BFLT_BCODE d) code).wr (CD_SEQ_BFLT_BINFO d) info).irq (128 + 16 * d + 12)

/-- The builder's attempt at a tick (R209). -/
def Tx.builderAttempt (t : Tx) (d : Nat) : Tx :=
  let ring := t.rd (CD_SEQ_CTL_RING d)
  if t.is (CD_SEQ_STAT_RBUSY d) ∨ (t.ctxOf d ring).st ≠ .idle ∨ t.ringPending d ring + 1 ≥ 2 ^ t.ringLog d ring then
    t.inc (CD_SEQ_AUD2_OVRCNT d)
  else match (buildRound d).run t with
    | (.ok (), t') => t'
    | (.error (0, _), _) => t
    | (.error (code, info), t') => (t'.builderFault d code info).nextRound d

/-- The table image of R215: header and entries. -/
def Tx.tableImage (t : Tx) (d : Nat) : List Byte :=
  let ents := (List.range 256).flatMap fun e => (List.range 8).flatMap fun w => leBytes 4 (t.word (CD_SEQ_ENT0 d e + 4 * w))
  let h := leBytes 4 (t.word (CD_SEQ_ROUND d)) ++ leBytes 1 d ++ leBytes 55 0
  h ++ leBytes 4 (crc32c (h ++ leBytes 4 0 ++ ents)) ++ ents

/-- A placed entry's staged changes take effect (R213, step 9). -/
def Tx.commitPlaced (t : Tx) (d : Nat) (x : Nat × Nat × Nat × Bool) : Tx :=
  let (e, npg, first, fresh) := x
  let stale := if fresh then 0 else satAdd 8 (t.rd (CD_SEQ_ENT0_STALE d e)) 1
  let t := (((t.wr (CD_SEQ_ENT0_NPG d e) npg).wr (CD_SEQ_ENT0_FIRST d e) first).wr (CD_SEQ_ENT0_STALE d e) stale)
  let t := if fresh then t.wr (CD_SEQ_ENT0_FRESH d e) 0 else t
  (t.setWord (CD_SEQ_ENT2 d e) (t.word (CD_SEQ_ENT2 d e) + 1)).setWord (CD_SEQ_ENT3 d e) (t.word (CD_SEQ_ROUND d))

/-- ROUND_COMMIT (R213, step 9): the staged changes become visible, the image is written, the round
number counts on, and a GIVE that waited takes effect. -/
def Tx.roundCommit (t : Tx) (d : Nat) : Tx :=
  match (t.schOf d).round with
  | none => t
  | some r =>
    let cls := (t.ctxOf d (t.rd (CD_SEQ_CTL_RING d))).client
    let t := t.each r.writes fun t (va, v) => (t.dieWrite d cls r.devctx va (leBytes 8 v)).1
    let t := t.each r.joined fun t e => if t.rd (CD_SEQ_ENT0_STATE d e) = seqJoin then t.seqSet d e seqActive else t
    let t := t.each r.placed fun t x => t.commitPlaced d x
    let t := t.each r.freed fun t e => (t.seqSet d e seqFree).wr (CD_SEQ_ENT0_NPG d e) 0
    let t := t.wr (CD_SEQ_POOLCNT_POOLCNT d) r.pool
    let t := match t.dieWrite d cls r.devctx (sext48 (t.pair (CD_SEQ_TIMG_LO d) / 64 * 64)) (t.tableImage d) with
      | (t, .ok ()) => t
      | (t, _) => t.builderFault d 0x63 0
    let t := ((t.onSch d fun s => { s with round := none }).wr (CD_SEQ_STAT_RBUSY d) 0).nextRound d
    if (t.schOf d).givePend then t.handBack d else t

/-- ROUND_FAIL (R214): the round list has stopped; every staged change is discarded and RFAIL sets. -/
def Tx.roundFail (t : Tx) (d : Nat) : Tx :=
  if (t.schOf d).round.isNone then t
  else
    let t := ((t.onSch d fun s => { s with round := none }).wr (CD_SEQ_STAT_RBUSY d) 0).set1 (CD_SEQ_STAT_RFAIL d)
    let t := (t.nextRound d).irq (128 + 16 * d + 12)
    if (t.schOf d).givePend then t.handBack d else t

end Sys2Proof.Machine
end

