-- ==== Sys2Proof/Machine/WorkLists.lean ====
section
/-! DEFINITION.  The step scheduler's commands (R164 to R192, R196): rings, decode, the runs of the
engines, transfers, sync steps, commit, restart records and context commands; and the engines' control
writes (R89 to R91, R131). -/

namespace Sys2Proof.Machine

/-! ### Doorbell and fetch -/

/-- A write of CD_SCH_DB (R166, R632). -/
def Tx.schDoorbell (t : Tx) (d r v : Nat) : Tx :=
  let size := 2 ^ t.ringLog d r
  let tail := bits v 11 0
  let head := t.rd (CD_SCH_RPTR_HEAD d r)
  let pend := (tail + size - head) % size
  if tail ≥ size ∨ pend < t.ringPending d r then t.set1 (CD_SCH_STAT_CMDREF d)
  else t.wr (CD_SCH_RPTR_DBTAIL d r) tail

def execSchDoorbell (mid : Mid) (d : Die) (r : Ctx) (value : Word) (s : State) : Host.Outcome State Fault Refusal :=
  s.does fun t => t.swWrite mid.toNat (CD_SCH_DB d r) (·.schDoorbell d r value.toNat)

/-- A ring entry is malformed for its ring (fault 0x40, R165, R196). -/
def entryBad (e : List Byte) (rt : Bool) : Bool :=
  let f := entF e
  let flags := f 0x2F 1
  let slot := f 0x3B 1
  f 0x28 4 == 0 || f 0x2C 2 == 0 || f 0x10 8 == 0 || f 0 8 % 64 != 0 || f 8 8 % 8 != 0 || f 0x10 8 % 64 != 0 ||
    f 0x30 4 % 0x10000 != 0 || f 0x34 4 % 0x10000 != 0 || f 0x34 4 == 0 || f 0x30 4 + f 0x34 4 > 0x1800000 ||
    f 0x20 8 != 0 || f 0x2E 1 ≥ 64 || flags ≥ 8 || f 0x3A 1 ≥ 16 ||
    !(slot == 0x1F || (bit flags 0 && decide (slot < 16))) || (!rt && f 0x18 8 != 0)

/-- The partition of an entry meets one that another context holds (fault 0x42). -/
def Tx.partBusy (t : Tx) (d c base size : Nat) : Bool :=
  (List.range 8).any fun k =>
    let s := t.ctxOf d k
    k != c && s.holds && decide (base < s.partbase + s.partsize) && decide (s.partbase < base + size)

/-- A restart record is acceptable for an entry (R185). -/
def recOk (r e : List Byte) : Bool :=
  let f := entF r
  let g (o n : Nat) := entF r (0x40 + o) n == entF e o n
  f 0 2 == 1 && crc32c (r.take 0xFC) == f 0xFC 4 && f 2 1 < 32 && !bit (f 2 1) 4 && f 3 1 < 64 && bits (f 3 1) 3 3 == 0 &&
    f 4 4 == 0 && f 0x24 4 == 0 && f 0x38 8 == 0 && (r.drop 0x80).take 124 == leBytes 124 0 &&
    g 0 8 && g 8 8 && g 0x28 4 && g 0x2C 2 && g 0x30 4 && g 0x34 4

/-- How a fetch ends before any step runs. -/
inductive Fetch where
  | go (r : Option (List Byte))
  | fault (code : Nat)
  | held

/-- The record of a RESUME entry: from its slot or from SAVEADDR (R185). -/
def Tx.takeRecord (t : Tx) (d cls : Nat) (e : List Byte) : Tx × Fetch :=
  let slot := entF e 0x3B 1
  if slot < 16 then
    match (t.schOf d).recs.find? (·.slot == slot) with
    | none => (t, .fault 0x47)
    | some r =>
      if !r.released ∨ !recOk r.bytes e then (t, .fault 0x47)
      else (t.onSch d fun s => { s with recs := s.recs.filter (·.slot != slot) }, .go (some r.bytes))
  else
    match t.dieRead d cls (entF e 0x38 2) (entF e 0x10 8) 256 with
    | (t, .held) => (t, .held)
    | (t, .ok bs) => if recOk bs e then (t, .go (some bs)) else (t, .fault 0x47)
    | (t, _) => (t, .fault 0x47)

/-- The saved image goes back to the partition when the record says one was saved (R185). -/
def Tx.restoreImage (t : Tx) (d cls : Nat) (e r : List Byte) : Tx × Fetch :=
  if entF r 0x20 4 = 0 then (t, .go (some r))
  else match t.dieRead d cls (entF e 0x38 2) (entF e 0x10 8 + 256) (entF e 0x34 4) with
    | (t, .held) => (t, .held)
    | (t, .ok bs) => (t.wrBytes (stagingKey d + entF e 0x30 4) bs, .go (some r))
    | (t, _) => (t, .fault 0x47)

/-- The header of an RT list's certificate, for its LISTID (R195, R257). -/
def Tx.fetchCert (t : Tx) (d cls : Nat) (e : List Byte) : Tx × VAns Nat :=
  if entF e 0x18 8 = 0 then (t, .ok 0)
  else match t.dieRead d cls (entF e 0x38 2) (entF e 0x18 8) 64 with
    | (t, .ok bs) => (t, .ok (entF bs 4 4))
    | (t, .fault a b) => (t, .fault a b)
    | (t, .poison a) => (t, .poison a)
    | (t, .held) => (t, .held)

/-- A context stops at fetch, holding nothing; only ABORT is accepted (R196, R257). -/
def Tx.stopAtFetch (t : Tx) (d c code : Nat) (st : CtxState) : Tx :=
  (t.onCtx d c fun s => { s with atFetch := true, next := 0 }).raiseStop d c st code 0xFFFF

/-- A fetched list begins: GATED or RUNNING (R168, R182). -/
def Tx.beginFetched (t : Tx) (d c : Nat) (e : List Byte) (listid : Nat) (r : Option (List Byte)) (round : Bool) : Tx :=
  let st := if bit (entF e 0x2F 1) 1 then CtxState.gated else .running
  let s : Sctx := match r with
    | none => { st := st, ent := e, listid := listid, round := round }
    | some b => { st := st, ent := e, listid := listid, next := entF b 8 4, done := entF b 0xC 4, eng := entF b 0x28 8 }
  let built := match r with
    | some b => bit (entF b 2 1) 3
    | none => false
  let t := t.onCtx d c fun _ => s
  let t := if built then t.wr (CD_SCH_RRAUD_ADOPTPEND d) (satAdd 8 (t.rd (CD_SCH_RRAUD_ADOPTPEND d)) 1) else t
  t.showCtx d c

/-- The entry at HEAD has been read: its checks, the lowest code of which stops the context, and its
start (R169, R185, R196). -/
def Tx.acceptEntry (t : Tx) (d c : Nat) (e : List Byte) (slot : Nat) : Option Tx :=
  let rt := t.rt d c
  let cls := entF e 0x2E 1 % 64
  let round := match (t.schOf d).round with
    | some r => r.slot == slot && t.rd (CD_SEQ_CTL_RING d) == c
    | none => false
  let t := t.onCtx d c fun _ => { ent := e, round := round }
  if entryBad e rt then some (t.stopAtFetch d c 0x40 .stopped)
  else if t.partBusy d c (entF e 0x30 4) (entF e 0x34 4) then some (t.stopAtFetch d c 0x42 .stopped)
  else
    match (if rt then t.fetchCert d cls e else (t, .ok 0)) with
    | (_, .held) => none
    | (t, .fault _ _) => some (t.stopAtFetch d c 0x45 .error)
    | (t, .poison _) => some (t.stopAtFetch d c 0x4A .stopped)
    | (t, .ok listid) =>
      if bit (entF e 0x2F 1) 0 then
        match t.takeRecord d cls e with
        | (_, .held) => none
        | (t, .fault k) => some (t.raiseStop d c .error k 0)
        | (t, .go r) =>
          match t.restoreImage d cls e (r.getD []) with
          | (_, .held) => none
          | (t, .fault k) => some (t.raiseStop d c .error k 0)
          | (t, .go r) =>
            if rt ∧ (!t.is (RTM_CTL_HOLD (cdRtm d)) ∨ entF e 0x18 8 = 0) then some (t.stopAtFetch d c 0x48 .stopped)
            else some (t.beginFetched d c e listid r round)
      else if rt ∧ (!t.is (RTM_CTL_HOLD (cdRtm d)) ∨ entF e 0x18 8 = 0) then some (t.stopAtFetch d c 0x48 .stopped)
      else some (t.beginFetched d c e listid none round)

/-- The die's scheduler works: powered and not expelled. -/
def Tx.dieOn (t : Tx) (d : Nat) : Bool := t.powered (domCD d) && !bit t.d.expelled d

/-- An idle context may fetch from its ring (R166, R191, R198). -/
def Tx.mayFetch (t : Tx) (d c : Nat) : Bool :=
  t.dieOn d && bit (t.rd (CD_SCH_CTL_RINGEN d)) c && (t.ctxOf d c).st == .idle && t.ringPending d c != 0 &&
    !(t.rt d c && t.is (CD_SCH_CTL_RTFENCE d))

/-- RING_FETCH (R165, R166, R257). -/
def Tx.ringFetch (t : Tx) (d c : Nat) : Tx :=
  let ctx := t.rd (CD_SCH_RCFG_RDEVCTX d c)
  let head := t.rd (CD_SCH_RPTR_HEAD d c)
  let va := sext48 (t.pair (CD_SCH_RBASE_LO d c) / 64 * 64) + head * 64
  match t.vRead d ctx (dieMid d) va 64 with
  | (_, .held) => t
  | (t', .fault _ _) => if t.rt d c then t'.stopAtFetch d c 0x45 .error else t'.stopAtFetch d c 0x44 .stopped
  | (t', .poison _) => t'.stopAtFetch d c 0x4A .stopped
  | (_, .ok e) =>
    let t' := (t.dieRead d (entF e 0x2E 1 % 64) ctx va 64).1
    let t' := (t'.wr (CD_SCH_RPTR_HEAD d c) ((head + 1) % 2 ^ t.ringLog d c)).setWord (CD_SCH_CFLT d c) 0
    match t'.acceptEntry d c e head with
    | some t'' => t''
    | none => t

/-- A context that stopped with the builder's round: the round fails and its list is aborted (R214). -/
def Tx.afterStop (t : Tx) (d c : Nat) : Tx :=
  let s := t.ctxOf d c
  if s.round ∧ (s.st = .stopped ∨ s.st = .lost ∨ s.st = .error) then
    (((t.roundFail d).freeRecord d c).onCtx d c fun _ => {}).showCtx d c
  else t

def execRingFetch (d : Die) (c : Ctx) (s : State) : Host.Outcome State Fault Refusal :=
  s.does fun t => t.when (t.mayFetch d c) fun t => (t.ringFetch d c).afterStop d c

/-- GATE_MET (R168): the gate's counter has reached its threshold. -/
def Tx.gateMet (t : Tx) (d c : Nat) : Bool :=
  let s := t.ctxOf d c
  s.st == .gated && decide (s.gateval ≤ t.word (CD_SCH_EVT d s.gateevt))

def execGateMet (d : Die) (c : Ctx) (s : State) : Host.Outcome State Fault Refusal :=
  s.does fun t => t.when (t.gateMet d c) fun t =>
    ((t.onCtx d c fun s => { s with st := .running }).showCtx d c).grantAll d

/-! ### Decode -/

/-- A held fault stops the context once every earlier step has committed (R176). -/
def Tx.checkHeld (t : Tx) (d c : Nat) : Tx :=
  let s := t.ctxOf d c
  if s.st ≠ .running then t
  else match s.step? s.next with
    | none => t
    | some x =>
      match x.fault with
      | none => t
      | some code =>
        let t := match x.entry.unit? with
          | some e => t.recordEngineFault d c e code 0
          | none => t
        t.stopOn d c s.next code x.facc x.fva

/-- The next step of the window to decode: the lowest not committed and not decoded (R176). -/
def Sctx.toDecode (s : Sctx) : Option Nat :=
  ((List.range 32).map (s.next + ·)).find? fun j => decide (j < s.nsteps) && !s.committed j && (s.step? j).isNone

/-- STEP_DECODE (R176): fetch, checks, and entry into the window; a fault is held with the step. -/
def Tx.stepDecode (t : Tx) (d c : Nat) : Tx :=
  let s := t.ctxOf d c
  match s.toDecode with
  | none => t
  | some j =>
    let hold (t : Tx) (code va : Nat) : Tx :=
      t.onCtx d c fun s => { s with steps := s.steps ++ [({ idx := j, fault := some code, fva := va, facc := 1 } : StepSt)] }
    let t' := match t.dieRead d s.client s.devctx (s.listaddr + 192 * j) 192 with
      | (_, .held) => t
      | (t, .fault _ va) => hold t (if t.rt d c then 0x45 else 0x44) va
      | (t, .poison va) => hold t 0x4A va
      | (t, .ok bs) =>
        let words := (List.range 48).map fun i => entF bs (4 * i) 4
        let e : StepEntry := ⟨words⟩
        let f := e.decodeFault j s.partbase s.partsize (t.rt d c) (shapeOf (t.unusable d)).isSome (t.strandUnits d)
          (t.powered (domWS d))
        t.onCtx d c fun s => { s with steps := s.steps ++ [({ idx := j, words := words, fault := f } : StepSt)] }
    (t'.checkHeld d c).grantAll d

def execStepDecode (d : Die) (c : Ctx) (s : State) : Host.Outcome State Fault Refusal :=
  s.does fun t => t.when ((t.ctxOf d c).st == .running) (·.stepDecode d c)

/-! ### Engine runs -/

/-- The staging SRAM of die `d`, as a step reads it. -/
def Tx.staging (t : Tx) (d : Nat) : Rd := fun a => t.rb (stagingKey d + a)

/-- The floating-point conditions of a strand step set their sticky bits (R109, R132). -/
def Tx.strandSticky (t : Tx) (d f : Nat) : Tx :=
  t.wr ⟨CD_STR_STAT d, 12, 8⟩ (t.rd ⟨CD_STR_STAT d, 12, 8⟩ ||| f)

/-- Steps a run consumed: exact on the Braid and the whipping engine, at most the worst case and open
otherwise (R108, R128). -/
def Tx.consumed (t : Tx) (e : Unit5) (n : Nat) : Nat × Tx :=
  match e with
  | .strand | .spectral => let (k, t) := t.pick n; (min n (k + 1), t)
  | _ => (n, t)

/-- Step `j` of context `c` is granted its engine and is the operation `opc`. -/
def Tx.grantedAs (t : Tx) (d c j opc : Nat) : Option (StepSt × Unit5) :=
  match (t.ctxOf d c).step? j with
  | none => none
  | some x =>
    match x.entry.unit? with
    | none => none
    | some e =>
      if x.entry.opc = opc ∧ x.phase = .granted ∧ (t.schOf d).cur.at e.code = some (c, j) then some (x, e) else none

/-- A step in flight faults: its steps are charged, it is discarded, and its context stops (R88, R129,
R182). -/
def Tx.stepFault (t : Tx) (d c j : Nat) (e : Unit5) (code steps frow : Nat) : Tx :=
  let t := t.recordEngineFault d c e code frow
  let t := t.chargeSteps d c e steps
  let t := t.onCtx d c fun s => { s with steps := s.steps.filter fun y => y.idx != j }
  let t := (t.freeEngine d e).countDiscard d e
  (t.stopOn d c j code 0 0).grantAll d

/-- A granted step runs to its boundary: its writes to staging, or its fault. -/
def Tx.runStep (t : Tx) (d c j opc : Nat) : Tx :=
  match t.grantedAs d c j opc with
  | none => t
  | some (x, e) =>
    let s := t.schOf d
    let out := x.entry.run (t.staging d) s.shape (16 * popcount 4 s.pairs)
    let t := t.each out.writes fun t (a, b) => t.wb (stagingKey d + a) b
    match out.fault with
    | some code => t.stepFault d c j e code out.steps out.frow
    | none =>
      let (n, t) := t.consumed e out.steps
      (t.strandSticky d out.sticky).onStep d c j fun x => { x with phase := .ran n }

/-- A residue mismatch in quadrant `q` of the shape in use (R89): the step is discarded and stays granted
for its re-execution; a second within 1,024 tile steps fences the quadrant and changes the shape. -/
def Tx.residueMismatch (t : Tx) (d c j q : Nat) (x : StepSt) : Tx :=
  let s := t.schOf d
  let second := (s.mism.at q != 0) && decide (s.started - (s.mism.at q - 1) < 1024)
  let t := (t.wr (CD_BRD_QSTAT_QERR d) (t.rd (CD_BRD_QSTAT_QERR d) ||| 2 ^ q)).inc
    ⟨CD_BRD_QERRCNT d, 8 * q + 7, 8 * q⟩
  let n := x.entry.tile.steps (shapeDims s.shape).1 (shapeDims s.shape).2
  let t := ((t.inc (CD_BRD_DISCCNT_DISC d)).chargeSteps d c .braid n).notice 0x03 [d, q]
  let t := t.event "RESIDUE_MISMATCH" [d, q]
  let t := t.onSch d fun s => { s with mism := s.mism.put q (s.started + 1), started := s.started + 1 }
  if !second then t
  else
    let t := (t.wr (CD_BRD_QCTL_QFENCE d) (t.rd (CD_BRD_QCTL_QFENCE d) ||| 2 ^ q)).event "QUADRANT_FENCED" [d, q]
    let t := t.repair 3 d (t.d.repair.die.at d ||| 2 ^ q) fun r => { r with die := r.die.upd d (· ||| 2 ^ q) }
    let t := t.notice 0x03 [d, q]
    match shapeOf (t.unusable d) with
    | some (sh, qa) =>
      let t := t.onSch d fun s => { s with shape := sh, qact := qa }
      (t.wr (CD_BRD_QSTAT_SHAPE d) sh).wr (CD_BRD_QSTAT_QACT d) qa
    | none => (t.onStep d c j fun x => { x with phase := .waiting }).freeEngine d .braid

/-- A tile step of the Braid (R82, R89). -/
def Tx.runTile (t : Tx) (d c j opc : Nat) (residue : Residue) : Tx :=
  match residue with
  | .clean => t.runStep d c j opc
  | .mismatch q =>
    match t.grantedAs d c j opc with
    | some (x, .braid) => if bit (t.schOf d).qact q then t.residueMismatch d c j q x else t
    | _ => t

/-- MATMUL (OPC 0x10): the granted tile step runs, or the residue checkers discard it (R82, R89). -/
def execMatmul (d : Die) (c : Ctx) (step : StepNo) (residue : Residue) (s : State) : Host.Outcome State Fault Refusal :=
  s.does fun t => t.runTile d c step.toNat 0x10 residue

/-- CONV (OPC 0x11): the granted tile step runs, or the residue checkers discard it (R82, R89). -/
def execConv (d : Die) (c : Ctx) (step : StepNo) (residue : Residue) (s : State) : Host.Outcome State Fault Refusal :=
  s.does fun t => t.runTile d c step.toNat 0x11 residue

/-- WMATMUL (OPC 0x18): the granted step runs. -/
def execWmatmul (d : Die) (c : Ctx) (step : StepNo) (s : State) : Host.Outcome State Fault Refusal :=
  s.does fun t => t.runStep d c step.toNat 0x18

/-- WCONV (OPC 0x19): the granted step runs. -/
def execWconv (d : Die) (c : Ctx) (step : StepNo) (s : State) : Host.Outcome State Fault Refusal :=
  s.does fun t => t.runStep d c step.toNat 0x19

/-- SFWD (OPC 0x30): the granted step runs. -/
def execSfwd (d : Die) (c : Ctx) (step : StepNo) (s : State) : Host.Outcome State Fault Refusal :=
  s.does fun t => t.runStep d c step.toNat 0x30

/-- SWXF (OPC 0x31): the granted step runs. -/
def execSwxf (d : Die) (c : Ctx) (step : StepNo) (s : State) : Host.Outcome State Fault Refusal :=
  s.does fun t => t.runStep d c step.toNat 0x31

/-- SMAC (OPC 0x32): the granted step runs. -/
def execSmac (d : Die) (c : Ctx) (step : StepNo) (s : State) : Host.Outcome State Fault Refusal :=
  s.does fun t => t.runStep d c step.toNat 0x32

/-- SINV (OPC 0x33): the granted step runs. -/
def execSinv (d : Die) (c : Ctx) (step : StepNo) (s : State) : Host.Outcome State Fault Refusal :=
  s.does fun t => t.runStep d c step.toNat 0x33

/-- CVT (OPC 0x40): the granted step runs. -/
def execCvt (d : Die) (c : Ctx) (step : StepNo) (s : State) : Host.Outcome State Fault Refusal :=
  s.does fun t => t.runStep d c step.toNat 0x40

/-- ADD (OPC 0x41): the granted step runs. -/
def execAdd (d : Die) (c : Ctx) (step : StepNo) (s : State) : Host.Outcome State Fault Refusal :=
  s.does fun t => t.runStep d c step.toNat 0x41

/-- SUB (OPC 0x42): the granted step runs. -/
def execSub (d : Die) (c : Ctx) (step : StepNo) (s : State) : Host.Outcome State Fault Refusal :=
  s.does fun t => t.runStep d c step.toNat 0x42

/-- MUL (OPC 0x43): the granted step runs. -/
def execMul (d : Die) (c : Ctx) (step : StepNo) (s : State) : Host.Outcome State Fault Refusal :=
  s.does fun t => t.runStep d c step.toNat 0x43

/-- MAX (OPC 0x44): the granted step runs. -/
def execMax (d : Die) (c : Ctx) (step : StepNo) (s : State) : Host.Outcome State Fault Refusal :=
  s.does fun t => t.runStep d c step.toNat 0x44

/-- MIN (OPC 0x45): the granted step runs. -/
def execMin (d : Die) (c : Ctx) (step : StepNo) (s : State) : Host.Outcome State Fault Refusal :=
  s.does fun t => t.runStep d c step.toNat 0x45

/-- AFFINE (OPC 0x46): the granted step runs. -/
def execAffine (d : Die) (c : Ctx) (step : StepNo) (s : State) : Host.Outcome State Fault Refusal :=
  s.does fun t => t.runStep d c step.toNat 0x46

/-- CLAMP (OPC 0x47): the granted step runs. -/
def execClamp (d : Die) (c : Ctx) (step : StepNo) (s : State) : Host.Outcome State Fault Refusal :=
  s.does fun t => t.runStep d c step.toNat 0x47

/-- RELU (OPC 0x48): the granted step runs. -/
def execRelu (d : Die) (c : Ctx) (step : StepNo) (s : State) : Host.Outcome State Fault Refusal :=
  s.does fun t => t.runStep d c step.toNat 0x48

/-- EXP (OPC 0x49): the granted step runs. -/
def execExp (d : Die) (c : Ctx) (step : StepNo) (s : State) : Host.Outcome State Fault Refusal :=
  s.does fun t => t.runStep d c step.toNat 0x49

/-- RECIP (OPC 0x4A): the granted step runs. -/
def execRecip (d : Die) (c : Ctx) (step : StepNo) (s : State) : Host.Outcome State Fault Refusal :=
  s.does fun t => t.runStep d c step.toNat 0x4A

/-- SQRT (OPC 0x4B): the granted step runs. -/
def execSqrt (d : Die) (c : Ctx) (step : StepNo) (s : State) : Host.Outcome State Fault Refusal :=
  s.does fun t => t.runStep d c step.toNat 0x4B

/-- RSQRT (OPC 0x4C): the granted step runs. -/
def execRsqrt (d : Die) (c : Ctx) (step : StepNo) (s : State) : Host.Outcome State Fault Refusal :=
  s.does fun t => t.runStep d c step.toNat 0x4C

/-- SIGMOID (OPC 0x4D): the granted step runs. -/
def execSigmoid (d : Die) (c : Ctx) (step : StepNo) (s : State) : Host.Outcome State Fault Refusal :=
  s.does fun t => t.runStep d c step.toNat 0x4D

/-- SILU (OPC 0x4E): the granted step runs. -/
def execSilu (d : Die) (c : Ctx) (step : StepNo) (s : State) : Host.Outcome State Fault Refusal :=
  s.does fun t => t.runStep d c step.toNat 0x4E

/-- TANH (OPC 0x4F): the granted step runs. -/
def execTanh (d : Die) (c : Ctx) (step : StepNo) (s : State) : Host.Outcome State Fault Refusal :=
  s.does fun t => t.runStep d c step.toNat 0x4F

/-- RSUM (OPC 0x50): the granted step runs. -/
def execRsum (d : Die) (c : Ctx) (step : StepNo) (s : State) : Host.Outcome State Fault Refusal :=
  s.does fun t => t.runStep d c step.toNat 0x50

/-- RMEAN (OPC 0x51): the granted step runs. -/
def execRmean (d : Die) (c : Ctx) (step : StepNo) (s : State) : Host.Outcome State Fault Refusal :=
  s.does fun t => t.runStep d c step.toNat 0x51

/-- RMAX (OPC 0x52): the granted step runs. -/
def execRmax (d : Die) (c : Ctx) (step : StepNo) (s : State) : Host.Outcome State Fault Refusal :=
  s.does fun t => t.runStep d c step.toNat 0x52

/-- RMIN (OPC 0x53): the granted step runs. -/
def execRmin (d : Die) (c : Ctx) (step : StepNo) (s : State) : Host.Outcome State Fault Refusal :=
  s.does fun t => t.runStep d c step.toNat 0x53

/-- SOFTMAX (OPC 0x54): the granted step runs. -/
def execSoftmax (d : Die) (c : Ctx) (step : StepNo) (s : State) : Host.Outcome State Fault Refusal :=
  s.does fun t => t.runStep d c step.toNat 0x54

/-- LAYERNORM (OPC 0x55): the granted step runs. -/
def execLayernorm (d : Die) (c : Ctx) (step : StepNo) (s : State) : Host.Outcome State Fault Refusal :=
  s.does fun t => t.runStep d c step.toNat 0x55

/-- RMSNORM (OPC 0x56): the granted step runs. -/
def execRmsnorm (d : Die) (c : Ctx) (step : StepNo) (s : State) : Host.Outcome State Fault Refusal :=
  s.does fun t => t.runStep d c step.toNat 0x56

/-- POOLMAX (OPC 0x58): the granted step runs. -/
def execPoolmax (d : Die) (c : Ctx) (step : StepNo) (s : State) : Host.Outcome State Fault Refusal :=
  s.does fun t => t.runStep d c step.toNat 0x58

/-- POOLAVG (OPC 0x59): the granted step runs. -/
def execPoolavg (d : Die) (c : Ctx) (step : StepNo) (s : State) : Host.Outcome State Fault Refusal :=
  s.does fun t => t.runStep d c step.toNat 0x59

/-- GATHER (OPC 0x5C): the granted step runs. -/
def execGather (d : Die) (c : Ctx) (step : StepNo) (s : State) : Host.Outcome State Fault Refusal :=
  s.does fun t => t.runStep d c step.toNat 0x5C

/-- SCATTER (OPC 0x5D): the granted step runs. -/
def execScatter (d : Die) (c : Ctx) (step : StepNo) (s : State) : Host.Outcome State Fault Refusal :=
  s.does fun t => t.runStep d c step.toNat 0x5D

/-- FILL (OPC 0x5E): the granted step runs. -/
def execFill (d : Die) (c : Ctx) (step : StepNo) (s : State) : Host.Outcome State Fault Refusal :=
  s.does fun t => t.runStep d c step.toNat 0x5E

/-! ### Transfers and sync steps -/

/-- The transactions of a transfer step in issue order: virtual address, staging address and length
(R172): row by row, split at the 256-byte boundaries of the virtual address. -/
def StepEntry.transactions (e : StepEntry) : List (Nat × Nat × Nat) :=
  (List.range e.rows).flatMap fun r =>
    let va := e.vaddr + r * e.vpitch
    let sa := e.saddr + r * e.spitch
    (List.range ((va + e.len - 1) / 256 - va / 256 + 1)).map fun i =>
      let lo := max va ((va / 256 + i) * 256)
      let hi := min (va + e.len) ((va / 256 + i + 1) * 256)
      (lo, sa + (lo - va), hi - lo)

/-- One transaction of a LOAD or a STORE. -/
def Tx.transact (t : Tx) (d c : Nat) (load : Bool) (va sa n : Nat) : Tx × VAns Unit :=
  let s := t.ctxOf d c
  if load then
    match t.dieRead d s.client s.devctx (sext48 va) n with
    | (t, .ok bs) => (t.wrBytes (stagingKey d + sa) bs, .ok ())
    | (t, .fault k v) => (t, .fault k v)
    | (t, .poison v) => (t, .poison v)
    | (t, .held) => (t, .held)
  else t.dieWrite d s.client s.devctx (sext48 va) (t.rdBytes (stagingKey d + sa) n)

/-- The transactions of a transfer step, one after another until one is not answered (R172). -/
def Tx.transferAll (t : Tx) (d c : Nat) (load : Bool) (xs : List (Nat × Nat × Nat)) : Tx × VAns Unit :=
  xs.foldl (fun (t, acc) (va, sa, n) =>
    match acc with
    | .ok () =>
      match t.transact d c load va sa n with
      | (t, .fault k _) => (t, .fault k va)
      | (t, .poison _) => (t, .poison va)
      | r => r
    | e => (t, e)) (t, VAns.ok ())

/-- A transfer step runs: it stops issuing at its first transaction that faults, and its context stops
(R172, R189, R257); held as a whole while a target holds it. -/
def Tx.runTransfer (t : Tx) (d c j : Nat) (x : StepSt) : Tx :=
  let load := x.entry.opc == 0x60
  let (t2, r) := (t.beginList d c).transferAll d c load x.entry.transactions
  let stop (t : Tx) (code va : Nat) : Tx :=
    (t.onCtx d c fun s => { s with steps := s.steps.filter fun y => y.idx != j }).stopOn d c j code (if load then 1 else 2) va
  match r with
  | .ok () => t2.onStep d c j fun x => { x with phase := .ran 0 }
  | .held => t
  | .poison va => stop t2 0x4A va
  | .fault _ va => stop t2 (if t.rt d c then 0x45 else 0x44) va

/-- Step `j` is the context's next ready step on `unit` and is the operation `opc`. -/
def Tx.readyAs (t : Tx) (d c j opc : Nat) (e : Unit5) : Option StepSt :=
  match (t.ctxOf d c).step? j with
  | none => none
  | some x => if x.entry.opc = opc ∧ t.readyStep d c e = some j then some x else none

/-- At most one transfer step of a context is in progress (R172). -/
def Sctx.transferring (s : Sctx) : Bool := s.steps.any fun x => x.entry.unit? == some .transfer && x.phase != .waiting

/-- LOAD (R172): rows of memory to staging. -/
def execLoad (d : Die) (c : Ctx) (step : StepNo) (s : State) : Host.Outcome State Fault Refusal :=
  s.does fun t =>
    match t.readyAs d c step.toNat 0x60 .transfer with
    | some x => if (t.ctxOf d c).transferring then t else t.runTransfer d c step.toNat x
    | none => t

/-- STORE (R172): rows of staging to memory. -/
def execStore (d : Die) (c : Ctx) (step : StepNo) (s : State) : Host.Outcome State Fault Refusal :=
  s.does fun t =>
    match t.readyAs d c step.toNat 0x61 .transfer with
    | some x => if (t.ctxOf d c).transferring then t else t.runTransfer d c step.toNat x
    | none => t

/-- Event counter `k` of die `d` counts one, modulo 2^32 (R173). -/
def Tx.eventInc (t : Tx) (d k : Nat) : Tx := t.setWord (CD_SCH_EVT d k) ((t.word (CD_SCH_EVT d k) + 1) % 2 ^ 32)

/-- SIGNAL (R173): its own die's counter at once, another's by a MSG entry of KIND 0x1 (R456); a target
without power or expelled faults with 0x49. -/
def execSignal (d : Die) (c : Ctx) (step : StepNo) (s : State) : Host.Outcome State Fault Refusal :=
  s.does fun t =>
    match t.readyAs d c step.toNat 0x70 .sync with
    | none => t
    | some x =>
      let die := bits (x.entry.b 1) 1 0
      let evt := bits (x.entry.b 1) 11 8
      if !t.dieOn die then
        (t.onCtx d c fun s => { s with steps := s.steps.filter fun y => y.idx != step.toNat }).stopOn d c step.toNat 0x49 0 0
      else
        let t := t.beginList d c
        let t := if die = d.val then t.eventInc d evt else t.send "MSG" "EVENT" [1, die, evt]
        t.onStep d c step.toNat fun x => { x with phase := .ran 0 }

/-- WAIT (R173): the step is under way until its counter reaches VALUE. -/
def execWait (d : Die) (c : Ctx) (step : StepNo) (s : State) : Host.Outcome State Fault Refusal :=
  s.does fun t =>
    match t.readyAs d c step.toNat 0x71 .sync with
    | none => t
    | some _ => (t.beginList d c).onStep d c step.toNat fun x => { x with phase := .granted }

/-! ### Commit -/

/-- NEXT moves past every committed step (R176). -/
def Sctx.advance : Nat → Sctx → Sctx
  | 0, s => s
  | n + 1, s => if bit s.done 0 then Sctx.advance n { s with next := s.next + 1, done := s.done / 2 } else s

/-- The committed steps of an engine are counted (R97, R135). -/
def Tx.countCommit (t : Tx) (d : Nat) (e : Unit5) : Tx :=
  match e with
  | .braid => t.incPair (CD_BRD_STEPS_LO d) 1
  | .strand => t.incPair (CD_STR_STEPS_LO d) 1
  | .whip => t.incPair (CD_WSP_WSTEPS_LO d) 1
  | .spectral => t.incPair (CD_WSP_SSTEPS_LO d) 1
  | _ => t

/-- The list ends at its last commit: its interrupt, the notice of a real-time list, the builder's
commit; the context is IDLE (R165, R182, R195, R213). -/
def Tx.finishList (t : Tx) (d c : Nat) : Tx :=
  let s := t.ctxOf d c
  if s.st ≠ .running ∨ s.next < s.nsteps then t
  else
    let t := if bit s.flags 2 then t.ringIrq d c else t
    let t := if t.rt d c then t.notice 0x06 [d, s.listid, s.epoch] else t
    let t := if s.round then t.roundCommit d else t
    (t.onCtx d c fun _ => {}).showCtx d c

/-- The commit marker of step `j` (R174). -/
def markerBytes (epoch opc j : Nat) : List Byte := leBytes 8 (epoch * 2 ^ 32 + opc * 2 ^ 24 + j)

/-- A step whose work is done commits: its marker, its charge, its engine's next grant (R174, R175,
R179). -/
def Tx.commitStep (t : Tx) (d c j : Nat) (x : StepSt) (n : Nat) : Tx :=
  let s := t.ctxOf d c
  let engine := match x.entry.unit? with
    | some e => if engines4.contains e then some e else none
    | none => none
  let settle (t : Tx) : Tx := match engine with
    | some e => (t.chargeSteps d c e n).freeEngine d e
    | none => t
  let drop (t : Tx) : Tx := t.onCtx d c fun s => { s with steps := s.steps.filter fun y => y.idx != j }
  let va := s.commitaddr + 8 * j
  match t.dieWrite d s.client s.devctx va (markerBytes s.epoch x.entry.opc j) with
  | (_, .held) => t
  | (t, .ok ()) =>
    let t := drop (settle t)
    let t := match engine with
      | some e => t.countCommit d e
      | none => t
    let t := t.onCtx d c fun s => Sctx.advance 33 { s with done := s.done ||| 2 ^ (j - s.next) }
    let t := if x.entry.irq then t.ringIrq d c else t
    (((t.showCtx d c).finishList d c).checkHeld d c).grantAll d
  | (t, _) =>
    let t := drop (settle t)
    let t := match engine with
      | some e => t.countDiscard d e
      | none => t
    (t.stopOn d c j 0x4B 2 va).grantAll d

def execStepCommit (d : Die) (c : Ctx) (step : StepNo) (s : State) : Host.Outcome State Fault Refusal :=
  s.does fun t =>
    match (t.ctxOf d c).step? step.toNat with
    | none => t
    | some x =>
      match x.phase with
      | .ran n => t.commitStep d c step.toNat x n
      | _ => t

/-- WAIT_COMPLETE (R173): the awaited counter has reached VALUE and the WAIT commits. -/
def execWaitComplete (d : Die) (c : Ctx) (step : StepNo) (s : State) : Host.Outcome State Fault Refusal :=
  s.does fun t =>
    match (t.ctxOf d c).step? step.toNat with
    | none => t
    | some x =>
      if x.entry.opc = 0x71 ∧ x.phase = .granted ∧ x.entry.b 2 ≤ t.word (CD_SCH_EVT d (bits (x.entry.b 1) 3 0)) then
        t.commitStep d c step.toNat x 0
      else t

/-! ### Restart records and context commands -/

/-- RESTART_RECORD_WRITE (R183, R187, R189, R191): the context leaves STOPPING. -/
def Tx.leaveStopping (t : Tx) (d c : Nat) : Tx :=
  let t1 := t.writeRecord d c
  let s := t1.ctxOf d c
  if bit s.reason 4 then (t1.raiseStop d c .error s.fcode s.fstep).afterStop d c
  else
    let t2 := if bit s.reason 2 then t1.save d c else some t1
    match t2 with
    | none => t
    | some t2 =>
      if (t2.ctxOf d c).st = .lost then t2.afterStop d c
      else if bit s.reason 0 then (t2.raiseStop d c .stopped s.fcode s.fstep).afterStop d c
      else (t2.onCtx d c fun s => { s with st := .suspended }).showCtx d c

def execRestartRecordWrite (d : Die) (c : Ctx) (s : State) : Host.Outcome State Fault Refusal :=
  s.does fun t =>
    let x := t.ctxOf d c
    t.when (x.st == .stopping && x.inFlight.isEmpty) (·.leaveStopping d c)

/-- A context enters STOPPING for the reason bit `r`; nothing more is dispatched (R182). -/
def Tx.toStopping (t : Tx) (d c r : Nat) : Tx :=
  (t.onCtx d c fun s => { s with st := .stopping, reason := s.reason ||| r, steps := s.steps.filter fun x => x.phase != .waiting }).showCtx d c

/-- A refused context command (R184). -/
def Tx.ccmdRefused (t : Tx) (d : Nat) : Tx := t.set1 (CD_SCH_STAT_CMDREF d)

/-- The context is stopped with its record held and takes commands (R182, R196). -/
def Sctx.resumable (s : Sctx) : Bool := (s.st == .stopped || s.st == .suspended) && !s.atFetch

/-- The effect of a context command (R184). -/
def Tx.ctxCommand (t : Tx) (d c op : Nat) : Tx :=
  let s := t.ctxOf d c
  match op with
  | 1 => if s.st = .running ∨ s.st = .gated then t.toStopping d c 2 else t.ccmdRefused d
  | 2 => if s.resumable then
      match t.save d c with
      | some t => (t.showCtx d c).afterStop d c
      | none => t
    else t.ccmdRefused d
  | 3 => if s.resumable ∧ s.saved then
      let t := t.onSch d fun x => { x with recs := x.recs.map fun r => if r.ctx == c && !r.released then { r with released := true } else r }
      (t.onCtx d c fun _ => {}).showCtx d c
    else t.ccmdRefused d
  | 4 => if s.resumable ∧ !(t.rt d c && t.is (CD_SCH_CTL_RTFENCE d)) then
      let t := t.freeRecord d c
      let gated := bit s.flags 1 && !s.begun && s.next == 0 && s.done == 0 && decide (t.word (CD_SCH_EVT d s.gateevt) < s.gateval)
      let t := t.onCtx d c fun s => { s with st := if gated then .gated else .running, reason := 0, fstep := 0, fcode := 0, facc := 0, fva := 0, saved := false, steps := [] }
      ((t.showCtx d c).finishList d c).grantAll d
    else t.ccmdRefused d
  | 5 => if s.st = .idle then t.ccmdRefused d
    else
      let t := t.each (s.steps.map (·.idx)) fun t j => t.discardStep d c j
      let t := t.freeRecord d c
      let t := if s.round then t.roundFail d else t
      ((t.onCtx d c fun _ => {}).showCtx d c).grantAll d
  | 6 => t.wr (CD_SCH_RRAUD_ADOPTPEND d) 0
  | _ => t.ccmdRefused d

/-- A write of CD_SCH_CCMD. -/
def ccmdWrite (op : Nat) (mid : Mid) (d : Die) (c : Ctx) (s : State) : Host.Outcome State Fault Refusal :=
  s.does fun t => t.swWrite mid.toNat (CD_SCH_CCMD d) (·.ctxCommand d c op)

def execCtxSuspend (mid : Mid) (d : Die) (c : Ctx) (s : State) : Host.Outcome State Fault Refusal := ccmdWrite 1 mid d c s
def execCtxSave (mid : Mid) (d : Die) (c : Ctx) (s : State) : Host.Outcome State Fault Refusal := ccmdWrite 2 mid d c s
def execCtxRelease (mid : Mid) (d : Die) (c : Ctx) (s : State) : Host.Outcome State Fault Refusal := ccmdWrite 3 mid d c s
def execCtxResume (mid : Mid) (d : Die) (c : Ctx) (s : State) : Host.Outcome State Fault Refusal := ccmdWrite 4 mid d c s
def execCtxAbort (mid : Mid) (d : Die) (c : Ctx) (s : State) : Host.Outcome State Fault Refusal := ccmdWrite 5 mid d c s
def execCtxConfirm (mid : Mid) (d : Die) (c : Ctx) (s : State) : Host.Outcome State Fault Refusal := ccmdWrite 6 mid d c s

/-! ### Events, fences and switches -/

/-- EVTINC (R173): a write of CD_SCH_EVTINC. -/
def execEvtinc (mid : Mid) (d : Die) (value : Word) (s : State) : Host.Outcome State Fault Refusal :=
  s.does fun t => t.swWrite mid.toNat (CD_SCH_EVTINC d) (·.eventInc d (bits value.toNat 3 0))

/-- EVENT_INCREMENT (R456): a MSG entry of KIND 0x1 arrives at its die. -/
def execEventIncrement (d : Die) (k : EvtNo) (s : State) : Host.Outcome State Fault Refusal :=
  s.does fun t => t.when (t.dieOn d) (·.eventInc d k)

/-- The fence is set: the die's real-time contexts stop at their boundary (R191). -/
def Tx.fenceRt (t : Tx) (d : Nat) : Tx :=
  t.each (List.range 8) fun t c =>
    let s := t.ctxOf d c
    if t.rt d c ∧ (s.st = .running ∨ s.st = .gated) then t.toStopping d c 4 else t

/-- A write of CD_SCH_CTL: RTFENCE is the steward's to change (R198, R640). -/
def Tx.writeSchCtl (t : Tx) (mid d v : Nat) : Tx :=
  let was := t.is (CD_SCH_CTL_RTFENCE d)
  let t := t.keepRestricted mid (mid == steward) (CD_SCH_CTL_RTFENCE d) v fun t v => t.applyAt (CD_SCH_CTL d) v
  let t := if !was && t.is (CD_SCH_CTL_RTFENCE d) then t.fenceRt d else t
  t.grantAll d

def execRtfenceWrite (mid : Mid) (d : Die) (value : Word) (s : State) : Host.Outcome State Fault Refusal :=
  s.does fun t => t.swWrite mid.toNat (CD_SCH_CTL d) (·.writeSchCtl mid.toNat d value.toNat)

/-- A write of CD_BRD_QCTL: QFENCE is the steward's to change; an idle Braid takes the change at once
(R90, R91). -/
def Tx.writeQctl (t : Tx) (mid d v : Nat) : Tx :=
  let t := t.keepRestricted mid (mid == steward) (CD_BRD_QCTL_QFENCE d) v fun t v => t.applyAt (CD_BRD_QCTL d) v
  (t.showEngines d).grantAll d

def execQfenceWrite (mid : Mid) (d : Die) (value : Word) (s : State) : Host.Outcome State Fault Refusal :=
  s.does fun t => t.swWrite mid.toNat (CD_BRD_QCTL d) (·.writeQctl mid.toNat d value.toNat)
def execQoffWrite (mid : Mid) (d : Die) (value : Word) (s : State) : Host.Outcome State Fault Refusal :=
  s.does fun t => t.swWrite mid.toNat (CD_BRD_QCTL d) (·.writeQctl mid.toNat d value.toNat)

/-- A write of CD_STR_CTL (R131). -/
def Tx.writeStrCtl (t : Tx) (d v : Nat) : Tx := ((t.applyAt (CD_STR_CTL d) v).showEngines d).grantAll d

def execPairoffWrite (mid : Mid) (d : Die) (value : Word) (s : State) : Host.Outcome State Fault Refusal :=
  s.does fun t => t.swWrite mid.toNat (CD_STR_CTL d) (·.writeStrCtl d value.toNat)

end Sys2Proof.Machine
end

