-- ==== Sys2Proof/Machine/ClpBlock.lean ====
section
/-! DEFINITION.  The hub's side of the Cleats' ports: summaries (R405), releases, mirrors, votes and relays (R426, R427, R431),
and the block HD_CLP with its request ring (R417, R432, R632). -/

namespace Sys2Proof.Machine

def Tx.onClp (t : Tx) (f : Clp → Clp) : Tx := { t with d := { t.d with clp := f t.d.clp } }

/-- The engine's identity for certificate reads (R417). -/
def clpMid : Nat := 0x140

/-- The live bit of the port of Cleat `c`, and its count of discarded frames (R432). -/
def clpLink (c : Nat) : FRef := if c = 0 then CLP_STAT_LINKA else CLP_STAT_LINKB
def clpDrop (c : Nat) : FRef := if c = 0 then CLP_CNT_DROPA else CLP_CNT_DROPB
def clpGate (c : Nat) : FRef := if c = 0 then CLP_STAT_GATEA else CLP_STAT_GATEB
def clpDie (c n : Nat) : FRef := if c = 0 then ⟨CLP_VOTE, n, n⟩ else ⟨CLP_VOTE, 4 + n, 4 + n⟩
def clpMod (c : Nat) : FRef := if c = 0 then CLP_VOTE_MODA else CLP_VOTE_MODB

/-- A valid frame of Cleat `c` reaches the hub while the module has power. -/
def hubFrame (c : Nat) (f : Tx → Tx) (s : State) : Host.Outcome State Fault Refusal :=
  s.does fun t => if t.powered domAON then f (t.set1 (clpLink c)) else t

/-- A frame of Cleat `c` is discarded and counted (R403). -/
def Tx.hubDrop (t : Tx) (c : Nat) : Tx := (t.wr (clpLink c) 0).inc (clpDrop c)

/-- SERIAL_FRAME_DISCARDED (R403): at the hub the port counts it; at a Cleat it is a link fault (R406). -/
def execSerialFrameDiscarded (toHub : Bool) (c : Cleat2) (ct : Nat) (s : State) : Host.Outcome State Fault Refusal :=
  if toHub then s.does fun t => t.when (t.powered domAON) (·.hubDrop c)
  else clDoes c ct (fun t => t.clLinkFault c false) s

/-- SUMMARY_SEND (R405): at every device time that is a multiple of 1 ms. -/
def execSummarySend (s : State) : Host.Outcome State Fault Refusal :=
  s.does fun t =>
    if t.now % 1000000 ≠ 0 ∨ t.d.clp.summary = t.now + 1 ∨ !t.powered domAON then t
    else
      let gates := t.rd CLP_STAT_GATEA + 2 * t.rd CLP_STAT_GATEB
      (t.onClp fun p => { p with summary := t.now + 1 }).cleatFrames "SUMMARY"
        (leBytes 8 t.now ++ leBytes 8 gates ++ (List.range 64).flatMap fun k => leBytes 4 (t.d.clp.ncount.at k))

/-- RELEASE (R392): the egress may send the record of that SEQ as far as Cleat `c` goes. -/
def execRelease (c : Cleat2) (seq : Word) (s : State) : Host.Outcome State Fault Refusal :=
  hubFrame c (·.trjRelease (c == 1) seq.toNat) s

/-- REFUSE (R409, R392): the hub takes note; the record lacks its release and is never sent. -/
def execRefuse (c : Cleat2) (_seq : Word) (_code _sample : BitVec 8) (s : State) : Host.Outcome State Fault Refusal :=
  hubFrame c (fun t => t) s

/-- The identity word of Cleat `c` (R562). -/
def cleatWord (c : Nat) : Nat := 0x04480000 + Config.fusedId (10 + c) % 2 ^ 16

/-- STATUS (R431, R433): the mirror is rewritten in whole, its reserved bits zero. -/
def execStatus (c : Cleat2) (image : List Byte) (s : State) : Host.Outcome State Fault Refusal :=
  hubFrame c (fun t =>
    if image.length ≠ 4096 then t.hubDrop c
    else
      let t := t.latchId (9 + c) (if c = 0 then ID_CLA else ID_CLB) (cleatWord c)
      match blockAt (mirBase c) with
      | some b => t.each b.rows fun t r => t.each (b.addrs r) fun t a =>
          let w := fld image (a - mirBase c) 4
          t.setWord a (r.flds.foldl (fun v f => putBits v f.hi f.lo (bits w f.hi f.lo)) 0)
      | none => t) s

/-- Compute die `n` is expelled (R190): the hub turns its requests away, its domains lose their power, and the runtime, the log
and both Cleats are told. -/
def Tx.expelDie (t : Tx) (n : Nat) : Tx :=
  if bit t.d.expelled n then t
  else
    let dark := t.d.pwr.at (domCD n) = Pwr.off
    let t := { t with d := { t.d with expelled := t.d.expelled + 2 ^ n } }
    let t := ((t.cutDomains (dieDoms n)).event "DIE_EXPELLED" [n]).irq 38
    if dark then t.notice 0x0B [n] else t

/-- The votes of both Cleats are evaluated (R426). -/
def Tx.countVotes (t : Tx) : Tx :=
  t.each (List.range 4) fun t n => if t.is (clpDie 0 n) && t.is (clpDie 1 n) then t.expelDie n else t

/-- VOTE (R426): the hub holds the vote or its withdrawal; a withdrawal against an expelled die no longer applies. -/
def execVote (c : Cleat2) (scope target cast _code : BitVec 8) (s : State) : Host.Outcome State Fault Refusal :=
  hubFrame c (fun t =>
    let n := target.toNat
    if scope = 1 then (if n = modid ∧ cast = 1 then t.set1 (clpMod c) else t)
    else if scope ≠ 0 ∨ 4 ≤ n then t
    else if cast = 1 then
      let t := if t.is (clpDie c n) then t else t.onClp fun p => { p with voteAt := p.voteAt.put (8 * c + n) (t.now + 1) }
      (t.set1 (clpDie c n)).countVotes
    else if bit t.d.expelled n then t
    else (t.wr (clpDie c n) 0).onClp fun p => { p with voteAt := p.voteAt.put (8 * c + n) 0 }) s

/-- RTFENCE_SET (R426, R191): one vote has stood for 20 ms without the other. -/
def execRtfenceSet (d : Die) (s : State) : Host.Outcome State Fault Refusal :=
  s.does fun t =>
    let va := t.is (clpDie 0 d)
    let vb := t.is (clpDie 1 d)
    let since := t.d.clp.voteAt.at (if va then d.val else 8 + d.val)
    if va = vb ∨ since = 0 ∨ t.now + 1 < since + 20000000 ∨ !t.dieOn d ∨ t.is (CD_SCH_CTL_RTFENCE d) then t
    else (t.wr (CD_SCH_CTL_RTFENCE d) 1).fenceRt d

/-- EVENT (R404, R553): the Cleat's entry for the steward's log. -/
def execEvent (c : Cleat2) (entry : List Byte) (s : State) : Host.Outcome State Fault Refusal :=
  hubFrame c (fun t => if entry.length ≠ 32 then t.hubDrop c else t.logBytes entry) s

/-- RELAY (R427): forwarded as it is toward its destination, a Cleat of this module or, over the Hawser, of the partner. -/
def execRelay (src dest : Fin 4) (msg : List Byte) (s : State) : Host.Outcome State Fault Refusal :=
  s.does fun t =>
    let own := src.val / 2 = modid
    let t := if own then t.set1 (clpLink (src.val % 2)) else t
    if 512 < msg.length then (if own then t.hubDrop (src.val % 2) else t)
    else if dest.val / 2 = modid then t.cleatFrame (dest.val % 2) "RELAY" msg
    else if own ∧ t.hawserUp then t.send "HAWSER" "RELAY" (dest.val :: msg.map (·.toNat)) else t

/-! The request ring (R417, R432, R632). -/

/-- The log of the ring's size; other values act as 4. -/
def Tx.clpLog (t : Tx) : Nat :=
  let l := t.rd CLP_CTL_LOG2SZ
  if 4 ≤ l ∧ l ≤ 12 then l else 4

/-- A write of CLP_DB. -/
def Tx.clpDoorbell (t : Tx) (v : Nat) : Tx :=
  let n := 2 ^ t.clpLog
  let tail := bits v 11 0
  let head := t.rd CLP_PTR_HEAD
  if tail ≥ n ∨ (tail + n - head) % n < (t.rd CLP_PTR_DBTAIL + n - head) % n then t.set1 CLP_STAT_CMDREF
  else t.wr CLP_PTR_DBTAIL tail

def execClpDoorbell (mid : Mid) (value : Word) (s : State) : Host.Outcome State Fault Refusal :=
  s.does fun t => t.swWrite mid.toNat CLP_DB (·.clpDoorbell value.toNat)

/-- A write of CLP_CTL or CLP_RBASE: while EN is 1 a new value of anything but EN is refused; an accepted write of the base or
of the size sets the indices to 0. -/
def Tx.writeClpSetup (t : Tx) (a v : Nat) : Tx :=
  if t.is CLP_CTL_EN ∧ a = CLP_CTL then
    if putBits v 0 0 1 &&& 0xFFFF0F01 = t.word CLP_CTL then t.wr CLP_CTL_EN (bits v 0 0) else t.set1 CLP_STAT_CMDREF
  else if t.is CLP_CTL_EN then t.set1 CLP_STAT_CMDREF
  else
    let was := t.clpLog
    let t := t.applyAt a v
    if a = CLP_CTL ∧ t.clpLog = was then t else t.setWord CLP_PTR 0

/-- A fetch fault halts the ring (R417, R432). -/
def Tx.clpHalt (t : Tx) : Tx := ((t.onClp fun p => { p with halted := true }).set1 CLP_STAT_HALT).irq 38

/-- The certificate in CERT frames of up to 4,096 bytes. -/
def Tx.certFrames (t : Tx) (bs : List Byte) : Tx :=
  t.each (List.range (ceilDiv bs.length 4096)) fun t i => t.cleatFrames "CERT" ((bs.drop (4096 * i)).take 4096)

/-- The entry at the ring's head, if it is of the kind asked for, is sent to both Cleats (R417). -/
def Tx.clpEntry (t : Tx) (admits : Bool) : Tx :=
  let head := t.rd CLP_PTR_HEAD
  if !t.is CLP_CTL_EN ∨ t.d.clp.halted ∨ head = t.rd CLP_PTR_DBTAIL ∨ !t.powered domFAB then t
  else
    let ctx := t.rd CLP_CTL_DEVCTX
    match t.vRead 4 ctx clpMid (sext48 (t.pair CLP_RBASE_LO / 64 * 64 + 64 * head)) 64 with
    | (t, .ok e) =>
      if (fld e 0 1 == 1) != admits then t
      else
        let t := t.cleatFrames "REQUEST" e
        let ended (t : Tx) (st : Nat) : Tx := t.cleatFrames "CERTEND" (leBytes 2 (fld e 2 2) ++ leBytes 1 st ++ leBytes 5 0)
        let next (t : Tx) : Tx := t.wr CLP_PTR_HEAD ((head + 1) % 2 ^ t.clpLog)
        if !admits then next (ended t 0)
        else match t.vRead 4 ctx clpMid (fld e 8 8) (fld e 4 4) with
          | (t, .ok bs) => next (ended (t.certFrames bs) 0)
          | (t, a) => if a.isHeld then t else (ended t 1).clpHalt
    | (t, a) => if a.isHeld then t else t.clpHalt

def execAdmitTask (s : State) : Host.Outcome State Fault Refusal := s.does fun t => t.clpEntry true
def execRevoke (s : State) : Host.Outcome State Fault Refusal := s.does fun t => t.clpEntry false

/-- CLP_HB (R432): a heartbeat frame for a task to both Cleats; COUNT is open. -/
def Tx.clpHb (t : Tx) (v : Nat) : Tx :=
  let (n, t) := t.fresh 32
  t.cleatFrames "HB" (leBytes 1 (bits v 6 0) ++ leBytes 3 0 ++ leBytes 4 n)

def execClpHb (mid : Mid) (value : Word) (s : State) : Host.Outcome State Fault Refusal :=
  s.does fun t => t.swWrite mid.toNat CLP_HB (·.clpHb value.toNat)

/-- A write of CLP_CMD (R432, R632). -/
def Tx.writeClpCmd (t : Tx) (v : Nat) : Tx :=
  match bits v 3 0 with
  | 1 => if t.d.clp.halted then t.onClp fun p => { p with halted := false } else t.set1 CLP_STAT_CMDREF
  | 2 => (t.onClp fun p => { p with halted := false }).wr CLP_PTR_HEAD (t.rd CLP_PTR_DBTAIL)
  | 3 => t.snapBlock CLP_CTL
  | _ => t.set1 CLP_STAT_CMDREF

def execClpResume (mid : Mid) (s : State) : Host.Outcome State Fault Refusal :=
  s.does fun t => t.swWrite mid.toNat CLP_CMD (·.writeClpCmd 1)
def execClpAbort (mid : Mid) (s : State) : Host.Outcome State Fault Refusal :=
  s.does fun t => t.swWrite mid.toNat CLP_CMD (·.writeClpCmd 2)

end Sys2Proof.Machine
end

