-- ==== Sys2Proof/Machine/Mailbox.lean ====
section
/-! DEFINITION.  Mailboxes (R446 to R452, R464 to R467), the interrupt files and the APLIC as commands (R453 to R462), and timers
(R436). -/

namespace Sys2Proof.Machine

/-! Interrupts. -/

/-- INTERRUPT_LEVEL (R456): a MSG entry of KIND 0x2 sets the level of a source. -/
def execInterruptLevel (source : BitVec 8) (level : Bool) (s : State) : Host.Outcome State Fault Refusal :=
  s.does fun t => t.when (t.powered domFAB) (·.setLevel source.toNat level)

/-- SETEIPNUM (R454, R458). -/
def execSeteipnum (mid : Mid) (slevel : Bool) (h : Hart) (value : Word) (s : State) : Host.Outcome State Fault Refusal :=
  s.does fun t => t.when (t.powered domFAB) (·.seteipnum mid.toNat slevel h value.toNat)

/-- The identity at the top of a file: pending, enabled, and below the threshold where there is one. -/
def Irq.top (q : Irq) (k : Nat) : Option Nat :=
  let (_, thr, en) := q.csr.at k
  ((q.files.at k).filter fun i => en.contains i && (thr == 0 || decide (i < thr))).foldl (fun m i => some (min i (m.getD i))) none

/-- The CSRs of a file as its hart holds them: eidelivery, eithreshold and the enabled identities. -/
def Tx.fileCsr (t : Tx) (k deliver thr : Nat) (en : List (BitVec 8)) : Tx :=
  t.onIrq fun q => { q with csr := q.csr.put k (deliver, thr, en.map (·.toNat)) }

/-- CLAIM (R454, R461): a write of mtopei or stopei clears the top pending identity. -/
def execClaim (h : Hart) (slevel : Bool) (threshold : BitVec 8) (enabled : List (BitVec 8)) (s : State) :
    Host.Outcome State Fault Refusal :=
  s.does fun t =>
    let k := fileKey slevel h
    let t := t.fileCsr k (t.d.irq.csr.at k).1 threshold.toNat enabled
    match t.d.irq.top k with
    | none => t
    | some i => t.onIrq fun q => { q with files := q.files.upd k fun l => l.filter (· != i) }

/-- A write to the APLIC by a master that configuration space accepts reaches its domain (R453, R620). -/
def Tx.aplAccess (t : Tx) (mid : Nat) (slevel : Bool) (o : Nat) (f : Tx → Tx) : Tx :=
  let a := 0x6000300000 + (if slevel then 0x8000 else 0) + o
  if (isHart mid || mid == steward) && t.powered domFAB then f t else t.decodeError mid a true

/-- GENMSI (R453). -/
def execGenmsi (mid : Mid) (slevel : Bool) (value : Word) (s : State) : Host.Outcome State Fault Refusal :=
  s.does fun t => t.aplAccess mid.toNat slevel 0x3000 (·.aplWrite slevel 0x3000 value.toNat)

/-- SOURCECFG_WRITE (R453, R461). -/
def execSourcecfgWrite (mid : Mid) (slevel : Bool) (source : BitVec 8) (value : Word) (s : State) :
    Host.Outcome State Fault Refusal :=
  s.does fun t => t.aplAccess mid.toNat slevel (4 * source.toNat) fun t =>
    if source.toNat = 0 then t else t.aplWrite slevel (4 * source.toNat) value.toNat

/-! Timers. -/

def Tx.onHart (t : Tx) (h : Nat) (f : HartSt → HartSt) : Tx := { t with d := { t.d with harts := t.d.harts.upd h f } }

/-- The cluster of a hart (R434). -/
def clusterOf (h : Nat) : Nat := h / 8
/-- The survival envelope holds harts 2 to 7 in reset (R504). -/
def Tx.hartHeld (t : Tx) (h : Nat) : Bool := decide (2 ≤ h) && decide (h < 8) && t.rd PBA_STAT_MODE == 2
/-- A hart runs: its cluster's domain has power, and the hart is not held in reset. -/
def Tx.hartOn (t : Tx) (h : Nat) : Bool := t.powered (domAC (clusterOf h)) && !t.hartHeld h

/-- The machine timer of hart `h` follows device time and MTIMECMP (R436). -/
def Tx.mtimer (t : Tx) (h : Nat) : Tx := t.onHart h fun x => { x with mtip := decide (t.pair (MTIMECMP_LO (h / 8) (h % 8)) ≤ t.now) }

/-- MACHINE_TIMER (R436). -/
def execMachineTimer (h : Hart) (s : State) : Host.Outcome State Fault Refusal :=
  s.does fun t => t.when (t.hartOn h) (·.mtimer h)

/-- SUPERVISOR_TIMER (R436): the stimecmp CSR of the hart holds `cmp`. -/
def execSupervisorTimer (h : Hart) (cmp : BitVec 64) (s : State) : Host.Outcome State Fault Refusal :=
  s.does fun t => t.when (t.hartOn h) (·.onHart h fun x => { x with stimecmp := cmp.toNat, stip := decide (cmp.toNat ≤ t.now) })

/-- INTERRUPT_TAKEN (R462): a hart whose interrupt is pending and enabled, above the threshold of its file and not masked, enters its
trap handler; cause codes are those of the privileged architecture (log entry 61). -/
def execInterruptTaken (h : Hart) (slevel timer masked deliver : Bool) (threshold : BitVec 8) (enabled : List (BitVec 8)) (s : State) :
    Host.Outcome State Fault Refusal :=
  s.does fun t =>
    let k := fileKey slevel h
    let t := t.fileCsr k (if deliver then 1 else 0) threshold.toNat enabled
    let x := t.d.harts.at h
    let pending := if timer then (if slevel then x.stip else x.mtip) else deliver && (t.d.irq.top k).isSome
    if !pending || masked || x.halted || !t.hartOn h then t
    else t.onHart h fun x => { x with trap := some (2 ^ 63 + (if timer then 5 else 9) + (if slevel then 0 else 2), 0) }

end Sys2Proof.Machine
end

