-- ==== Sys2Proof/Machine/FieldTests.lean ====
section
/-! DEFINITION.  Tests at power-on and in the field, their leases and their repairs (R535 to R543, R548), and the block HD_TST (R557,
R558). -/

namespace Sys2Proof.Machine

def Tx.onTst (t : Tx) (f : Tst → Tst) : Tx := { t with d := { t.d with tst := f t.d.tst } }

/-- The domain that a test of Shelf groups, a die or a bond draws its grant on (R538). -/
def testDom (test unit : Nat) : Option Nat :=
  match test with
  | 4 => some (domSH (unit / 3) (unit % 3))
  | 2 | 5 => some (domCD unit)
  | _ => none

/-- A unit of a test exists (R535). -/
def testUnitOk (test unit : Nat) : Bool :=
  match test with
  | 1 => decide (unit < 50)
  | 2 | 5 => decide (unit < 4)
  | 4 => decide (unit < 12)
  | 6 => decide (unit < 8)
  | _ => true

/-- The grant of a test is released (R538). -/
def Tx.bistEnd (t : Tx) (d : Nat) : Tx :=
  if !t.is (PBA_DOM_BIST d) then t
  else match t.applyReq { op := 5, dom := d, tokens := 0 } with
    | some t => t
    | none => t.wr (PBA_DOM_BIST d) 0

/-! Leases (R539). -/

/-- The steward sends a lease message: its tag alone, with pointer 0. -/
def Tx.leaseSend (t : Tx) (op : Nat) (l : Lease) : Tx :=
  t.stewardPost (t.cfgFld 0x18 1) 0 (op * 2 ^ 28 + l.kind * 2 ^ 24 + l.unit * 2 ^ 16 + l.id)

/-- The test of a kind of lease. -/
def Lease.test (l : Lease) : Nat := if l.kind = 1 then 4 else 5

/-- The lease ends: the grant goes, and RELEASE or LOST to the runtime. -/
def Tx.leaseEnd (t : Tx) (lost : Bool) : Tx :=
  match t.d.tst.lease with
  | none => t
  | some l =>
    let t := match testDom l.test l.unit with
      | some d => t.bistEnd d
      | none => t
    (t.onTst fun s => { s with lease := none }).leaseSend (if lost then 6 else 2) l

/-- A Shelf group goes off and on again: it comes up with its repairs and initialises to zero (R238, R547). -/
def Tx.groupCycle (t : Tx) (g : Nat) : Tx :=
  let d := domSH (g / 3) (g % 3)
  (t.cutDomains [d]).powerUp d

/-- The contents a Shelf test leaves are open. -/
def Tx.groupOpen (t : Tx) (g : Nat) : Tx :=
  let lo := shelfKey (g / 3) (g % 3) 0
  (t.m.map (·.1) ++ t.s.mem.map (·.1)).foldl (fun t a =>
    if lo ≤ a ∧ a < lo + 0x4000000 then
      let (v, t) := t.fresh 8
      t.wb a (BitVec.ofNat 8 v)
    else t) t

/-- SHELF_INIT_DONE (R238): READY and INIT set; a lease that waited for it ends (R539). -/
def execShelfInitDone (n : Die) (g : Fin 3) (s : State) : Host.Outcome State Fault Refusal :=
  s.does fun t => t.when (t.powered (domSH n g) && !bit (t.rd HD_SHF_STAT_READY) (3 * n + g)) fun t =>
    let t := t.shelfReady n g
    match t.d.tst.lease with
    | some l => if l.granted ∧ l.kind = 1 ∧ l.unit = 3 * n.val + g.val ∧ t.d.tst.cur.isNone then t.leaseEnd false else t
    | none => t

/-! Results and repairs. -/

/-- The 32-byte result record (R536). -/
def testRecord (test verdict unit addr bit_ count expect observed duration now : Nat) : List Byte :=
  leBytes 1 test ++ leBytes 1 verdict ++ leBytes 2 unit ++ leBytes 4 addr ++ leBytes 2 bit_ ++ leBytes 2 (min count 0xFFFF) ++
    leBytes 4 expect ++ leBytes 4 observed ++ leBytes 4 duration ++ leBytes 8 now

/-- A Shelf entry of the repair map (R545): a row, or a column. -/
def shelfRow (sub row : Nat) : Nat := 2 ^ 30 + sub * 2 ^ 22 + row
def shelfCol (sub col : Nat) : Nat := 2 ^ 31 + sub * 2 ^ 22 + col

/-- One row of a group, of 65,536, with its failing columns is repaired; the answer tells whether a spare was found (R542). -/
def Tx.repairRow (t : Tx) (g : Nat) (x : Nat × List Nat) : Tx × Bool :=
  let (rows, cols) := t.d.repair.shelf.at g
  let sub := x.1 / 256
  let here (e : Nat) : Bool := bits e 29 22 == sub
  let addCol (c : Nat) : Tx := t.repair 1 g (shelfCol sub c) fun r => { r with shelf := r.shelf.put g (rows, cols ++ [shelfCol sub c]) }
  let addRow : Tx := t.repair 1 g (shelfRow sub (x.1 % 256)) fun r => { r with shelf := r.shelf.put g (rows ++ [shelfRow sub (x.1 % 256)], cols) }
  if rows.contains (shelfRow sub (x.1 % 256)) || x.2.all (fun c => cols.contains (shelfCol sub c)) then (t, true)
  else match x.2 with
    | [c] => if cols.countP here < 4 then (addCol c, true) else if rows.countP here < 4 then (addRow, true) else (t, false)
    | _ => if rows.countP here < 4 then (addRow, true) else (t, false)

/-- The failing rows of a group with their columns, from line indices and bits. -/
def shelfRows (finds : List (Nat × Nat)) : List (Nat × List Nat) :=
  let rows := (finds.map fun x => x.1 / 16).eraseDups
  rows.map fun r => (r, ((finds.filter fun x => x.1 / 16 == r).map fun x => x.1 % 16 * 544 + x.2).eraseDups)

/-- A die is marked DIEBAD: it is left without power, and both Cleats are told (R542). -/
def Tx.dieBad (t : Tx) (n : Nat) : Tx :=
  if bit (t.d.repair.die.at n) 8 then t
  else
    let t := t.repair 5 n (t.d.repair.die.at n ||| 0x100) fun r => { r with die := r.die.upd n (· ||| 0x100) }
    if t.powered (domCD n) then t.cutDomains (dieDoms n) else (t.cutDomains (dieDoms n)).notice 0x0B [n]

/-- A bit set in DIE of the repair map. -/
def Tx.dieMark (t : Tx) (n detail b : Nat) : Tx :=
  if bit (t.d.repair.die.at n) b then t
  else t.repair detail n (t.d.repair.die.at n ||| 2 ^ b) fun r => { r with die := r.die.upd n (· ||| 2 ^ b) }

/-- The repairs of a known-answer test whose ADDR is `a` (R541, R542). -/
def Tx.repairKat (t : Tx) (n a : Nat) : Tx :=
  let usable := 15 &&& ((t.d.tst.saved.1 ||| t.rd (CD_BRD_QCTL_QFENCE n)) ^^^ 15)
  let q := bits a 3 0
  let p := bits a 7 4
  if bit a 8 || (q != 0 && usable &&& q == usable) then t.dieBad n
  else
    let t := t.each ((List.range 4).filter (bit q)) fun t i =>
      (t.wr (CD_BRD_QCTL_QFENCE n) (t.rd (CD_BRD_QCTL_QFENCE n) ||| 2 ^ i)).dieMark n 3 i
    let t := t.each ((List.range 4).filter (bit p)) fun t i => t.dieMark n 4 (4 + i)
    let bad := bits (t.d.repair.die.at n) 7 4
    let t := t.wr (CD_STR_CTL_PAIROFF n) (t.rd (CD_STR_CTL_PAIROFF n) ||| bad)
    if bad = 15 then t.dieBad n else t

/-- The repairs of a test that found failures, and its VERDICT (R542). -/
def Tx.testRepair (t : Tx) (test unit : Nat) (finds : List (Nat × Nat)) : Tx × Nat :=
  match test with
  | 1 => (t.each finds fun t x => if x.2 < 18 then t.laneBad (min (unit / 8) 4) (if unit < 32 then unit % 8 else unit - 32) x.2 else t, 1)
  | 2 => (t.dieBad unit, 1)
  | 4 =>
    let (t, ok) := (shelfRows finds).foldl (fun (t, ok) x =>
      match t.repairRow unit x with
      | (t, k) => (t, ok && k)) (t, true)
    if ok then (t, 1)
    else if bit t.d.repair.gexcl unit then (t, 2)
    else (t.repair 8 unit (t.d.repair.gexcl ||| 2 ^ unit) fun r => { r with gexcl := r.gexcl ||| 2 ^ unit }, 2)
  | 5 => (t.repairKat unit (finds.foldl (fun m x => m ||| x.1) 0), 1)
  | 6 => (if bit t.d.repair.spbad unit then t else t.repair 7 unit (t.d.repair.spbad ||| 2 ^ unit) fun r => { r with spbad := r.spbad ||| 2 ^ unit }, 1)
  | _ => (t, 2)

/-- A test ends (R536, R558): its record, its counts, its log entry of class 0x01. -/
def Tx.testResult (t : Tx) (test unit began verdict : Nat) (finds : List (Nat × Nat)) (expect observed : Nat) : Tx :=
  let (a, b) := finds.headD (0, 0)
  let r := testRecord test verdict unit a b finds.length (if finds.isEmpty then 0 else expect) (if finds.isEmpty then 0 else observed)
    ((t.now - began) / 1000) t.now
  let t := t.each (List.range 8) fun t i => t.setWord (TST_RES i) (fld r (4 * i) 4)
  let t := ((t.wr TST_STAT_BUSY 0).set1 TST_STAT_DONE).when (verdict == 1 || verdict == 2) (·.set1 TST_STAT_FAIL)
  let t := if verdict = 0 then t.inc TST_CNT_PASSES else if verdict < 3 then t.inc TST_CNT_FAILS else t
  let key := if test = 1 then 64 else 64 * test + unit
  let t := t.onTst fun s => { s with cur := none, ran := if verdict < 3 then s.ran.put key (t.now + 1) else s.ran, told := if verdict < 3 then s.told.put key 0 else s.told }
  let (v, t) := t.pick 4
  t.logEntry 0 v (0x100 + test) unit a (b + 2 ^ 16 * verdict)

/-- What the steward restores once a test has ended: the weight of a module, the switches of a die, the lease (R539 to R541, R543). -/
def Tx.testRestore (t : Tx) (test unit verdict : Nat) : Tx :=
  let t := match t.d.tst.weight with
    | some (u, w) => if test = 1 then (t.onTst fun s => { s with weight := none }).setWeight (min (u / 8) 4) (if u < 32 then u % 8 else u - 32) w else t
    | none => t
  let t := if test = 5 then
      let bad := bits (t.d.repair.die.at unit) 7 4
      (t.wr (CD_BRD_QCTL_QOFF unit) t.d.tst.saved.1).wr (CD_STR_CTL_PAIROFF unit) (t.d.tst.saved.2 ||| bad)
    else t
  match t.d.tst.lease with
  | some l =>
    if l.test ≠ test ∨ l.unit ≠ unit then t
    else if test = 4 ∧ (verdict = 1 ∨ verdict = 3) then t.groupCycle unit
    else if test = 4 ∧ verdict = 0 then (t.groupOpen unit).leaseEnd false
    else t.leaseEnd (test == 5 && bit (t.d.repair.die.at unit) 8)
  | none => t

/-- The test under way is aborted (R536, R543). -/
def Tx.testAbort (t : Tx) : Tx :=
  match t.d.tst.cur with
  | none => t
  | some (test, unit, began) => (t.testResult test unit began 3 [] 0 0).testRestore test unit 3

/-- A test begins. -/
def Tx.testBegin (t : Tx) (test unit : Nat) : Tx :=
  let t := t.onTst fun s => { s with cur := some (test, unit, t.now) }
  let t := if test = 5 then t.onTst fun s => { s with saved := (t.rd (CD_BRD_QCTL_QOFF unit), t.rd (CD_STR_CTL_PAIROFF unit)) } else t.set1 TST_STAT_BUSY
  t.wr TST_STAT_TEST test

/-- A write of TST_CMD (R538, R558). -/
def Tx.writeTstCmd (t : Tx) (v : Nat) : Tx :=
  let test := bits v 11 8
  let unit := bits v 27 16
  match bits v 3 0 with
  | 1 =>
    let grant := match testDom test unit with
      | some d => t.is (PBA_DOM_BIST d)
      | none => true
    if t.d.tst.cur.isSome || test = 0 || test = 5 || 7 < test || !testUnitOk test unit || !grant then t.set1 TST_STAT_CMDREF
    else t.testBegin test unit
  | 2 => if t.is TST_STAT_BUSY then t.testAbort else t.set1 TST_STAT_CMDREF
  | 3 => t.snapBlock TST_STAT
  | _ => t.set1 TST_STAT_CMDREF

/-- TEST_START (R538). -/
def execTestStart (mid : Mid) (test : Fin 16) (unit : BitVec 12) (s : State) : Host.Outcome State Fault Refusal :=
  s.does fun t => t.swWrite mid.toNat TST_CMD (·.writeTstCmd (1 + 2 ^ 8 * test.val + 2 ^ 16 * unit.toNat))

/-- TEST_ABORT (R543). -/
def execTestAbort (mid : Mid) (s : State) : Host.Outcome State Fault Refusal :=
  s.does fun t => t.swWrite mid.toNat TST_CMD (·.writeTstCmd 2)

/-- A test cannot go on: its domain has lost power, or the migration has taken its spare (R543). -/
def Tx.testCut (t : Tx) (test unit : Nat) : Bool :=
  match testDom test unit with
  | some d => !t.powered d
  | none => test == 6 && ((List.range 64).any (fun q => t.rmap q == 8 + unit) || (t.rd HD_DMAP_MSTAT_STATE != 0 && t.rd HD_DMAP_MSTAT_SPARE == unit))

/-- TEST_DONE (R536, R542): the test under way has found these failures, as ADDR and BIT in test order, the first with its expected and
observed values. -/
def execTestDone (finds : List (Nat × Nat)) (expect observed : Word) (s : State) : Host.Outcome State Fault Refusal :=
  s.does fun t =>
    match t.d.tst.cur with
    | none => t
    | some (test, unit, began) =>
      if t.testCut test unit then (if test = 6 ∧ !finds.isEmpty then (t.testRepair 6 unit finds).1 else t).testAbort
      else
        let (t, verdict) := if finds.isEmpty then (t, 0) else t.testRepair test unit finds
        let t := t.testResult test unit began verdict finds expect.toNat observed.toNat
        let t := if test = 7 ∧ verdict = 2 then (t.onTst fun s => { s with hubBad := true }).logEntry 0 3 0x107 unit 0 0 else t
        t.testRestore test unit verdict

/-! The steward's schedule. -/

/-- The message at the head of the reply channel, if it is of operation `op` for the lease at hand; it is taken (R539). -/
def Tx.leaseReply (t : Tx) (op : Nat) : Option (Lease × Tx) :=
  let ch := t.cfgFld 0x19 1
  match t.d.sec.cfg, t.stewardHead ch, t.d.tst.lease with
  | some _, some (_, tag), some l =>
    if bits tag 31 28 = op ∧ bits tag 27 16 = l.kind * 2 ^ 8 + l.unit ∧ bits tag 15 0 = l.id then some (l, t.mbxPop steward ch 1) else none
  | _, _, _ => none

/-- The hardware shows the unit ready for its test (R539). -/
def Tx.leaseReady (t : Tx) (l : Lease) : Bool :=
  if l.kind = 1 then !bit (t.rd HD_SHF_GCFG_INTL) l.unit
  else !t.held l.unit && t.rd (CD_SCH_CTL_RINGEN l.unit) == 0 && t.rd (CD_SCH_STAT_BUSYCTX l.unit) == 0

/-- The leased test begins once its grant stands. -/
def Tx.leaseTry (t : Tx) (l : Lease) : Tx :=
  match testDom l.test l.unit with
  | none => t
  | some d =>
    let t := if t.is (PBA_DOM_BIST d) then t else t.writePbaReq steward (2 ^ 30 + d * 2 ^ 16)
    if !t.is (PBA_DOM_BIST d) || t.d.tst.cur.isSome then t
    else if l.kind = 1 then t.writeTstCmd (1 + 2 ^ 8 * 4 + 2 ^ 16 * l.unit) else t.testBegin 5 l.unit

/-- LEASE_GRANT (R539). -/
def execLeaseGrant (s : State) : Host.Outcome State Fault Refusal :=
  s.does fun t =>
    match t.leaseReply 3 with
    | none => t
    | some (l, t) =>
      if t.leaseReady l then
        let l := { l with granted := true }
        (t.onTst fun s => { s with lease := some l }).leaseTry l
      else
        let (v, t) := t.fresh 16
        (t.leaseEnd false).logEntry 0 2 v l.unit 0 0

/-- LEASE_DENY (R539): the test waits for its next interval. -/
def execLeaseDeny (s : State) : Host.Outcome State Fault Refusal :=
  s.does fun t =>
    match t.leaseReply 4 with
    | none => t
    | some (_, t) => t.onTst fun s => { s with lease := none }

/-- LEASE_REVOKE (R539, R543). -/
def execLeaseRevoke (s : State) : Host.Outcome State Fault Refusal :=
  s.does fun t =>
    match t.leaseReply 5 with
    | none => t
    | some (l, t) => if (t.d.tst.cur.map fun c => (c.1, c.2.1)) = some (l.test, l.unit) then t.testAbort else t.leaseEnd false

/-- The interval of a field test in ns (R535). -/
def testInterval (test : Nat) : Nat := if test = 1 then 14400000000000 else 86400000000000

/-- The module end `u` may have weight 0 without a cut of any effective guarantee (R540). -/
def Tx.laneFree (t : Tx) (u : Nat) : Bool :=
  let e := min (u / 8) 4
  let k := if u < 32 then u % 8 else u - 32
  let t' := t.each (lnkEnds e k) fun t (e, k) => t.wr (LNK_MST_STATE (lnkBase e) k) 3
  let was := t.loads
  let now := t'.loads
  t.lnkState e k == 2 && engineRegs.all fun (b, i) =>
    t'.effective now b i false == t.effective was b i false && t'.effective now b i true == t.effective was b i true

/-- The next module end in rotation is tested (R540). -/
def Tx.laneTest (t : Tx) : Tx :=
  match ((List.range 50).map fun i => (t.d.tst.lane + i) % 50).find? t.laneFree with
  | none => t
  | some u =>
    let e := min (u / 8) 4
    let k := if u < 32 then u % 8 else u - 32
    let w := if t.is (LNK_MST_X8 (lnkBase e) k) then 1 else 2
    ((t.onTst fun s => { s with lane := (u + 1) % 50, weight := some (u, w) }).setWeight e k 0).writeTstCmd (1 + 2 ^ 8 + 2 ^ 16 * u)

/-- A lease on a unit is asked for. -/
def Tx.leaseAsk (t : Tx) (kind unit : Nat) : Tx :=
  let l : Lease := { id := t.d.tst.nextLease, kind := kind, unit := unit }
  (t.onTst fun s => { s with lease := some l, nextLease := (s.nextLease + 1) % 65536 }).leaseSend 1 l

/-- The test of a unit is set going. -/
def Tx.testSchedule (t : Tx) (test unit : Nat) : Tx :=
  if t.d.tst.cur.isSome then t
  else match test, t.d.tst.lease with
    | 1, _ => t.laneTest
    | 6, _ =>
      if bit t.d.repair.spbad unit || t.testCut 6 unit then t else t.writeTstCmd (1 + 2 ^ 8 * 6 + 2 ^ 16 * unit)
    | 4, none => if t.d.sec.cfg.isSome && t.powered (domSH (unit / 3) (unit % 3)) && !bit (t.rd HD_SHF_GCFG_INTL) unit then t.leaseAsk 1 unit else t
    | 5, none => if t.d.sec.cfg.isSome && t.powered (domCD unit) then t.leaseAsk 2 unit else t
    | _, some l => if l.granted ∧ l.test = test ∧ l.unit = unit then t.leaseTry l else t
    | _, _ => t

/-- FIELD_TEST_DUE (R540): a test whose interval has passed is set going; from twice its interval on it is overdue, and every further
interval a WARN entry says so (its CODE is open). -/
def execFieldTestDue (test : Fin 8) (unit : Fin 64) (s : State) : Host.Outcome State Fault Refusal :=
  s.does fun t =>
    let key := if test.val = 1 then 64 else 64 * test.val + unit.val
    let last := t.d.tst.ran.at key - 1
    let iv := testInterval test
    let told := t.d.tst.told.at key
    if !t.powered domSTW || !([1, 4, 5, 6].contains test.val) || !testUnitOk test unit || t.now < last + iv then t
    else
      let t := if last + 2 * iv ≤ t.now ∧ (told = 0 ∨ told - 1 + iv ≤ t.now) then
          let (c, t) := t.fresh 16
          (t.onTst fun s => { s with told := s.told.put key (t.now + 1) }).logEntry 0 2 c unit test 0
        else t
      t.testSchedule test unit

end Sys2Proof.Machine
end

