-- ==== Sys2Proof/Machine/Objects.lean ====
section
/-! DEFINITION.  Signed objects and their validity (R563 to R566), the selection of copies (R567), the module configuration (R568),
the qualified set (R571, R572), and the rules of a safety parameter block (R402). -/

namespace Sys2Proof.Machine

def Tx.onSec (t : Tx) (f : Sec → Sec) : Tx := { t with d := { t.d with sec := f t.d.sec } }

/-- Bytes `o` to below `o + n` are zero. -/
def zeros (bs : List Byte) (o n : Nat) : Bool := ((bs.drop o).take n).all (· == 0#8)

/-- The lifecycle state: the number of its fields with at least 8 bits set (R578). -/
def Sec.lifecycle (s : Sec) : Nat := ((List.range 3).filter fun i => decide (8 ≤ s.lcBits.at i)).length

/-! Headers (R563). -/

def objType (h : List Byte) : Nat := fld h 4 2
def objSigner (h : List Byte) : Nat := fld h 6 1
def objVersion (h : List Byte) : Nat := fld h 8 4
def objCtr (h : List Byte) : Nat := fld h 0x0C 1
def objSvn (h : List Byte) : Nat := fld h 0x0D 1
def objLength (h : List Byte) : Nat := fld h 0x10 8

/-- The number of key `idx` of a signer in OTP (R565): Belpetre 0 to 3, the integrator 4 and 5, manufacturing 6. -/
def keyNo (signer idx : Nat) : Option Nat :=
  if signer = 0 ∧ idx < 4 then some idx else if signer = 1 ∧ idx < 2 then some (4 + idx) else if signer = 2 ∧ idx = 0 then some 6 else none

/-- A signer may sign a TYPE in a lifecycle state (R564; a token's signer is R578's to judge). -/
def maySign (lc signer ty : Nat) : Bool :=
  (signer == 2 && lc == 0) || (signer == 0 && decide (1 ≤ ty) && decide (ty ≤ 4)) || (signer == 1 && decide (5 ≤ ty) && decide (ty ≤ 7)) ||
    (ty == 8 && decide (signer < 2))

/-- What a verifier holds: lifecycle state, keys present and not revoked, the module's serial, counters. -/
structure Verifier where
  lc : Nat
  keys : Nat
  serial : Nat
  ctr : Nat → Nat

/-- Both signatures verify over these bytes with a key that is present and not revoked. -/
def Verifier.signed (v : Verifier) (signer idx : Nat) (bytes sig : List Byte) : Bool :=
  match keyNo signer idx with
  | some k => bit v.keys k && Config.sigValid k (bytes.map (·.toNat)) (sig.map (·.toNat)) % 2 == 1
  | none => false

/-- A header of 0x1000 bytes is that of a valid object of TYPE `ty`, its payload and SVN apart (R564). -/
def Verifier.header (v : Verifier) (ty : Nat) (h : List Byte) : Bool :=
  fld h 0 4 == 0x5A534F31 && objType h == ty && h.length == 0x1000 && decide (fld h 0x50 2 ≤ 32) && zeros h 0x0E 2 && zeros h 0x52 14 &&
    zeros h 0x260 32 && zeros h 0xFCD 51 && maySign v.lc (objSigner h) ty && decide (objCtr h < 6) &&
    (fld h 0x18 8 == 0 || fld h 0x18 8 == v.serial) && v.signed (objSigner h) (fld h 7 1) (h.take 0x280) ((h.drop 0x280).take 0xD4D)

/-- SVN is at least the counter's value (R564, R566). -/
def Verifier.fresh (v : Verifier) (h : List Byte) : Bool := decide (objSvn h ≤ 64) && decide (v.ctr (objCtr h) ≤ objSvn h)

/-- A payload is LENGTH bytes and has the header's HASH. -/
def payloadOk (h payload : List Byte) : Bool :=
  payload.length == objLength h && sha384 payload == (h.drop 0x20).take 48

/-- The object is valid (R564). -/
def Verifier.object (v : Verifier) (ty : Nat) (h payload : List Byte) : Bool := v.header ty h && v.fresh h && payloadOk h payload

/-- The serial number that OTP holds (R634). -/
def serialNo : Nat := Config.otpId 1 % 2 ^ 32 + Config.otpId 2 % 2 ^ 32 * 2 ^ 32

/-- The hub as a verifier. -/
def Tx.verifier (t : Tx) : Verifier :=
  let s := t.d.sec
  { lc := s.lifecycle, keys := s.keys &&& (0x7F ^^^ (s.revoked &&& 0x7F)), serial := serialNo, ctr := fun i => s.ctr.at i }

/-- Cleat `c` as a verifier: its own OTP has the same keys, and its own counter for its image (R565, R566); counters of other objects it
does not hold. -/
def Tx.clVerifier (t : Tx) (c : Nat) : Verifier := { t.verifier with ctr := fun i => if i = 1 then (t.cl c).otp else 0 }

/-! Copies in NOR (R567). -/

/-- Where copy `c` of TYPE `ty` begins. -/
def norAt (ty c : Nat) : Nat := norBase + c * 0x4000000 + Config.norOffset ty c

/-- The header and the payload of a copy; nothing where the header names a payload beyond the device. -/
def Tx.norObject (t : Tx) (ty c : Nat) : List Byte × List Byte :=
  let h := t.rdBytes (norAt ty c) 0x1000
  if fld h 0 4 ≠ 0x5A534F31 ∨ 0x4000000 < objLength h then (h, []) else (h, t.rdBytes (norAt ty c + 0x1000) (objLength h))

/-- A copy is valid. -/
def Tx.copyOk (t : Tx) (ty c : Nat) : Bool :=
  let (h, p) := t.norObject ty c
  t.verifier.object ty h p

/-- The running copy of a TYPE: its header and payload. -/
def Tx.running (t : Tx) (ty : Nat) : Option (List Byte × List Byte) :=
  match t.d.sec.sel.at ty with
  | 0 => none
  | c + 1 => some (t.norObject ty c)

/-- The boot control record is rewritten: how its bytes lie in the NOR devices is open. -/
def Tx.writeBcr (t : Tx) : Tx :=
  t.each [norBase, norBase + 0x4000000] fun t a =>
    let (v, t) := t.fresh 512
    t.wrBytes a (leBytes 64 v)

/-- The copy of one TYPE is chosen (R567). -/
def Tx.selectCopy (t : Tx) (ty : Nat) : Tx :=
  let b := t.d.sec.bcr.at (ty - 1)
  let spent := bit b 1 && bits b 3 2 == 0
  let b' := if spent then (1 - b % 2) else b
  let t := if spent then (t.onSec fun s => { s with bcr := s.bcr.put (ty - 1) b' }).writeBcr.wr SEC_BOOT_FALLBACK 1 else t
  let pref := b' % 2
  if t.copyOk ty pref then t.onSec fun s => { s with sel := s.sel.put ty (pref + 1) }
  else
    let other := 1 - pref
    if t.copyOk ty other then (t.onSec fun s => { s with sel := s.sel.put ty (other + 1) }).wr SEC_BOOT_FALLBACK 1
    else t.onSec fun s => { s with sel := s.sel.put ty 0 }

/-- HD_SEC shows the running copies (R588). -/
def Tx.showCopies (t : Tx) : Tx :=
  let tys := [1, 2, 3, 4, 5, 6, 7]
  let s := t.d.sec
  let copies := tys.foldl (fun m ty => if s.sel.at ty = 2 then m + 2 ^ (ty - 1) else m) 0
  let trial := tys.any fun ty => bit (s.bcr.at (ty - 1)) 1 && s.sel.at ty == s.bcr.at (ty - 1) % 2 + 1
  let t := (t.wr SEC_BOOT_COPY copies).wr SEC_BOOT_TRIAL (if trial then 1 else 0)
  t.each tys fun t ty => t.setWord (SEC_VER (ty - 1)) (((t.running ty).map fun o => objVersion o.1).getD 0)

/-! Qualification (R571, R572). -/

/-- An item of the running set: WHAT, and its identity word or VERSION. -/
abbrev Item := Nat × Nat

/-- A qualified entry of a header matches an item. -/
def qualMatch (h : List Byte) (i : Nat) (x : Item) : Bool :=
  let o := 0x60 + 16 * i
  let lo := fld h (o + 4) 4
  let hi := fld h (o + 8) 4
  fld h o 1 == x.1 && zeros h (o + 1) 3 &&
    (if 0x80 ≤ x.1 then decide (lo ≤ x.2) && decide (x.2 ≤ hi)
     else bits x.2 31 24 == x.1 && (x.1 == 5 || bits x.2 23 16 == 0x48) && decide (lo ≤ x.2 % 2 ^ 16) && decide (x.2 % 2 ^ 16 ≤ hi))

/-- The pairs of an image and an item of the set that no entry of the image matches: TYPE, then WHAT. -/
def unmatched (heads : List (Nat × List Byte)) (dies : List Item) : List (Nat × Item) :=
  heads.flatMap fun own =>
    let others : List Item := (heads.filter fun o => o.1 != own.1).map fun o => (0x80 + o.1, objVersion o.2)
    ((dies ++ others).filter fun x => !(List.range (fld own.2 0x50 2)).any fun i => qualMatch own.2 i x).map fun x => (own.1, x)

/-- The die items among identity words: a word of zero stands for no die. -/
def dieItems (ws : List (Nat × Nat)) : List Item := ws.filter fun x => x.2 != 0

/-- Compute die `n` is marked DIEBAD in the repair map (R545). -/
def Tx.dieMarked (t : Tx) (n : Nat) : Bool := bit (t.d.repair.die.at n) 8

/-- The eleven words of the identity list (R573): a die marked DIEBAD is not in the running set. -/
def Tx.identityWords (t : Tx) : List Nat :=
  t.word ID_HD :: (List.range 4).map (fun n => if t.dieMarked n then 0 else t.word (ID_CD n)) ++ (List.range 4).map (fun n => t.word (ID_BT n)) ++
    [t.word ID_GS, 0]

/-- The kinds of the words of the list. -/
def identityItems (ws : List Nat) : List Item := dieItems ([1, 2, 2, 2, 2, 3, 3, 3, 3, 5].zip ws)

/-- The objects of the running set, or nothing where one is missing. -/
def Tx.runningHeads (t : Tx) : Option (List (Nat × List Byte)) :=
  ([1, 2, 3, 5]).foldl (fun acc ty =>
    match acc, t.running ty with
    | some xs, some o => some (xs ++ [(ty, o.1)])
    | _, _ => none) (some [])

/-- The pairs that keep the module from being qualified, and whether an object is missing (R572, R574). -/
def Tx.unqualified (t : Tx) : List (Nat × Item) × Bool :=
  match t.runningHeads with
  | none => ([], true)
  | some hs => (unmatched hs (identityItems t.identityWords ++ dieItems [(4, t.word ID_CLA), (4, t.word ID_CLB)]), t.d.sec.sel.at 4 == 0)

/-! The module configuration (R568). -/

/-- An ETHPORT entry's fields are in range. -/
def ethEntryOk (p : List Byte) : Bool :=
  decide (fld p 6 1 ≤ 1) && zeros p 7 1 && (List.range 8).all (fun i => decide (fld p (8 + i) 1 < 8)) && decide (fld p 0x10 2 ≤ 128) && zeros p 0x12 2 &&
    (List.range 128).all (fun i => zeros p (0x221 + 8 * i) 3) && zeros p 0x620 992

/-- The payload is a valid module configuration. -/
def cfgOk (p : List Byte) : Bool :=
  let f := fld p
  p.length == 0x6000 && f 0 4 == 0x4D434631 && f 4 4 == 1 && f 8 4 == 0x6000 && zeros p 0x0C 4 && decide (600 ≤ f 0x10 2) && decide (f 0x10 2 ≤ 4500) &&
    decide (f 0x12 2 < 4096) && decide (f 0x14 1 < 16) && (decide (f 0x15 1 < 8) || f 0x15 1 == 0xFF) && zeros p 0x1D 3 && zeros p 0x30 16 &&
    decide (f 0xC40 4 < 1024) && zeros p 0xC44 28 && (List.range 15).all (fun r => zeros p (0xD0C + 16 * r) 4) && zeros p 0xDF4 12 &&
    zeros p 0xE3C 4 && zeros p 0xE40 448 && (List.range 8).all fun e => ethEntryOk ((p.drop (0x1000 + 0xA00 * e)).take 0xA00)

/-! The safety parameter block (R402). -/

/-- A task entry holds together (R414). -/
def taskOk (p : List Byte) (i : Nat) : Bool :=
  let o := 0x9D0 + 32 * i
  decide (fld p o 1 ≤ 3) && decide (fld p (o + 1) 1 ≤ 2) && (fld p o 1 != 3 || decide (fld p (o + 2) 1 ≤ 7)) && zeros p (o + 3) 1 && zeros p (o + 0x1C) 4 &&
    (decide (2 ≤ i) || (fld p o 1 == 3 && fld p (o + 1) 1 == 2 && fld p (o + 2) 1 == i))

/-- A CANIN entry holds together (R408). -/
def caninOk (p : List Byte) (i : Nat) : Bool :=
  let o := 0x19D0 + 32 * i
  let f (k n : Nat) : Nat := fld p (o + k) n
  let kind := f 5 1
  if kind = 0 then zeros p o 32
  else
    decide (kind ≤ 6) && bits (f 0 4) 30 29 == 0 && (bit (f 0 4) 31 || bits (f 0 4) 28 11 == 0) && decide (f 4 1 ≤ 1) &&
      (if kind ≤ 4 then decide (1 ≤ f 6 2) && decide (f 6 2 ≤ 1000) else f 6 2 == 0) && decide (f 8 2 ≤ 511) &&
      decide (f 0x0A 1 ≤ 32) && (decide (1 ≤ f 0x0A 1) || decide (5 ≤ kind)) && decide (f 0x0B 1 < 4) && decide (f 0x14 2 ≤ 508) && decide (f 0x16 1 ≤ 63) &&
      zeros p (o + 0x17) 9

/-- The payload is a valid SPB. -/
def spbOk (p : List Byte) : Bool :=
  let plan := List.replicate 0x80 0#8 ++ (p.drop 0xC0).take 208
  p.length == 0x1E10 && fld p 0 4 == 0x53504231 && fld p 8 4 == 0x1E10 && zeros p 0x0C 0x30 &&
    crc32c (p.take 0x3C ++ leBytes 4 0 ++ p.drop 0x40) == fld p 0x3C 4 && zeros p 0x78 72 && footprintOk plan && fld plan 0x8C 4 == 0 && reachOk plan &&
    (List.range 64).all (fun k => decide (fld p (0x190 + 32 * k + 24) 4 ≤ 5000000) && decide (fld p (0x190 + 32 * k + 28) 4 ≤ 100000)) &&
    (List.range 8).all (fun k => decide (1000000 ≤ fld p (0x990 + 8 * k) 8) && decide (fld p (0x990 + 8 * k) 8 ≤ 500000000)) &&
    (List.range 128).all (taskOk p) && (List.range 32).all (caninOk p) && fld p 0x1DD0 2 != 0 && fld p 0x1DD2 2 != 0 && zeros p 0x1DE8 40

end Sys2Proof.Machine
end

