-- ==== Sys2Proof/Machine/Reset.lean ====
section
/-! DEFINITION.  Resets but power-on: their scopes (R559), their entry (R560, R561), and what a release restores (R626). -/

namespace Sys2Proof.Machine

/-- The domains whose logic a reset covers: 2 module, 3 warm, 4 cluster, 5 die (R559). -/
def rstDoms (kind target : Nat) : List Nat :=
  match kind with
  | 2 => (List.range 70).map (4 + ·)
  | 3 => (List.range 12).map (4 + ·) ++ (List.range 4).flatMap dieDoms
  | 4 => [domAC target]
  | _ => dieDoms target

/-- The dirty lines of the harts' caches are written back and leave them. -/
def Tx.flushCaches (t : Tx) : Tx := t.each (t.d.cache.map (·.line * 64)) fun t k => t.cacheOut k

/-- A debug session ends: the port returns to level 0 (R583). -/
def Tx.endSession (t : Tx) : Tx :=
  ((t.wr DBG_STAT_SESS 0).wr DBG_STAT_LEVEL 0)

/-- The field test under way lies in the scope of a reset: a die's or a tile's by its domain, a lane's with the hub's links. -/
def testIn (doms : List Nat) (test unit : Nat) : Bool :=
  doms.contains domSTW || (match testDom test unit with
    | some d => doms.contains d
    | none => (test == 1 && doms.contains domFAB) || (test == 6 && doms.contains domMCS))

/-- Entry of a reset (R560), taken in one action: the MRAM batch that has started completes, dirty lines are written back, the scratch is
lost, the field test in its scope is aborted (R561), and the logic is held until 10 µs later.  A second trigger joins the reset in
progress. -/
def Tx.resetEnter (t : Tx) (kind target cause : Nat) : Tx :=
  let doms := rstDoms kind target
  let wide := kind == 2 || kind == 3
  let t := match t.d.batch with
    | some b => t.batchDone b
    | none => t
  let t := if wide || kind == 4 then t.flushCaches else t
  let t := if wide then (t.clearKeys scrBase scrEnd).wr HD_SC_STAT_SCRACT 0 else t
  let t := match t.d.tst.cur with
    | some (test, unit, _) => if testIn doms test unit then t.testAbort else t
    | none => t
  let t := if kind = 2 then t.endSession else t
  let t := if kind = 2 ∨ kind = 5 then { t with d := { t.d with pwrgood := false } } else t
  let t := if doms.contains domNET then { t with d := { t.d with perst := [] } } else t
  match t.d.sec.rst with
  | none => (if wide then t.wr RST_STAT_CAUSE cause else t).onSec fun s => { s with rst := some ⟨kind, doms, t.now + 10000⟩ }
  | some r => t.onSec fun s => { s with rst := some ⟨min r.kind kind, (r.doms ++ doms).dedup, r.release⟩ }

/-- A write of RST_CMD (R559, R588): MODULE and DIE are the steward's. -/
def Tx.writeRstCmd (t : Tx) (mid v : Nat) : Tx :=
  let tgt := bits v 9 8
  match bits v 3 0 with
  | 1 => t.resetEnter 3 0 6
  | 2 => if mid = steward then t.resetEnter 2 0 3 else t.set1 RST_STAT_CMDREF
  | 3 => if tgt < 3 then t.resetEnter 4 tgt 0 else t.set1 RST_STAT_CMDREF
  | 4 => if mid = steward then t.resetEnter 5 tgt 0 else t.set1 RST_STAT_CMDREF
  | 5 => t.snapBlock RST_STAT
  | _ => t.set1 RST_STAT_CMDREF

def execRstWarm (mid : Mid) (s : State) : Host.Outcome State Fault Refusal :=
  s.does fun t => t.swWrite mid.toNat RST_CMD (·.writeRstCmd mid.toNat 1)
def execRstModule (mid : Mid) (s : State) : Host.Outcome State Fault Refusal :=
  s.does fun t => t.swWrite mid.toNat RST_CMD (·.writeRstCmd mid.toNat 2)
def execRstCluster (mid : Mid) (k : Fin 4) (s : State) : Host.Outcome State Fault Refusal :=
  s.does fun t => t.swWrite mid.toNat RST_CMD (·.writeRstCmd mid.toNat (3 + 256 * k.val))
def execRstDie (mid : Mid) (d : Die) (s : State) : Host.Outcome State Fault Refusal :=
  s.does fun t => t.swWrite mid.toNat RST_CMD (·.writeRstCmd mid.toNat (4 + 256 * d.val))

/-- MOD_RST_N: the pin has been low for at least 1 µs (R559). -/
def execModRstN (s : State) : Host.Outcome State Fault Refusal := s.does fun t => t.when (!t.d.pba.dark) (·.resetEnter 2 0 2)

/-- STEWARD_WATCHDOG: 100 ms have passed without a service by a running steward (R559). -/
def execStewardWatchdog (s : State) : Host.Outcome State Fault Refusal := s.does fun t => t.when (t.powered domSTW) (·.resetEnter 2 0 4)

/-! Release. -/

/-- Keep the fields `fs` of the registers that `f` resets. -/
def Tx.keeping (t : Tx) (fs : List FRef) (f : Tx → Tx) : Tx :=
  let vs := fs.map fun x => (x, t.rd x)
  (f t).each vs fun t (x, v) => t.wr x v

/-- What is not a register of a domain whose logic restarts (R138, R187, R393, R452, R561). -/
def Tx.logicReset (t : Tx) (d : Nat) : Tx :=
  if stackDom d then
    let n := domStack d
    if domKind d = 9 then
      { t with d := { t.d with sch := t.d.sch.put n {}, xlt := t.d.xlt.put n {}, rtm := t.d.rtm.put n {} } }
    else if domKind d = 10 then
      t.each (List.range 8) fun t k => t.each (lnkEnds n k) fun t (e, k) => (t.wr (LNK_MST_STATE (lnkBase e) k) 0).onLink e k fun _ => {}
    else t
  else match d with
    | 4 | 5 | 6 => t.each ((List.range 8).map (8 * (d - 4) + ·)) fun t k =>
      (t.wr ⟨DBG_HSTAT, k, k⟩ 0).onHart k fun x => { halted := x.haltHeld || x.haltAt != 0 }
    | 9 | 10 | 11 => t.each (mcsOf d) fun t m => { t with d := { t.d with mc := t.d.mc.put m { since := t.now, wake := t.now + 288 } } }
    | 12 => { t with d := { t.d with hws := {}, can := [], pcie := [], refclk := [] } }
    | 13 => { t with d := { t.d with ing := {}, ego := {}, aln := {} } }
    | 14 => { t with d := { t.d with trj := {} } }
    | 15 =>
      let t := t.each (List.range 18) fun t k => t.each (lnkEnds 4 k) fun t (e, k) => (t.wr (LNK_MST_STATE (lnkBase e) k) 0).onLink e k fun _ => {}
      { t with d := { t.d with
        dma := [], xlt := t.d.xlt.put 4 {}, fwUsed := [], regNext := [], mbx := [], irq := {},
        clp := { t.d.clp with halted := false, voteAt := [] } } }
    | 16 => t.onSec fun s => { s with upd := 0, stage := none }
    | 17 => t.onTst fun s => { s with cur := none, lease := none, weight := none }
    | _ => t

/-- The fields of a domain that the hardware behind them keeps through a reset: trained and initialised memories, ready Shelf groups, rails. -/
def keptFields (d : Nat) : List FRef :=
  if d = domFAB then [HD_SHF_STAT_READY]
  else if stackDom d ∧ domKind d = 9 then [RTM_VRAIL_VRAIL (cdRtm (domStack d))]
  else if stackDom d ∧ domKind d = 10 then [RTM_VRAIL_VRAIL (btRtm (domStack d))]
  else (mcsOf d).flatMap fun m => [HD_MC_STAT_READY m, HD_MC_STAT_TRAINED m]

/-- Lanes that the repair map excludes are excluded again at the ends of `e` (R547). -/
def Tx.applyLanes (t : Tx) (e : Nat) : Tx :=
  t.each (List.range (lnkCount e)) fun t k => t.wr (LNK_LMAP_BAD (lnkBase e) k) (t.rd (LNK_LMAP_BAD (lnkBase e) k) ||| t.d.repair.bad.at (lnkUnit e k))

/-- What the repair map and the module configuration say of a domain that has come up, and the credits of its crossbar (R321, R547,
R603, R635). -/
def Tx.applyMap (t : Tx) (d : Nat) : Tx :=
  if stackDom d then
    let n := domStack d
    if domKind d = 9 then
      let w := t.d.repair.die.at n
      (((t.wr (CD_BRD_QCTL_QFENCE n) (t.rd (CD_BRD_QCTL_QFENCE n) ||| bits w 3 0)).wr (CD_STR_CTL_PAIROFF n)
        (t.rd (CD_STR_CTL_PAIROFF n) ||| bits w 7 4)).showEngines n).showHold
    else if domKind d = 10 then ((t.applyLanes n).setWord (LNK_FABAUD0 (btLnk n)) 512).showHold
    else if domKind d < 9 then t.showEngines n else t
  else if d = domFAB then (t.applyLanes 4).setWord (LNK_FABAUD0 hdLnk) 1024
  else if d = domNET then
    if t.d.sec.cfg.isNone then t
    else t.each (List.range 8) fun t e => t.wr (ETH_PSTAT_CFG e) (t.cfgFld (0x1006 + 0xA00 * e) 1)
  else if d = domGS then
    if bit (Config.otpId 0) 1 && !bit (t.rd ID_VALID_VALID) 11 then t.latchId 11 ID_GS (Config.fusedId 9 % 2 ^ 32) else t
  else t

/-- The logic of a powered domain restarts. -/
def Tx.restart (t : Tx) (keepLocks : Bool) (d : Nat) : Tx :=
  (t.keeping (keptFields d) fun t => (t.logicReset d).resetDomain d keepLocks).applyMap d

end Sys2Proof.Machine
end

