-- ==== Sys2Proof/Machine/Boot.lean ====
section
/-! DEFINITION.  The steward's boot (R567 to R576), the boot stream and its verification by a Cleat (R573), power-on (R528, R559), and the
release of a reset (R560). -/

namespace Sys2Proof.Machine

/-- OTP is sensed: the module's identity, the hub's word, the lifecycle (R570, R634, R635). -/
def Tx.senseOtp (t : Tx) : Tx :=
  let m := Config.otpId 0 % 2 ^ 16
  let t := t.setWord ID_MODULE (0x48000000 + bits m 15 8 * 256 + m % 4)
  let t := (t.setWord ID_SERIAL_LO (Config.otpId 1 % 2 ^ 32)).setWord ID_SERIAL_HI (Config.otpId 2 % 2 ^ 32)
  (t.latchId 0 ID_HD (0x01480000 + Config.fusedId 8 % 2 ^ 16)).wr SEC_LC_LC t.d.sec.lifecycle

/-! The repair map at power-on (R546). -/

/-- A copy of the map in MRAM that may be used: its bytes. -/
def Tx.mapCopy (t : Tx) (c : Nat) : Option (List Byte) :=
  let a := mramBase + c * 0x40000
  if t.rdLE a 4 ≠ 0x524D4150 ∨ t.rdLE (a + 12) 4 ≠ 0x18400 then none
  else
    let b := t.rdBytes a 0x18400
    if crc32c (b.take 0x3C ++ leBytes 4 0 ++ b.drop 0x40) = fld b 0x3C 4 then some b else none

/-- A map read back from the bytes of copy `c`. -/
def Repair.ofBytes (c : Nat) (b : List Byte) : Repair :=
  let tab (o n : Nat) : Tab Nat := (List.range n).foldl (fun x i => x.put i (fld b (o + 4 * i) 4)) []
  let entry (g i : Nat) : Nat := fld b (0x400 + 8192 * g + 4 * i) 4
  { die := tab 0x40 4, bad := tab 0x50 50, rmap := tab 0x118 8, spbad := fld b 0x138 4, gexcl := fld b 0x13C 4,
    shelf := (List.range 12).foldl (fun x g =>
      let nr := fld b (0x140 + 4 * g) 2
      let nc := fld b (0x142 + 4 * g) 2
      x.put g ((List.range nr).map (entry g), (List.range nc).map fun i => entry g (nr + i))) [],
    seq := fld b 8 4, copy := c }

/-- The steward reads the repair map: the valid copy of the higher SEQ; with none it logs a FAULT and starts from an empty one. -/
def Tx.loadRepair (t : Tx) : Tx :=
  match t.mapCopy 0, t.mapCopy 1 with
  | some a, some b => t.onRepair fun _ => if fld a 8 4 < fld b 8 4 then .ofBytes 1 b else .ofBytes 0 a
  | some a, none => t.onRepair fun _ => .ofBytes 0 a
  | none, some b => t.onRepair fun _ => .ofBytes 1 b
  | none, none =>
    let (c, t) := t.fresh 8
    (t.onRepair fun _ => {}).logEntry 0 3 (0x200 + c) 0 0 0

/-- The migration journal at power-on: the valid slot of the higher SEQ; a copy under way becomes PWRINIT (R287, R288). -/
def Tx.loadJournal (t : Tx) : Tx :=
  let slot (i : Nat) : Option (List Byte) :=
    let b := t.rdBytes (mramBase + 0x80000 + 32 * i) 32
    if fld b 0 2 = 1 ∧ crc32c (b.take 28) = fld b 28 4 then some b else none
  let j := match slot 0, slot 1 with
    | some a, some b => some (if fld a 12 4 < fld b 12 4 then b else a)
    | some a, none => some a
    | none, b => b
  match j with
  | none => t
  | some b =>
    let st := fld b 2 1 % 4
    let pend := fld b 16 8
    let t := { t with d := { t.d with mig := { order := (List.range 64).filter (bit pend), second := bit (fld b 4 1) 3, seq := fld b 12 4, need := 0 } } }
    ((t.migState (if st = 1 then 2 else st) (fld b 3 1 % 64) (fld b 4 1 % 8) (fld b 8 4)).setPair HD_DMAP_PEND_LO pend).wr HD_DMAP_JSEQ_SEQ (fld b 12 4)

/-- A RETIRE that was under way repeats its write of the map (R288). -/
def Tx.redoRetire (t : Tx) : Tx :=
  if t.rd HD_DMAP_MSTAT_STATE ≠ 3 then t
  else
    let q := t.rd HD_DMAP_MSTAT_SRC
    let w := putBits (t.d.repair.rmap.at (q / 8)) (4 * (q % 8) + 3) (4 * (q % 8)) (8 + t.rd HD_DMAP_MSTAT_SPARE)
    let t := t.repair 6 q w fun r => { r with rmap := r.rmap.put (q / 8) w }
    { t with d := { t.d with mig := { t.d.mig with need := t.d.repair.made } } }

/-- An entry of the steward about its boot: the log's classes name none for it, so CODE is open. -/
def Tx.bootEntry (t : Tx) (sev unit a0 : Nat) : Tx :=
  let (c, t) := t.fresh 16
  t.logEntry 0 sev c unit a0 0

/-- A shutdown record is read into the log (R528, R554): the number of its cause, and SEV, are open. -/
def Tx.loadShutdown (t : Tx) : Tx :=
  match t.d.pba.shut with
  | none => t
  | some e =>
    let (c, t) := t.fresh 8
    let (v, t) := t.pick 4
    (t.onPba fun p => { p with shut := none }).logEntry 0 v (0x800 + c) 0 e 0

/-! The module configuration (R569). -/

/-- Where the MRAM copy of the configuration lies; the HASH follows the payload there. -/
def cfgMram : Nat := 0xA0000

/-- The steward takes the module configuration in force; `fresh` at a power-on or activation reset. -/
def Tx.loadCfg (t : Tx) (fresh : Bool) : Tx :=
  match t.running 6 with
  | none => t.onSec fun s => { s with cfg := none }
  | some (h, p) =>
    let hash := (h.drop 0x20).take 48
    let kept := t.rdBytes (mramBase + cfgMram + 0x6000) 48
    let stored := !fresh && kept == hash
    let payload := if stored then t.rdBytes (mramBase + cfgMram) 0x6000 else p
    let t := if stored then t
      else
        let img := p ++ hash
        t.each (List.range (ceilDiv img.length 4096)) fun t i => t.batch 2 (cfgMram + 4096 * i) ((img.drop (4096 * i)).take 4096)
    if cfgOk payload then
      let t := t.onSec fun s => { s with cfg := some payload }
      if t.pairKey then t else t.bootEntry 3 0 0
    else t.onSec fun s => { s with cfg := none }

/-! Steps 4 to 6. -/

/-- RESTR and its WARN entries, one for each unmatched pair (R572, R574). -/
def Tx.judge (t : Tx) : Tx :=
  let (pairs, missing) := t.unqualified
  let lc := t.d.sec.lifecycle
  let bad := missing || !pairs.isEmpty
  let t := t.wr SEC_BOOT_RESTR (if bad || lc == 0 || lc == 3 || t.d.sec.cfg.isNone then 1 else 0)
  let t := t.each pairs fun t (ty, x) => t.bootEntry 2 (256 * ty + x.1) x.2
  if missing && pairs.isEmpty then t.bootEntry 2 0 0 else t

/-- A TYPE whose preferred copy is a trial. -/
def Tx.trial (t : Tx) (ty : Nat) : Bool := bit (t.d.sec.bcr.at (ty - 1)) 1

/-- The seven TYPEs with copies in NOR. -/
def copyTypes : List Nat := [1, 2, 3, 4, 5, 6, 7]

/-- The activation reset (R576): TRIES of every trial TYPE goes down by one. -/
def Tx.activate (t : Tx) : Tx :=
  let t := t.each (copyTypes.filter t.trial) fun t ty => t.onSec fun s => { s with bcr := s.bcr.upd (ty - 1) fun b => putBits b 3 2 (bits b 3 2 - 1) }
  (t.writeBcr.onSec fun s => { s with act := true }).resetEnter 2 0 5

/-- The steward's boot after a power-on reset (`first`), an activation reset or a module reset, up to step 6 of R570. -/
def Tx.stewardBoot (t : Tx) (first : Bool) : Tx :=
  let act := t.d.sec.act
  let t := t.senseOtp
  let t := if first || act then
      let t := t.each copyTypes (·.selectCopy ·)
      t.onSec fun s => { s with fallback := t.is SEC_BOOT_FALLBACK }
    else t
  let t := (t.wr SEC_BOOT_FALLBACK (if t.d.sec.fallback then 1 else 0)).showCopies
  let t := t.onSec fun s => { s with act := false, pend := s.pend && !act }
  let t := t.wr SEC_UPDSTAT_PEND (if t.d.sec.pend then 1 else 0)
  if t.d.sec.sel.at 1 = 0 then t
  else
    let t := if first then ((t.loadRepair).loadJournal).loadShutdown else t
    let t := (((t.loadCfg (first || act)).wr HD_MEE_STAT_KEYRDY 1).redoRetire).judge
    if t.d.sec.pend && !act && t.rd (MIR_STATE_STATE 0) == 0 && t.rd (MIR_STATE_STATE 1) == 0 then t.activate
    else (t.onSec fun s => { s with boot := 1 }).wr GLB_STAT_BOOTSTEP 6

/-! Steps 7 to 10. -/

/-- Two enabled regions of the encryption block overlap (R271). -/
def Tx.meeOverlap (t : Tx) : Bool :=
  let rs := (List.range 15).map (· + 1)
  let on := rs.filter fun i => t.is (HD_MEE_RCFG_EN i)
  let meet (i j : Nat) : Bool := decide (t.rd (HD_MEE_RBASE_ADDR i) ≤ t.rd (HD_MEE_RLIM_ADDR j)) && decide (t.rd (HD_MEE_RBASE_ADDR j) ≤ t.rd (HD_MEE_RLIM_ADDR i))
  on.any fun i => on.any fun j => decide (i < j) && meet i j

/-- The lock of the encryption block is set, or refused (R271). -/
def Tx.meeLock (t : Tx) : Tx := if t.meeOverlap then t.set1 HD_MEE_STAT_CFGERR else t.wr HD_MEE_CTL_LOCK 1

/-- The steward writes the module configuration and the repair map into the registers that they name, and sets the locks (R289, R547,
R568, R570). -/
def Tx.applyCfg (t : Tx) : Tx :=
  let t := t.each (List.range 8) fun t m => t.setWord (HD_DMAP_RMAP m) (t.d.repair.rmap.at m)
  let t := if t.d.sec.cfg.isNone then t
    else
      let t := t.writeBudget (t.cfgFld 0x10 2)
      let t := t.wr HD_SHF_GCFG_INTL (t.cfgFld 0x12 2 &&& (4095 ^^^ (t.d.repair.gexcl &&& 4095)))
      let t := t.wr HD_DMAP_CFG_LOCSZ (t.cfgFld 0x14 1)
      let t := t.each (List.range 256) fun t ch =>
        ((t.setWord (MBX_CHTAB0 ch) (t.cfgFld (0x40 + 12 * ch) 4)).setWord (MBX_CHTAB1 ch) (t.cfgFld (0x44 + 12 * ch) 4)).setWord (MBX_CHTAB2 ch)
          (t.cfgFld (0x48 + 12 * ch) 4)
      let t := t.setWord FW_CTL (t.cfgFld 0xC40 4)
      let t := t.each (List.range 8) fun t w =>
        let o := 0xC60 + 20 * w
        ((t.setPair (FW_WBASE_LO w) (t.cfgFld o 8 * 4096)).setPair (FW_WLIM_LO w) (t.cfgFld (o + 8) 8 * 4096)).setWord (FW_WCFG w) (t.cfgFld (o + 16) 4)
      let t := t.each (List.range 15) fun t i =>
        let o := 0xD00 + 16 * i
        ((t.setWord (HD_MEE_RBASE (i + 1)) (t.cfgFld o 4)).setWord (HD_MEE_RLIM (i + 1)) (t.cfgFld (o + 4) 4)).setWord (HD_MEE_RCFG (i + 1))
          (t.cfgFld (o + 8) 4)
      t.wr (HD_MEE_RCFG_KSLOT 0) (t.cfgFld 0xDF0 4)
  let t := t.meeLock
  let t := (((t.wr HD_SHF_GCFG_LOCK 1).wr HD_DMAP_CFG_LOCK 1).wr FW_CTL_LOCK 1).wr MBX_CTL_LOCK 1
  let t := if t.powered domING then t.wr ALN_CALCTL_LOCK 1 else t
  (if t.powered domNET then t.applyMap domNET else t).wr GLB_STAT_BOOTSTEP 9

/-- The core boot object is copied to its load address, and hart 0 starts (R570). -/
def Tx.coreBoot (t : Tx) : Tx :=
  match t.running 7 with
  | none => t
  | some (_, p) =>
    let (t, _) := t.physWrite steward (Config.loadAddr (p.map (·.toNat)) % dramEnd) p
    let t := t.onHart 0 fun x => { x with running := true }
    ({ t with d := { t.d with pwrgood := true } }.wr GLB_STAT_BOOTSTEP 10).onSec fun s => { s with boot := 3 }

/-- The boot goes on as far as the domains and memories that are up allow. -/
def Tx.bootAdvance (t : Tx) : Tx :=
  let t := if t.d.sec.boot = 1 && [domFAB, domSEC, domSTW].all t.powered && (List.range 9).all (fun m => t.powered (domMC m) && t.is (HD_MC_STAT_READY m)) &&
      !t.d.tst.hubBad then t.applyCfg.onSec fun s => { s with boot := 2 } else t
  if t.d.sec.boot = 2 && t.powered (domAC 0) && t.d.sec.rst.isNone then t.coreBoot else t

/-- DRAM_INIT_DONE (R269): every line of a trained controller holds zero with valid check bytes, and READY sets. -/
def execDramInitDone (m : Fin 9) (s : State) : Host.Outcome State Fault Refusal :=
  s.does fun t => t.when (t.powered (domMC m) && !t.is (HD_MC_STAT_READY m)) fun t =>
    let t := (((t.clearDram (t.servedBy m)).wr (HD_MC_STAT_TRAINED m) 1).wr (HD_MC_STAT_READY m) 1).onMc m fun c => { c with since := t.now }
    t.bootAdvance

/-- A compute domain is powered only on a die that is not DIEBAD, with microcode and calibration verified (R542, R574). -/
def Tx.mayRun (t : Tx) (d : Nat) : Bool := !computeDom d || (!t.dieMarked (domStack d) && t.d.sec.sel.at 3 != 0 && t.d.sec.sel.at 4 != 0)

/-- DOMAIN_POWERED: a domain completes its power-on (R504, R505, R547, R570). -/
def execDomainPowered (d : Fin 74) (s : State) : Host.Outcome State Fault Refusal :=
  s.does fun t => t.when (t.comingUp d && t.mayRun d && !t.inReset d) fun t =>
    let t := t.when (t.domState d == 0) (·.powerUp d)
    let t := ((t.domainUp d).applyMap d).pbaAudit
    let t := if (d = 16 ∨ d = 17) && t.powered domSEC && t.powered domSTW && t.d.sec.boot == 0 then t.stewardBoot true else t
    t.bootAdvance

/-- RESET_RELEASE (R560, R626): 10 µs after its assertion a reset is released and the logic restarts. -/
def execResetRelease (s : State) : Host.Outcome State Fault Refusal :=
  s.does fun t =>
    match t.d.sec.rst with
    | none => t
    | some r =>
      if t.now < r.release then t
      else
        let t := t.onSec fun s => { s with rst := none }
        let t := t.each (r.doms.filter fun d => t.d.pwr.at d = Pwr.on) (·.restart (r.kind != 2) ·)
        let t := if r.kind = 2 then t.inc RST_CNT_MODULES else if r.kind = 3 then t.inc RST_CNT_WARMS else t
        let t := if r.kind = 2 then
            let t := (t.wr HD_DMAP_CFG_LOCK 0).wr GLB_STAT_BOOTSTEP 2
            let t := t.onSec fun s => { s with boot := 0 }
            if t.powered domSEC && t.powered domSTW then t.stewardBoot false else t
          else if r.doms.contains (domAC 0) && t.d.sec.boot == 3 then t.onHart 0 fun x => { x with running := true }
          else t
        (t.redoRetire).bootAdvance

/-! Power-on. -/

/-- What survives without power: the Cleats, OTP, NOR and MRAM with what the steward reads back from them, and the model's own counters. -/
def Tx.survivors (t : Tx) : Dev :=
  let d := t.d
  { free := d.free, out := d.out, cleat := d.cleat, batches := [], pba := { slot := d.pba.slot, shut := d.pba.shut },
    sec := { lcBits := d.sec.lcBits, keys := d.sec.keys, revoked := d.sec.revoked, ctr := d.sec.ctr, wiped := d.sec.wiped, bcr := d.sec.bcr },
    log := { seq := d.log.seq, boot := (d.log.boot + 1) % 65536, head := d.log.head, stored := d.log.stored },
    wear := d.wearJ, wearJ := d.wearJ, rateLow := d.rateLow.map fun e => (e.1, 0, e.2.2) }

/-- POWER_ON_RESET (R559): VAON rises after its absence, which power that has not been shut down loses at once. -/
def execPowerOnReset (s : State) : Host.Outcome State Fault Refusal :=
  let t := Tx.start s
  let t := if t.d.pba.dark then t else t.powerDown
  let dev := t.survivors
  let kept := (s.commit t).mem.filter fun c => decide (mramBase ≤ c.1) && decide (c.1 < norEnd)
  .next { s with now := 0, mem := kept, regs := [], dev := dev }

/-! The boot stream (R573). -/

/-- The bytes of the identity list. -/
def Tx.identityList (t : Tx) : List Byte :=
  let b := leBytes 4 0x49444C31 ++ t.identityWords.flatMap (leBytes 4) ++ leBytes 4 t.d.sec.lifecycle ++ leBytes 8 0
  b ++ leBytes 4 (crc32c b)

/-- The stream for the objects that run; the header of a missing microcode object reads zero. -/
def Tx.bootStream (t : Tx) : Option (List Byte) :=
  match t.running 1, t.running 2, t.running 5 with
  | some st, some cl, some sp =>
    let mc := ((t.running 3).map (·.1)).getD (List.replicate 0x1000 0#8)
    some (cl.1 ++ cl.2 ++ sp.1 ++ sp.2 ++ st.1 ++ mc ++ t.identityList)
  | _, _, _ => none

/-- BOOT_STREAM (R573): to a Cleat that reports STATE 0, once step 6 is complete. -/
def execBootStream (c : Cleat2) (s : State) : Host.Outcome State Fault Refusal :=
  s.does fun t =>
    if !t.powered domSTW || t.d.sec.boot == 0 || t.d.tst.hubBad || !t.is (clpLink c) || t.rd (MIR_STATE_STATE c) != 0 then t
    else match t.bootStream with
      | none => t
      | some bs => t.each (List.range (ceilDiv bs.length 4096)) fun t i => t.cleatFrame c "SPB" ((bs.drop (4096 * i)).take 4096)

/-- What a complete stream gives Cleat `c`: its SPB and whether the running set is qualified; nothing where a check fails. -/
def Tx.clVerify (t : Tx) (c : Nat) (bs : List Byte) : Option (List Byte × Bool) :=
  let v := t.clVerifier c
  let h1 := bs.take 0x1000
  let p1 := (bs.drop 0x1000).take (objLength h1)
  let r := bs.drop (0x1000 + objLength h1)
  let h2 := r.take 0x1000
  let p2 := (r.drop 0x1000).take (objLength h2)
  let r := r.drop (0x1000 + objLength h2)
  let h3 := r.take 0x1000
  let h4 := (r.drop 0x1000).take 0x1000
  let l := r.drop 0x2000
  let absent := zeros h4 0 0x1000
  if v.object 2 h1 p1 && v.object 5 h2 p2 && decide (Config.spbFloor (p1.map (·.toNat)) ≤ objSvn h2) && v.header 1 h3 && (absent || v.header 3 h4) &&
      fld l 0 4 == 0x49444C31 && crc32c (l.take 60) == fld l 60 4 && spbOk p2 then
    let ws := (List.range 10).map fun i => fld l (4 + 4 * i) 4
    let lc := fld l 48 4
    let dies := (4, cleatWord c) :: identityItems ws
    some (p2, !absent && (lc == 1 || lc == 2) && (unmatched [(1, h3), (2, h1), (3, h4), (5, h2)] dies).isEmpty)
  else none

/-- SPB (R402, R573): a Cleat in BOOT takes a frame of its stream; the whole stream is verified at its end. -/
def execSpb (c : Cleat2) (ct : Nat) (lseq : Word) (bytes : List Byte) (s : State) : Host.Outcome State Fault Refusal :=
  clFrame c ct lseq.toNat (fun t =>
    let x := t.cl c
    if x.st ≠ .boot ∨ x.spb.isSome then t
    else
      let bs := x.stream ++ bytes
      let put (b : List Byte) : Tx := t.onCl c fun x => { x with stream := b }
      if bs.length < 0x1000 then put bs
      else if fld bs 0 4 ≠ 0x5A534F31 then put []
      else
        let n1 := 0x1000 + objLength bs
        if bs.length < n1 + 0x1000 then put bs
        else
          let total := n1 + 0x1000 + objLength (bs.drop n1) + 0x2000 + 64
          if bs.length < total then put bs
          else match t.clVerify c (bs.take total) with
            | none => put []
            | some (p, q) => ((put []).onCl c fun x => { x with spb := some p, qualified := q }).clTryReady c) s

end Sys2Proof.Machine
end

