-- ==== Sys2Proof/Machine/Update.lean ====
section
/-! DEFINITION.  Updating (R575, R576, R588), the lifecycle and key revocation (R565, R578, R579). -/

namespace Sys2Proof.Machine

/-- An update command is refused by its own conditions (R575): STATE 3 with its CODE. -/
def Tx.updRefuse (t : Tx) (code : Nat) : Tx := (t.wr SEC_UPDSTAT_STATE 3).wr SEC_UPDSTAT_CODE code

/-- An update command ends. -/
def Tx.updDone (t : Tx) : Tx := ((t.wr SEC_UPDSTAT_STATE 2).wr SEC_UPDSTAT_CODE 0).set1 SEC_STAT_UPDDONE

/-- The object that STAGE reads from memory: its header and payload. -/
def Tx.stagedObject (t : Tx) : Option (List Byte × List Byte) :=
  let a := t.pair SEC_UPD_LO
  if dramEnd ≤ a then none
  else match t.physRead steward a 0x1000 with
    | .ok h =>
      if 0x4000000 < objLength h then none
      else match t.physRead steward (a + 0x1000) (objLength h) with
        | .ok p => if a + 0x1000 + objLength h ≤ dramEnd then some (h, p) else none
        | _ => none
    | _ => none

/-- STAGE (R575): the object is verified, and its write to the copy that does not run begins. -/
def Tx.updStage (t : Tx) : Tx :=
  match t.stagedObject with
  | none => t.updRefuse 1
  | some (h, p) =>
    let ty := objType h
    let v := t.verifier
    if !(copyTypes.contains ty) || !v.header ty h || !payloadOk h p || 64 < objSvn h then t.updRefuse 1
    else if objSvn h < v.ctr (objCtr h) then t.updRefuse 2
    else ((t.wr SEC_UPDSTAT_STATE 1).wr SEC_UPDSTAT_CODE 0).onSec fun s => { s with upd := 1, stage := some (ty, h ++ p) }

/-- The TYPEs whose preferred copy is a trial. -/
def Tx.trials (t : Tx) : List Nat := copyTypes.filter t.trial

/-- The running copy of a TYPE is its preferred one. -/
def Tx.runsPreferred (t : Tx) (ty : Nat) : Bool := t.d.sec.sel.at ty == t.d.sec.bcr.at (ty - 1) % 2 + 1

/-- ACTIVATE (R575, R576). -/
def Tx.updActivate (t : Tx) : Tx :=
  if t.trials.isEmpty then t.updRefuse 4 else ((t.onSec fun s => { s with pend := true }).wr SEC_UPDSTAT_PEND 1).updDone

/-- COMMIT (R575, R566): trials that run are committed, and their counters advance to the running SVN. -/
def Tx.updCommit (t : Tx) : Tx :=
  if t.trials.isEmpty then t.updRefuse 4
  else
    let t := t.each (t.trials.filter t.runsPreferred) fun t ty =>
      match t.running ty with
      | none => t
      | some (h, _) => t.onSec fun s => { s with
          bcr := s.bcr.upd (ty - 1) (· % 2), ctr := s.ctr.upd (objCtr h) fun c => max c (min 64 (objSvn h)) }
    t.writeBcr.showCopies.updDone

/-- REVERT (R575, R577): PREF goes back for every trial, which ends; where the trial runs, an activation is pending (log entry 40). -/
def Tx.updRevert (t : Tx) : Tx :=
  let ts := t.trials
  let runs := ts.any t.runsPreferred
  let t := t.each ts fun t ty => t.onSec fun s => { s with bcr := s.bcr.upd (ty - 1) fun b => 1 - b % 2 }
  let t := if ts.isEmpty then t else t.writeBcr.showCopies
  let t := if runs then (t.onSec fun s => { s with pend := true }).wr SEC_UPDSTAT_PEND 1 else t
  t.updDone

/-- A write of SEC_UPDCMD (R575, R588). -/
def Tx.writeUpdCmd (t : Tx) (v : Nat) : Tx :=
  let op := bits v 3 0
  if op = 0 ∨ 4 < op then t.set1 SEC_STAT_CMDREF
  else if t.d.sec.upd = 1 then (t.set1 SEC_STAT_CMDREF).updRefuse 3
  else match op with
    | 1 => t.updStage
    | 2 => t.updActivate
    | 3 => t.updCommit
    | _ => t.updRevert

def execStage (mid : Mid) (s : State) : Host.Outcome State Fault Refusal := s.does fun t => t.swWrite mid.toNat SEC_UPDCMD (·.writeUpdCmd 1)
def execActivate (mid : Mid) (s : State) : Host.Outcome State Fault Refusal := s.does fun t => t.swWrite mid.toNat SEC_UPDCMD (·.writeUpdCmd 2)
def execCommit (mid : Mid) (s : State) : Host.Outcome State Fault Refusal := s.does fun t => t.swWrite mid.toNat SEC_UPDCMD (·.writeUpdCmd 3)
def execRevert (mid : Mid) (s : State) : Host.Outcome State Fault Refusal := s.does fun t => t.swWrite mid.toNat SEC_UPDCMD (·.writeUpdCmd 4)

/-- The copy that a staged object goes to: the one that does not run; A where the TYPE is missing. -/
def Tx.stageCopy (t : Tx) (ty : Nat) : Nat := if t.d.sec.sel.at ty = 1 then 1 else 0

/-- STAGE_DONE (R575): the copy is written, and the boot control record names it with TRIAL set and TRIES 3. -/
def execStageDone (s : State) : Host.Outcome State Fault Refusal :=
  s.does fun t =>
    match t.d.sec.stage with
    | none => t
    | some (ty, bs) =>
      if t.d.sec.upd ≠ 1 ∨ !t.powered domSTW ∨ !t.powered domSEC then t
      else
        let c := t.stageCopy ty
        let t := t.wrBytes (norAt ty c) bs
        let t := t.onSec fun s => { s with bcr := s.bcr.put (ty - 1) (c + 2 + 12), upd := 0, stage := none }
        t.writeBcr.showCopies.updDone

/-! The lifecycle. -/

/-- The signer of a token may make the transition from state `lc` to state `target` (R578). -/
def mayMove (lc target signer : Nat) : Bool :=
  (lc == 0 && target == 1 && signer == 0) || (lc == 1 && target == 2 && signer == 1) ||
    ((lc == 1 || lc == 2) && target == 3 && signer == 0)

/-- Bits of the lifecycle fields from `lc` up to below `target` once `n` more of them are programmed, field by field. -/
def programmedBits (lc target n : Nat) (fields : Tab Nat) : Tab Nat :=
  (List.range (target - lc)).foldl (fun f i => f.upd (lc + i) fun b => max b (min 16 (n - 16 * i))) fields

/-- LIFECYCLE_TOKEN (R565, R578, R579): the steward takes a token; `n` bits of the fields are programmed before it ends or is interrupted.
What a token names, and the keys that it carries, lie in its payload. -/
def execLifecycleToken (bytes : List Byte) (n : Fin 33) (s : State) : Host.Outcome State Fault Refusal :=
  s.does fun t =>
    let h := bytes.take 0x1000
    let p := bytes.drop 0x1000
    if !t.powered domSTW || !t.powered domSEC || !t.verifier.object 8 h p then t
    else
      let lc := t.d.sec.lifecycle
      let names := Config.tokenNames (p.map (·.toNat))
      let k := names - 8
      if names < 4 then
        if !mayMove lc names (objSigner h) || fld h 0x18 8 != serialNo then t
        else
          let t := t.onSec fun s => { s with lcBits := programmedBits lc names n.val s.lcBits }
          let now := t.d.sec.lifecycle
          let keys := if lc = 0 ∧ 1 ≤ now then Config.tokenKeys (p.map (·.toNat)) % 4 * 16 else 0
          let t := t.onSec fun s => { s with keys := s.keys ||| keys, wiped := s.wiped || now == 3 }
          t.wr SEC_LC_LC now
      else if 8 ≤ names ∧ k < 7 ∧ objSigner h = 0 then t.onSec fun s => { s with revoked := s.revoked ||| 2 ^ k }
      else t

end Sys2Proof.Machine
end

