-- ==== Sys2Proof/Machine/Debug.lean ====
section
/-! DEFINITION.  The debug port (R583, R584, R586, R589), the gate detector's edge (R421), and a nanosecond without a command. -/

namespace Sys2Proof.Machine

def Tx.onDbg (t : Tx) (f : Dbg → Dbg) : Tx := { t with d := { t.d with dbg := f t.d.dbg } }

/-- The 64 bytes of a challenge. -/
def Tx.challenge (t : Tx) (nonce level : Nat) : List Byte :=
  leBytes 32 nonce ++ leBytes 8 serialNo ++ leBytes 1 t.d.sec.lifecycle ++ leBytes 1 level ++ leBytes 22 0

/-- A signer is permitted to open a session of this level in lifecycle state `lc`. -/
def mayOpen (lc level signer : Nat) : Bool :=
  (lc == 0 && signer == 2) || (lc != 0 && ((level == 3 && signer == 0) || ((level == 1 || level == 2) && decide (signer < 2))))

/-- A response answers a challenge. -/
def Tx.answers (t : Tx) (nonce level : Nat) (r : List Byte) : Bool :=
  let signer := fld r 0xD80 1
  r.length == 4096 && zeros r 0xD4D 51 && zeros r 0xD82 638 && mayOpen t.d.sec.lifecycle level signer &&
    t.verifier.signed signer (fld r 0xD81 1) (t.challenge nonce level) (r.take 0xD4D)

/-- Both gates are closed. -/
def Tx.gatesClosed (t : Tx) : Bool := !t.is CLP_STAT_GATEA && !t.is CLP_STAT_GATEB

/-- An authentication fails. -/
def Tx.authFail (t : Tx) : Tx :=
  let t := ((t.set1 DBG_STAT_AUTHFAIL).inc DBG_AUTHCNT_COUNT).event "AUTHFAIL" [t.word DBG_AUTHCNT]
  let n := t.d.dbg.fails + 1
  if n < 8 then t.onDbg fun g => { g with fails := n }
  else (t.onDbg fun g => { g with fails := 0, lockEnd := t.now + 60000000000 }).wr DBG_STAT_LOCKOUT 1

/-- DBGAUTH (R583): a challenge with a fresh nonce goes out, and its one response is judged. -/
def execDbgauth (level : Fin 4) (response : List Byte) (s : State) : Host.Outcome State Fault Refusal :=
  s.does fun t =>
    if t.is DBG_STAT_LOCKOUT || !t.powered domSEC then t
    else
      let (nonce, t) := t.fresh 256
      let answered := t.answers nonce level.val response
      let t := t.send "DEBUG" "CHALLENGE" ((t.challenge nonce level.val).map (·.toNat))
      if level.val ≠ 0 ∧ answered ∧ (level.val = 1 ∨ t.gatesClosed) then
        ((t.wr DBG_STAT_SESS 1).wr DBG_STAT_LEVEL level.val).onDbg fun g => { g with fails := 0, opened := t.now }
      else t.authFail

/-- SESSION_EXPIRE (R583): 4 h after it opened. -/
def execSessionExpire (s : State) : Host.Outcome State Fault Refusal :=
  s.does fun t => t.when (t.is DBG_STAT_SESS && decide (t.d.dbg.opened + 14400000000000 ≤ t.now)) (·.endSession)

/-- SESSION_CLOSE (R583). -/
def execSessionClose (s : State) : Host.Outcome State Fault Refusal := s.does fun t => t.when (t.is DBG_STAT_SESS) (·.endSession)

/-- LOCKOUT_END (R583): after 60 s. -/
def execLockoutEnd (s : State) : Host.Outcome State Fault Refusal :=
  s.does fun t => t.when (t.is DBG_STAT_LOCKOUT && decide (t.d.dbg.lockEnd ≤ t.now)) (·.wr DBG_STAT_LOCKOUT 0)

/-! Halts. -/

/-- A halt's target: hart `k`, or the steward at 24. -/
def Tx.target (t : Tx) (k : Nat) : HartSt := if k < 24 then t.d.harts.at k else t.d.dbg.stw
def Tx.onTarget (t : Tx) (k : Nat) (f : HartSt → HartSt) : Tx := if k < 24 then t.onHart k f else t.onDbg fun g => { g with stw := f g.stw }
/-- The domain of a target. -/
def targetDom (k : Nat) : Nat := if k < 24 then domAC (k / 8) else domSTW
/-- The session permits debug of a target. -/
def Tx.mayHalt (t : Tx) (k : Nat) : Bool := decide ((if k < 24 then 2 else 3) ≤ t.rd DBG_STAT_LEVEL)
/-- The bit of a target in DBG_HSTAT. -/
def haltBit (k : Nat) : FRef := ⟨DBG_HSTAT, k, k⟩

/-- HALT_REQUEST (R586): at once; or at a hitch's last beat, `hitch` ns away and at most 1 µs; or, in a reset, when that is released. -/
def execHaltRequest (target : Fin 25) (hitch : Nat) (s : State) : Host.Outcome State Fault Refusal :=
  s.does fun t =>
    let k := target.val
    if !t.mayHalt k || (t.target k).halted then t
    else if t.inReset (targetDom k) then t.onTarget k fun x => { x with haltHeld := true }
    else if !t.powered (targetDom k) then t
    else if hitch = 0 then t.onTarget k fun x => { x with halted := true }
    else (t.onTarget k fun x => { x with haltAt := t.now + min hitch 1000 + 1 }).wr (haltBit k) 1

/-- RESUME_REQUEST (R586): a halt that waits is cancelled, else the target runs on. -/
def execResumeRequest (target : Fin 25) (s : State) : Host.Outcome State Fault Refusal :=
  s.does fun t =>
    let k := target.val
    if !t.mayHalt k then t
    else if t.is (haltBit k) then (t.onTarget k fun x => { x with haltAt := 0 }).wr (haltBit k) 0
    else t.onTarget k fun x => { x with halted := false, haltHeld := false }

/-- Deferred halts that are due take effect. -/
def Tx.dueHalts (t : Tx) : Tx :=
  t.each (List.range 25) fun t k =>
    let x := t.target k
    if x.haltAt ≠ 0 ∧ x.haltAt ≤ t.now + 1 then
      (t.onTarget k fun x => { x with haltAt := 0, halted := true }).wr (haltBit k) 0
    else t

/-- A deep session falls to level 1 (R584). -/
def Tx.dropSession (t : Tx) : Tx :=
  let t := ((t.wr DBG_STAT_LEVEL 1).set1 DBG_STAT_DROP).event "DROP" []
  t.each (List.range 24) fun t k => (t.onTarget k fun x => { x with halted := false, haltAt := 0, haltHeld := false }).wr (haltBit k) 0

/-- GATE_CHANGE (R421, R432, R584): the detector sees a Cleat's gate open or closed. -/
def execGateChange (c : Cleat2) (isOpen : Bool) (s : State) : Host.Outcome State Fault Refusal :=
  s.does fun t =>
    if !t.powered domFAB || t.is (clpGate c) == isOpen then t
    else
      let t := (((t.wr (clpGate c) (if isOpen then 1 else 0)).set1 (if c.val = 0 then CLP_STAT_GXA else CLP_STAT_GXB)).irq 38)
      if isOpen && decide (2 ≤ t.rd DBG_STAT_LEVEL) then t.dropSession else t

/-- `s` after one nanosecond in which no command comes (R8, R586). -/
def State.idle (s : State) : State :=
  let s' := s.commit (Tx.start s).dueHalts
  { s' with now := s.now + 1 }

end Sys2Proof.Machine
end

