-- ==== Sys2Proof/Machine/Dma.lean ====
section
/-! DEFINITION.  The hub's DMA channels (R258, R259, R323, R324, R330, R632). -/

namespace Sys2Proof.Machine

/-- A change of channel `c`'s own state. -/
def Tx.onDma (t : Tx) (c : Nat) (f : Dma → Dma) : Tx := { t with d := { t.d with dma := t.d.dma.upd c f } }

/-- The identity of channel `c`: of the hub engines' range, which one is open (R19). -/
def dmaMid (c : Nat) : Nat := 0x100 + Config.dmaMid c % 256

/-- The log of a channel's ring size; other values act as 4 (R330). -/
def Tx.dmaLog (t : Tx) (c : Nat) : Nat :=
  let l := t.rd (DMA_CFG_LOG2SZ c)
  if 4 ≤ l ∧ l ≤ 12 then l else 4

/-- Descriptors doorbelled and not yet fetched. -/
def Tx.dmaPending (t : Tx) (c : Nat) : Nat :=
  let n := 2 ^ t.dmaLog c
  (t.rd (DMA_PTR_DBTAIL c) + n - t.rd (DMA_PTR_HEAD c)) % n

/-- The state, the counts and the audit follow the descriptors begun and pending. -/
def Tx.dmaShow (t : Tx) (c : Nat) : Tx :=
  let n := (t.d.dma.at c).begun.length
  let t := t.wr (DMA_CST_INFL c) n
  let t := t.when (t.rd (DMA_CST_STATE c) ≠ 2) fun t =>
    t.wr (DMA_CST_STATE c) (if n = 0 ∧ t.dmaPending c = 0 then 0 else 1)
  t.wr DMA_AUD_INFL ((List.range 16).foldl (fun acc k => acc + (t.d.dma.at k).begun.length) 0)

/-- A write of DMA_DB (R330, R632): a tail beyond the ring is refused, as is one that would leave the ring
with fewer entries pending than it has. -/
def Tx.dmaDoorbell (t : Tx) (c v : Nat) : Tx :=
  let n := 2 ^ t.dmaLog c
  let tail := bits v 11 0
  let pend := (tail + n - t.rd (DMA_PTR_HEAD c)) % n
  if tail ≥ n ∨ pend < t.dmaPending c then t.set1 DMA_STAT_CMDREF
  else (t.wr (DMA_PTR_DBTAIL c) tail).dmaShow c

def execDmaDoorbell (mid : Mid) (c : Fin 16) (value : Word) (s : State) : Host.Outcome State Fault Refusal :=
  s.does fun t => t.swWrite mid.toNat (DMA_DB c) (·.dmaDoorbell c value.toNat)

/-- STATUS of a fault of cause `cause` (R258). -/
def dmaStatus (cause : Nat) : Nat := if cause = 0xB then 3 else 1

/-- The channel stops issuing at a descriptor's fault; in a LOCKED context both Cleats are told (R258). -/
def Tx.dmaFault (t : Tx) (c : Nat) : Tx :=
  let t := t.onDma c fun x => { x with stopped := true }
  match t.devctx 4 (t.rd (DMA_CFG_DEVCTX c)) with
  | (t, .ok x) => t.when x.locked (·.notice 0x12 [c])
  | (t, .error _) => t

/-- One piece of a transfer: the bytes up to the end of a destination line. -/
def Tx.dmaPiece (t : Tx) (c : Nat) (x : DmaD) : Tx × DmaD × Bool :=
  let ctx := t.rd (DMA_CFG_DEVCTX c)
  let src := (x.src + x.moved) % 2 ^ 64
  let dst := (x.dst + x.moved) % 2 ^ 64
  let n := min (x.len - x.moved) (64 - dst % 64)
  match t.vRead 4 ctx (dmaMid c) src n with
  | (t, .fault cause va) => (t.dmaFault c, { x with fail := some (dmaStatus cause, 0, cause, va) }, false)
  | (t, .poison va) => (t.dmaFault c, { x with fail := some (2, 0, 0, va) }, false)
  | (t, .held) => (t, x, false)
  | (t, .ok bs) =>
    match t.vWrite 4 ctx (dmaMid c) dst bs with
    | (t, .ok ()) => (t, { x with moved := x.moved + n }, true)
    | (t, .fault cause va) => (t.dmaFault c, { x with fail := some (dmaStatus cause, 1, cause, va) }, false)
    | (t, .poison va) => (t.dmaFault c, { x with fail := some (2, 1, 0, va) }, false)
    | (t, .held) => (t, x, false)

/-- At most `k` pieces of a transfer, in ascending order, up to the first that fails. -/
def Tx.dmaMove (t : Tx) (c : Nat) (x : DmaD) : Nat → Tx × DmaD
  | 0 => (t, x)
  | k + 1 =>
    if x.fail.isSome ∨ x.moved ≥ x.len then (t, x)
    else match t.dmaPiece c x with
      | (t, x, true) => t.dmaMove c x k
      | (t, x, false) => (t, x)

/-- The pieces of a transfer. -/
def dmaPieces (x : DmaD) : Nat := x.len / 64 + 2

/-- A descriptor's fields; none where it is malformed (R323). -/
def dmaFields (bs : List Byte) : Option (Nat × Nat × Nat × Nat) :=
  let f (o n : Nat) := leNat ((bs.drop o).take n)
  if f 0x10 4 = 0 ∨ f 0x14 1 ≥ 16 ∨ f 0x15 11 ≠ 0 then none else some (f 0 8, f 8 8, f 0x10 4, f 0x14 1)

/-- DMA_DESCRIPTOR (R323, R324): a running channel fetches its next descriptor and begins its transfer, of which
an open part is done at once; a FENCE waits for every earlier one.  At most 16 descriptors are in flight in a
channel and 256 in all. -/
def execDmaDescriptor (c : Fin 16) (s : State) : Host.Outcome State Fault Refusal :=
  s.does fun t =>
    let q := t.d.dma.at c
    let head := t.rd (DMA_PTR_HEAD c)
    let all := (List.range 16).foldl (fun acc k => acc + (t.d.dma.at k).begun.length) 0
    if !t.powered domFAB || q.stopped || t.rd (DMA_CST_STATE c) == 2 || t.dmaPending c == 0 || q.begun.length ≥ 16
        || all ≥ 256 then t
    else
      let ctx := t.rd (DMA_CFG_DEVCTX c)
      let begin_ (t : Tx) (x : DmaD) : Tx :=
        ((t.wr (DMA_PTR_HEAD c) ((head + 1) % 2 ^ t.dmaLog c)).onDma c fun y => { y with begun := y.begun ++ [x] }).dmaShow c
      let va := t.pair (DMA_RBASE_LO c) / 32 * 32 % 2 ^ 48 + head * 32
      match t.vRead 4 ctx (dmaMid c) (sext48 va) 32 with
      | (t, .held) => t
      | (t, .fault cause a) => begin_ (t.dmaFault c) { idx := head, fail := some (dmaStatus cause, 0, cause, a) }
      | (t, .poison a) => begin_ (t.dmaFault c) { idx := head, fail := some (2, 0, 0, a) }
      | (t, .ok bs) =>
        match dmaFields bs with
        | none => begin_ (t.onDma c fun y => { y with stopped := true }) { idx := head, fail := some (3, 0, 0, 0) }
        | some (src, dst, len, flags) =>
          if bit flags 1 && !q.begun.isEmpty then t
          else
            let x : DmaD := { idx := head, src := src, dst := dst, len := len, flags := flags }
            let (k, t) := t.pick (dmaPieces x + 1)
            let (t, x) := t.dmaMove c x k
            begin_ t x

/-- The completion record of a descriptor (R258). -/
def dmaRecord (x : DmaD) : List Byte :=
  let (st, side, cause, va) := x.fail.getD (0, 0, 0, 0)
  leBytes 1 st ++ leBytes 1 side ++ leBytes 1 cause ++ leBytes 1 0 ++ leBytes 4 x.moved ++ leBytes 8 va

/-- A record is written at its ring index, and how the write ends (R259). -/
def Tx.dmaWriteRecord (t : Tx) (c : Nat) (x : DmaD) : Tx × VAns Unit :=
  t.vWrite 4 (t.rd (DMA_CFG_DEVCTX c)) (dmaMid c) (sext48 (t.pair (DMA_CBASE_LO c) / 16 * 16 % 2 ^ 48 + x.idx * 16)) (dmaRecord x)

/-- Records are written one after another; the answer tells whether one was held (R20). -/
def Tx.dmaWriteRecords (t : Tx) (c : Nat) : List DmaD → Tx × Bool
  | [] => (t, false)
  | x :: xs =>
    match t.dmaWriteRecord c x with
    | (t, a) => if a.isHeld then (t, true) else t.dmaWriteRecords c xs

/-- The channel halts with HEAD at ring index `idx` (R258, R324). -/
def Tx.dmaHalt (t : Tx) (c idx : Nat) : Tx :=
  let t := (t.wr (DMA_CST_STATE c) 2).wr (DMA_PTR_HEAD c) idx
  let t := t.wr DMA_STAT_HALT (t.rd DMA_STAT_HALT ||| 2 ^ c)
  ((t.onDma c fun _ => {}).dmaShow c).irq (17 + c)

/-- DMA_COMPLETION (R258, R324): the oldest descriptor's transfer ends and its record is written.  After a fault
the records of the later descriptors that had begun follow, and the channel halts. -/
def execDmaCompletion (c : Fin 16) (s : State) : Host.Outcome State Fault Refusal :=
  s.does fun t =>
    match (t.d.dma.at c).begun with
    | [] => t
    | x :: rest =>
      let (t, x) := t.dmaMove c x (dmaPieces x)
      let waits (t : Tx) : Tx := t.onDma c fun y => { y with begun := x :: rest }
      if x.fail.isSome then
        match t.dmaWriteRecords c (x :: rest.map fun y => { y with fail := some (y.fail.getD (4, 0, 0, 0)) }) with
        | (u, held) => if held then waits t else u.dmaHalt c x.idx
      else if x.moved < x.len then waits t
      else
        match t.dmaWriteRecord c x with
        | (_, .held) => waits t
        | (t, .fault _ _) | (t, .poison _) => t.dmaHalt c x.idx
        | (t, .ok ()) => (((t.onDma c fun y => { y with begun := rest }).dmaShow c)).when (bit x.flags 0) (·.irq (17 + c))

/-- RESUME of a channel: refused unless it is halted; it fetches again from HEAD (R324, R632). -/
def Tx.dmaResume (t : Tx) (c : Nat) : Tx :=
  if t.rd (DMA_CST_STATE c) ≠ 2 then t.set1 DMA_STAT_CMDREF
  else ((t.onDma c fun _ => {}).wr (DMA_CST_STATE c) 0).dmaShow c

/-- ABORT of a channel: empty, with HEAD at DBTAIL (R324, R632). -/
def Tx.dmaAbort (t : Tx) (c : Nat) : Tx :=
  (((t.onDma c fun _ => {}).wr (DMA_PTR_HEAD c) (t.rd (DMA_PTR_DBTAIL c))).wr (DMA_CST_STATE c) 0).dmaShow c

/-- A write of DMA_CMD (R330). -/
def Tx.writeDmaCmd (t : Tx) (v : Nat) : Tx :=
  match bits v 3 0 with
  | 1 => t.dmaResume (bits v 11 8)
  | 2 => t.dmaAbort (bits v 11 8)
  | _ => t.set1 DMA_STAT_CMDREF

def execDmaResume (mid : Mid) (c : Fin 16) (s : State) : Host.Outcome State Fault Refusal :=
  s.does fun t => t.swWrite mid.toNat DMA_CMD (·.writeDmaCmd (1 + 256 * c.val))

def execDmaAbort (mid : Mid) (c : Fin 16) (s : State) : Host.Outcome State Fault Refusal :=
  s.does fun t => t.swWrite mid.toNat DMA_CMD (·.writeDmaCmd (2 + 256 * c.val))

/-- A write of a channel's bases or configuration: refused unless the channel is idle; accepted, it sets the
ring's indices to 0 (R330, R632). -/
def Tx.writeDmaSetup (t : Tx) (c a v : Nat) : Tx :=
  if t.rd (DMA_CST_STATE c) ≠ 0 then t.set1 DMA_STAT_CMDREF
  else
    let t := t.applyAt a v
    if a = DMA_RBASE_LO c ∨ a = DMA_RBASE_HI c ∨ a = DMA_CFG c then t.setWord (DMA_PTR c) 0 else t

end Sys2Proof.Machine
end

