-- ==== Sys2Proof/Machine/Ports.lean ====
section
/-! DEFINITION.  The hub's CAN FD transmit rings (R605 to R607, R618), the Ethernet ports' links (R639), and the PCIe root ports (R251,
R459, R602, R603), and the pins that follow other state (R598, R600). -/

namespace Sys2Proof.Machine

/-! CAN. -/

def Tx.canOf (t : Tx) (c : Nat) : CanTx := t.d.can.at c
def Tx.onCan (t : Tx) (c : Nat) (f : CanTx → CanTx) : Tx := { t with d := { t.d with can := t.d.can.upd c f } }

/-- The identity a port reads its ring under. -/
def canMid (c : Nat) : Nat := 0x160 + c

/-- The log of a ring's size; other values act as 4. -/
def Tx.canLog (t : Tx) (c : Nat) : Nat :=
  let l := t.rd (CAN_CTL_LOG2SZ c)
  if 4 ≤ l ∧ l ≤ 12 then l else 4

/-- The virtual address of entry `i` of a ring. -/
def Tx.canEntryAt (t : Tx) (c i : Nat) : Nat := sext48 (t.pair (CAN_RBASE_LO c) / 128 * 128 + 128 * i)

/-- An entry is malformed (R605, R606). -/
def canBad (e : List Byte) (now : Nat) : Bool :=
  let id := fld e 0 4
  let len := fld e 4 1
  let fdf := bit id 30
  let reserved := (List.range 3).any (fun i => e.getD (5 + i) 0 != 0#8) || (List.range 7).any (fun i => e.getD (0x19 + i) 0 != 0#8) ||
    (List.range 32).any fun i => e.getD (0x60 + i) 0 != 0#8
  reserved || !(decide (len ≤ 8) || (fdf && [12, 16, 20, 24, 32, 48, 64].contains len)) || (bit id 31 && !fdf) || decide (now + 1000000000 < fld e 8 8)

/-- STATUS, and TXSTAMP where there is one, are written into the entry at the ring's index `i`. -/
def Tx.canStatus (t : Tx) (c i st : Nat) (stamp : Option Nat) : Tx :=
  let ctx := t.rd (CAN_CTL_DEVCTX c)
  let a := t.canEntryAt c i
  let t := match stamp with
    | some x => (t.vWrite 4 ctx (canMid c) (a + 0x10) (leBytes 8 x)).1
    | none => t
  (t.vWrite 4 ctx (canMid c) (a + 0x18) (leBytes 1 st)).1

/-- The port halts; the steward relays it (R606, R617). -/
def Tx.canHalt (t : Tx) (c : Nat) : Tx := ((t.onCan c fun x => { x with halted := true, entry := none, sof := 0 }).set1 (CAN_STAT_HALT c)).stewardRelay

/-- The port fetches the entry at HEAD when it may (R606). -/
def Tx.canFetch (t : Tx) (c : Nat) : Tx :=
  let x := t.canOf c
  let head := t.rd (CAN_PTR_HEAD c)
  if !t.is (CAN_CTL_EN c) || t.is (CAN_CTL_LISTEN c) || x.halted || x.entry.isSome || head == t.rd (CAN_PTR_DBTAIL c) || !t.powered domNET then t
  else match t.vRead 4 (t.rd (CAN_CTL_DEVCTX c)) (canMid c) (t.canEntryAt c head) 128 with
    | (t, .ok e) =>
      if canBad e t.now then (t.canStatus c head 3 none).canHalt c
      else t.onCan c fun x => { x with entry := some (e, fld e 8 8 != 0 && decide (fld e 8 8 < t.now)), sof := 0 }
    | (t, a) => if a.isHeld then t else t.canHalt c

/-- A write of CAN_DB (R618, R632). -/
def Tx.canDoorbell (t : Tx) (c v : Nat) : Tx :=
  let n := 2 ^ t.canLog c
  let tail := bits v 11 0
  let head := t.rd (CAN_PTR_HEAD c)
  if tail ≥ n ∨ (tail + n - head) % n < (t.rd (CAN_PTR_DBTAIL c) + n - head) % n then t.set1 (CAN_STAT_CMDREF c)
  else (t.wr (CAN_PTR_DBTAIL c) tail).canFetch c

def execCanDoorbell (mid : Mid) (c : CanPort) (value : Word) (s : State) : Host.Outcome State Fault Refusal :=
  s.does fun t => t.swWrite mid.toNat (CAN_DB c) (·.canDoorbell c value.toNat)

/-- A write of CAN_CTL or CAN_RBASE (R618, R632): while EN is 1 only EN changes. -/
def Tx.writeCanSetup (t : Tx) (c a v : Nat) : Tx :=
  if t.is (CAN_CTL_EN c) then
    let same := a == CAN_CTL c && putBits v 0 0 1 &&& 0xFFFF0FFD == t.word (CAN_CTL c)
    let t := if same then t else t.set1 (CAN_STAT_CMDREF c)
    if a = CAN_CTL c then (t.wr (CAN_CTL_EN c) (bits v 0 0)).when (!bit v 0) (·.onCan c fun x => { x with entry := none, sof := 0 }) else t
  else
    let was := t.canLog c
    let t := t.applyAt a v
    let t := if a = CAN_CTL c ∧ t.canLog c = was then t else t.setWord (CAN_PTR c) 0
    t.canFetch c

/-- CAN_LAUNCH (R606): the fetched entry's LAUNCH is reached, and its frame starts. -/
def execCanLaunch (c : CanPort) (s : State) : Host.Outcome State Fault Refusal :=
  s.does fun t =>
    let t := t.canFetch c
    match (t.canOf c).entry with
    | none => t
    | some (e, _) =>
      if (t.canOf c).sof ≠ 0 ∨ t.now < fld e 8 8 ∨ t.rd (CAN_STAT_ERRSTATE c) = 2 then t
      else (t.onCan c fun x => { x with sof := t.now + 1 }).send "CAN" "FRAME" (c.val :: fld e 0 4 :: ((e.drop 0x20).take (fld e 4 1)).map (·.toNat))

/-- The error counters of a port and the state that they give (ISO 11898-1). -/
def Tx.canErrors (t : Tx) (c tec rec : Nat) : Tx :=
  let st := if 256 ≤ tec then 2 else if 128 ≤ tec ∨ 128 ≤ rec then 1 else 0
  ((t.wr (CAN_ERR_TEC c) (min tec 256)).wr (CAN_ERR_REC c) (min rec 255)).wr (CAN_STAT_ERRSTATE c) st

/-- CAN_FRAME_SENT (R606, R607): the frame completes after `lost` lost arbitrations, its last start of frame at `stamp`. -/
def execCanFrameSent (c : CanPort) (lost : BitVec 16) (stamp : Nat) (s : State) : Host.Outcome State Fault Refusal :=
  s.does fun t =>
    match t.canOf c with
    | { entry := some (_, late), sof := f + 1, aborting := ab, .. } =>
      let n := 2 ^ t.canLog c
      let head := t.rd (CAN_PTR_HEAD c)
      let t := t.canStatus c head (if late then 0x81 else 1) (some (max f (min stamp t.now)))
      let t := (t.inc (CAN_CNT_SENT c)).inc (CAN_CNT_LOST c) lost.toNat
      let t := t.canErrors c (t.rd (CAN_ERR_TEC c) - 1) (t.rd (CAN_ERR_REC c))
      let t := t.onCan c fun x => { x with entry := none, sof := 0, aborting := false }
      let t := t.wr (CAN_PTR_HEAD c) (if ab then t.rd (CAN_PTR_DBTAIL c) else (head + 1) % n)
      t.canFetch c
    | _ => t

/-- BUS_OFF (R606): the entry in progress is not sent, and the port halts. -/
def execBusOff (c : CanPort) (s : State) : Host.Outcome State Fault Refusal :=
  s.does fun t =>
    if !t.is (CAN_CTL_EN c) then t
    else
      let t := if (t.canOf c).entry.isSome then t.canStatus c (t.rd (CAN_PTR_HEAD c)) 2 none else t
      ((t.canErrors c 256 (t.rd (CAN_ERR_REC c))).set1 (CAN_STAT_BUSOFF c)).canHalt c

/-- STATUS 0x04 in the ring's entries from index `i` on, `k` of them. -/
def Tx.canAbortFrom (t : Tx) (c i k : Nat) : Tx := t.each (List.range k) fun t j => t.canStatus c ((i + j) % 2 ^ t.canLog c) 4 none

/-- ABORT (R606, R607, R632): a frame on the bus completes first. -/
def Tx.canAbort (t : Tx) (c : Nat) : Tx :=
  let n := 2 ^ t.canLog c
  let head := t.rd (CAN_PTR_HEAD c)
  let k := (t.rd (CAN_PTR_DBTAIL c) + n - head) % n
  if (t.canOf c).sof ≠ 0 then (t.canAbortFrom c (head + 1) (k - 1)).onCan c fun x => { x with aborting := true }
  else
    let t := (t.canAbortFrom c head k).wr (CAN_PTR_HEAD c) (t.rd (CAN_PTR_DBTAIL c))
    t.onCan c fun x => { x with entry := none, halted := false }

/-- A write of CAN_CMD (R606, R618, R632): a port that is bus-off recovers with RESUME. -/
def Tx.writeCanCmd (t : Tx) (c v : Nat) : Tx :=
  match bits v 3 0 with
  | 1 =>
    if !(t.canOf c).halted then t.set1 (CAN_STAT_CMDREF c)
    else
      let t := if t.rd (CAN_STAT_ERRSTATE c) = 2 then t.canErrors c 0 0 else t
      (t.onCan c fun x => { x with halted := false }).canFetch c
  | 2 => t.canAbort c
  | 3 => t.snapSome (CAN_CNT c) (· == CAN_CNT c)
  | _ => t.set1 (CAN_STAT_CMDREF c)

def execCanResume (mid : Mid) (c : CanPort) (s : State) : Host.Outcome State Fault Refusal :=
  s.does fun t => t.swWrite mid.toNat (CAN_CMD c) (·.writeCanCmd c 1)
def execCanAbort (mid : Mid) (c : CanPort) (s : State) : Host.Outcome State Fault Refusal :=
  s.does fun t => t.swWrite mid.toNat (CAN_CMD c) (·.writeCanCmd c 2)

/-! Ethernet. -/

/-- ETH_LINK_CHANGE (R639): the live link state, and LINKCHG when it changes. -/
def execEthLinkChange (port : EthPort) (up : Bool) (s : State) : Host.Outcome State Fault Refusal :=
  s.does fun t =>
    if !t.powered domNET || !t.is (ETH_PSTAT_CFG port) || t.is (ETH_PSTAT_LINK port) == up then t
    else (((t.wr (ETH_PSTAT_LINK port) (if up then 1 else 0)).set1 (ETH_PSTAT_LINKCHG port)).irq (39 + port)).event "LINK_CHANGE" [39 + port.val, if up then 1 else 0]

/-- ETH_FRAME_DROP (R639): a frame that failed its FCS, or that no stream or buffer takes. -/
def execEthFrameDrop (port : EthPort) (fcs : Bool) (s : State) : Host.Outcome State Fault Refusal :=
  s.does fun t =>
    if !t.powered domNET || !t.is (ETH_PSTAT_CFG port) then t
    else if fcs then ((t.inc (ETH_PCNT_FCSCNT port)).set1 (ETH_PSTAT_FCSERR port)).irq (39 + port)
    else t.inc (ETH_PCNT_RXDROP port)

/-! PCIe. -/

/-- PCIE_LINK_CHANGE (R455, R602): the link of a root port trains to `width` lanes (0: it goes down), or reports an AER error. -/
def execPcieLinkChange (q : Fin 2) (width : Fin 5) (aer : Bool) (s : State) : Host.Outcome State Fault Refusal :=
  s.does fun t =>
    if !t.powered domNET || !t.d.perst.at q || width.val == 3 then t
    else if aer then t.irq (49 + q)
    else if t.d.pcie.at q = width.val then t
    else { t with d := { t.d with pcie := t.d.pcie.put q width.val } }.irq (49 + q)

/-- PERST_RELEASE (R603): 100 ms after the port's REFCLK became stable, at the device time `stable`. -/
def execPerstRelease (q : Fin 2) (stable : Nat) (s : State) : Host.Outcome State Fault Refusal :=
  s.does fun t =>
    if !t.powered domNET || t.d.perst.at q then t
    else
      let r := t.d.refclk.at q
      let since := if r = 0 then stable else r - 1
      let t := { t with d := { t.d with refclk := t.d.refclk.put q (since + 1) } }
      if t.now < since + 100000000 then t else { t with d := { t.d with perst := t.d.perst.put q true } }

/-- The capture window of R459: the hart an address names. -/
def msiHart (bus : Nat) : Option Nat :=
  if 0xFEE0000000 ≤ bus ∧ bus < 0xFEE0000000 + 24 * 0x1000 ∧ (bus - 0xFEE0000000) % 0x1000 = 0 then some ((bus - 0xFEE0000000) / 0x1000) else none

/-- A captured write: an identity of a hart's S-level file, or counted as refused (R459). -/
def Tx.msiCapture (t : Tx) (h data : Nat) : Tx :=
  if 1 ≤ data ∧ data ≤ 255 then t.fileSet true h data else Tx.msiref (t.inc IRQ_MSIREFCNT_COUNT, true)

/-- An inbound request that is not captured (R251): it is translated under its root port's identity and served, or it faults. -/
def Tx.pcieInbound (t : Tx) (q mid ctx bus : Nat) (data : Option (List Byte)) (n : Nat) : Tx :=
  match data with
  | some bs =>
    match t.vWrite 4 ctx mid bus bs with
    | (t, .ok ()) => t
    | (t, .fault c _) => t.send "PCIE" "ERROR" [q, c]
    | (t, .poison _) => t.send "PCIE" "ERROR" [q, 0xB]
    | (t, .held) => t
  | none =>
    match t.vRead 4 ctx mid bus n with
    | (t, .ok bs) => t.send "PCIE" "COMPLETION" (q :: bs.map (·.toNat))
    | (t, .fault c _) => t.send "PCIE" "ERROR" [q, c]
    | (t, .poison _) => t.send "PCIE" "POISON" [q]
    | (t, .held) => t

/-- PCIE_INBOUND_REQUEST (R251): a memory read of `n` bytes, or a write, by a requester that the root port gives an identity and a device
context. -/
def execPcieInboundRequest (q : Fin 2) (mid : BitVec 8) (ctx : BitVec 16) (bus : Nat) (n : BitVec 12) (data : Option (List Byte)) (s : State) :
    Host.Outcome State Fault Refusal :=
  s.does fun t => t.when (t.powered domNET && t.powered domFAB && t.d.pcie.at q != 0) (·.pcieInbound q (0xD00 + mid.toNat) ctx.toNat bus data n.toNat)

/-- MSI_CAPTURE (R459): a 4-byte write to a hart's address; without PCIEN it takes the ordinary path. -/
def execMsiCapture (q : Fin 2) (mid : BitVec 8) (ctx : BitVec 16) (bus : Nat) (data : Word) (s : State) : Host.Outcome State Fault Refusal :=
  s.does fun t =>
    if !t.powered domNET || !t.powered domFAB || t.d.pcie.at q == 0 then t
    else match msiHart bus with
      | some h => if bit (t.rd IRQ_CTL_PCIEN) q then t.msiCapture h data.toNat else t.pcieInbound q (0xD00 + mid.toNat) ctx.toNat bus (some (leBytes 4 data.toNat)) 4
      | none => t.pcieInbound q (0xD00 + mid.toNat) ctx.toNat bus (some (leBytes 4 data.toNat)) 4

/-! Pins that follow other state. -/

/-- CAN0_STB and CAN1_STB of Cleat `c` are driven high: it is in BOOT or SAFE (R598). -/
def State.canStandby (s : State) (c : Nat) : Bool := (s.dev.cleat.at c).st == .boot || (s.dev.cleat.at c).st == .tripped

/-- SURV_N is low: PBA_STAT MODE reads 0b10, or VAON is absent (R600). -/
def State.survLow (s : State) : Bool := s.dev.pba.dark || (Tx.start s).rd PBA_STAT_MODE == 2

end Sys2Proof.Machine
end

