-- ==== Sys2Proof/Machine/Rates.lean ====
section
/-! DEFINITION.  Rate monitors, rails and floor hold (R139 to R146, R160 to R163, R511). -/

namespace Sys2Proof.Machine

/-- The rate monitor block of unit `u`: 0 to 3 the compute dies, 4 to 7 the base tiles. -/
def rtmOf (u : Nat) : Nat := if u < 4 then cdRtm u else btRtm (u - 4)
/-- Its domain. -/
def rtmDom (u : Nat) : Nat := if u < 4 then domCD u else domBT (u - 4)
/-- Its interrupt source (R625). -/
def rtmIrq (u : Nat) : Nat := if u < 4 then 128 + 16 * u + 11 else 128 + 16 * (u - 4) + 15

/-- The guaranteed rate at a rail in mV and a temperature in 1/16 °C, in M steps/s: the lowest value at the
enclosing corners (R139).  Below 680 mV, where no rate is guaranteed, the value at 680 mV is used; above 130 °C
that of 130 °C (log entry 50). -/
def rateG (mv : Nat) (tj : Int) : Nat :=
  let row := if tj ≤ 40 * 16 then [950, 1020, 1090, 1180, 1260, 1300]
    else if tj ≤ 85 * 16 then [880, 950, 1010, 1100, 1170, 1210]
    else if tj ≤ 125 * 16 then [800, 860, 920, 1000, 1070, 1110]
    else [790, 850, 910, 990, 1060, 1100]
  let col := if mv < 700 then 0 else if mv < 720 then 1 else if mv < 750 then 2 else if mv < 780 then 3 else if mv < 800 then 4 else 5
  row.getD col 0

/-- HOLDOK (R143, R508): HOLD, the last window settled with RATE at or above the guard mark, and the die's grants
at PHOLD. -/
def Tx.showHoldOk (t : Tx) (u : Nat) : Tx :=
  let b := rtmOf u
  let grants := decide (4 ≤ u) || (dieDoms u).all fun d => t.domState d != 2 || decide (phold d ≤ t.grantOf d)
  let ok := t.is (RTM_CTL_HOLD b) && t.is (RTM_RATE_VALID b) && (t.d.rtm.at u).settled && decide (820 ≤ t.rd (RTM_RATE_RATE b)) && grants
  t.wr (RTM_STAT_HOLDOK b) (if ok then 1 else 0)

/-- A write of CD_RTM_CTL by a core or the steward: HOLD, and the grants it needs as far as the budget and the
ramp limits allow at once (R143, R160, R508, R640). -/
def Tx.writeRtmCtl (t : Tx) (mid n v : Nat) : Tx :=
  let f := RTM_CTL_HOLD (cdRtm n)
  let t := t.keepRestricted mid (decide (mid < 0x40) || mid == steward) f v fun t v => t.wr f (bits v 0 0)
  let t := t.showHold
  let raise (t : Tx) (d : Nat) : Tx := t.when (t.domState d == 2) (·.moveGrant true (d, phold d))
  let t := if t.held n then t.each (dieDoms n) raise else t
  t.showHoldOk n

/-- HOLD_WRITE (R143). -/
def execHoldWrite (mid : Mid) (d : Die) (value : Word) (s : State) : Host.Outcome State Fault Refusal :=
  s.does fun t => t.swWrite mid.toNat (RTM_CTL (cdRtm d)) (·.writeRtmCtl mid.toNat d value.toNat)

/-- Unit `u` is under floor hold (R142, R144). -/
def Tx.unitHeld (t : Tx) (u : Nat) : Bool := if u < 4 then t.held u else t.anyHeld

/-- The die of THM_DIEx of a unit. -/
def rtmDie (u : Nat) : Nat := 1 + u

/-- Prediction and hottest sensor of a unit, 1/16 °C. -/
def Tx.predOf (t : Tx) (u : Nat) : Int := sint 16 (t.rd (THM_DIE_A_PRED (rtmDie u)))
def Tx.maxOf (t : Tx) (u : Nat) : Int := sint 16 (t.rd (THM_DIE_A_MAX (rtmDie u)))

/-- The rail of a held unit after a window (R142). -/
def Tx.heldRail (t : Tx) (u : Nat) : Nat :=
  let b := rtmOf u
  let v := t.rd (RTM_VRAIL_VRAIL b)
  let rate := t.rd (RTM_RATE_RATE b)
  let r := t.d.rtm.at u
  let h := t.predOf u
  let tj := t.maxOf u
  let up := if v < 800 then v + 5 else v
  if rate < 820 then up
  else if tj < h ∧ rate * rateG v h < 820 * rateG v tj then up
  else if r.settled && r.before && decide (840 ≤ rate) && decide (840 ≤ r.rateBefore) && decide (h ≤ tj) && decide (680 < v) then v - 5
  else v

/-- The compute domains of a unit's rail; a base tile's rail carries its own domains. -/
def railDoms (u : Nat) : List Nat := if u < 4 then dieDoms u else (List.range 4).map (28 + 14 * (u - 4) + ·)

/-- The rail of a unit without floor hold (R511): the highest step at which the measured power, scaled, stays
within the grants; 5 mV lower while a domain of the die is above its grant (R510). -/
def Tx.freeRail (t : Tx) (u : Nat) : Nat :=
  let v := t.rd (RTM_VRAIL_VRAIL (rtmOf u))
  if u < 4 ∧ bit t.d.pba.overdraw u then max 600 (v - 5)
  else
    let p := (railDoms u).foldl (fun a d => a + t.usedOf d) 0
    let g := (railDoms u).foldl (fun a d => a + 100 * t.grantOf d) 0
    let tj := t.maxOf u
    let fits (x : Nat) : Bool := decide (p * (x * x) * rateG x tj ≤ g * (v * v) * rateG v tj)
    (((List.range 41).map fun k => 800 - 5 * k).find? fits).getD 600

/-- The rail moves to `x` from the next window on; a change that would break the ramp limits waits, but that of
a held die never does: it withholds the die's other contexts (R142, R145, R514). -/
def Tx.moveRail (t : Tx) (u x : Nat) : Tx :=
  let b := rtmOf u
  let v := t.rd (RTM_VRAIL_VRAIL b)
  let p := (railDoms u).foldl (fun a d => a + t.usedOf d) 0
  let ok := t.slopeOk (1 + u % 4) (if v = 0 then 0 else (p * (x * x) : Int) / (v * v : Nat) - p)
  let go := x != v && (ok || t.unitHeld u)
  let t := t.when (x != v && !ok) fun t => (t.pwrSticky PBA_STAT_RAMPH).when (decide (u < 4) && t.held u) fun t =>
    (t.onPba fun p => { p with hot := p.hot ||| 2 ^ u }).showWithhold
  let t := { t with d := { t.d with rtm := t.d.rtm.upd u fun r => { r with changed := go } } }
  t.when go (·.wr (RTM_VRAIL_VRAIL b) x)

/-- The response to a held compute die's prediction (R146). -/
def Tx.holdResponse (t : Tx) (n : Nat) : Tx :=
  let h := t.predOf n
  let t := if 120 * 16 ≤ h then t.onPba fun p => { p with hot := p.hot ||| 2 ^ n }
    else if h < 118 * 16 then t.onPba fun p => { p with hot := p.hot &&& (15 - 2 ^ n) }
    else t
  let t := t.showWithhold
  t.when (decide (125 * 16 < h) && decide (t.rd (RTM_VRAIL_VRAIL (cdRtm n)) < 800)) (·.floorReq n)

/-- The floor mark's watermark (R161, R162): the first valid window sets ABOVE without a crossing. -/
def Tx.watermark (t : Tx) (u rate : Nat) (first : Bool) : Tx :=
  let b := rtmOf u
  let was := t.is (RTM_STAT_ABOVE b)
  let now := decide (800 ≤ rate)
  let t := t.wr (RTM_STAT_ABOVE b) (if now then 1 else 0)
  if was && !now || (first && !now) then (((t.set1 (RTM_STAT_XDOWN b)).inc (RTM_XCNT_XCNT b)).irq (rtmIrq u)).notice 0x01 [u]
  else if now && !was && !first then ((t.set1 (RTM_STAT_XUP b)).inc (RTM_XCNT_XCNT b)).irq (rtmIrq u)
  else t

/-- RATE_WINDOW (R141, R142): at a multiple of 10 µs a window of unit `u` ends with a count of replica cycles. -/
def execRateWindow (u : Fin 8) (count : Nat) (s : State) : Host.Outcome State Fault Refusal :=
  s.does fun t =>
    let b := rtmOf u
    let r := t.d.rtm.at u
    if !t.powered (rtmDom u) || t.now % 10000 != 0 || r.last == t.now + 1 then t
    else if r.last = 0 then { t with d := { t.d with rtm := t.d.rtm.upd u fun r => { r with last := t.now + 1 } } }
    else
      let rate := min (count / 10) 65535
      let first := !t.is (RTM_RATE_VALID b)
      let old := t.rd (RTM_RATE_RATE b)
      let t := { t with d := { t.d with rtm := t.d.rtm.upd u fun r =>
        { r with last := t.now + 1, before := r.settled, settled := !r.changed, rateBefore := if first then 0 else old } } }
      let t := (t.wr (RTM_RATE_RATE b) rate).wr (RTM_RATE_VALID b) 1
      let t := t.wr (RTM_RMIN_RMIN b) (min (t.rd (RTM_RMIN_RMIN b)) rate)
      let t := t.watermark u rate first
      let held := t.unitHeld u
      let t := t.moveRail u (if held then t.heldRail u else t.freeRail u)
      let t := if u.val < 4 then (if held then t.holdResponse u else
        t.onPba fun p => { p with hot := p.hot &&& (15 - 2 ^ u.val) }).showWithhold else t
      t.showHoldOk u

end Sys2Proof.Machine
end

