-- ==== Sys2Proof/Machine/Sequences.lean ====
section
/-! DEFINITION.  The sequence block's commands and ticks, and energy accounting (R205 to R216, R224,
R225). -/

namespace Sys2Proof.Machine

/-- A refused command, kick or write of the sequence block. -/
def Tx.seqRefused (t : Tx) (d : Nat) : Tx := t.set1 (CD_SEQ_STAT_CMDREF d)

/-- JOIN, LEAVE and ADOPT lead from one state to another; in any other state they are refused (R205). -/
def Tx.seqMove (t : Tx) (d e src dst : Nat) : Tx :=
  if t.rd (CD_SEQ_ENT0_STATE d e) = src then t.seqSet d e dst else t.seqRefused d

/-- A write of CD_SEQ_CMD (R229). -/
def Tx.seqCommand (t : Tx) (d op e : Nat) : Tx :=
  match op with
  | 1 => t.seqMove d e seqFree seqJoin
  | 2 => t.seqMove d e seqActive seqLeave
  | 3 => t.set1 (CD_SEQ_ENT0_FRESH d e)
  | 4 => if t.rd (CD_SEQ_ENT0_STATE d e) = seqFree then
      (t.seqSet d e seqActive).wr (CD_SEQ_AUD2_SEQPEND d) (satAdd 9 (t.rd (CD_SEQ_AUD2_SEQPEND d)) 1)
    else t.seqRefused d
  | 5 => t.wr (CD_SEQ_AUD2_SEQPEND d) 0
  | 6 => if t.is (CD_SEQ_STAT_MODE d) then t.seqRefused d else t.onSch d fun s => { s with takePend := true }
  | 7 => if t.is (CD_SEQ_STAT_MODE d) then
      (if t.is (CD_SEQ_STAT_RBUSY d) then t.onSch d fun s => { s with givePend := true } else t.handBack d)
    else t.seqRefused d
  | 8 => t.snapSome (CD_SEQ_AUD2 d) (· == CD_SEQ_AUD2 d)
  | _ => t.seqRefused d

/-- The command of an operation on an entry. -/
def seqCmd (op : Nat) (mid : Mid) (d : Die) (e : Nat) (s : State) : Host.Outcome State Fault Refusal :=
  s.does fun t => t.swWrite mid.toNat (CD_SEQ_CMD d) (·.seqCommand d op e)

def execJoin (mid : Mid) (d : Die) (e : Entry) (s : State) : Host.Outcome State Fault Refusal := seqCmd 1 mid d e s
def execLeave (mid : Mid) (d : Die) (e : Entry) (s : State) : Host.Outcome State Fault Refusal := seqCmd 2 mid d e s
def execFresh (mid : Mid) (d : Die) (e : Entry) (s : State) : Host.Outcome State Fault Refusal := seqCmd 3 mid d e s
def execAdopt (mid : Mid) (d : Die) (e : Entry) (s : State) : Host.Outcome State Fault Refusal := seqCmd 4 mid d e s
def execSeqConfirm (mid : Mid) (d : Die) (s : State) : Host.Outcome State Fault Refusal := seqCmd 5 mid d 0 s
def execTake (mid : Mid) (d : Die) (s : State) : Host.Outcome State Fault Refusal := seqCmd 6 mid d 0 s
def execGive (mid : Mid) (d : Die) (s : State) : Host.Outcome State Fault Refusal := seqCmd 7 mid d 0 s

/-- A write of CD_SEQ_KICK: 1 restarts the takeover count; refused while MODE is 1 (R207, R229). -/
def Tx.kick (t : Tx) (d v : Nat) : Tx :=
  if !bit v 0 then t
  else if t.is (CD_SEQ_STAT_MODE d) then t.seqRefused d
  else t.onSch d fun s => { s with kicks := 0 }

def execKick (mid : Mid) (d : Die) (value : Word) (s : State) : Host.Outcome State Fault Refusal :=
  s.does fun t => t.swWrite mid.toNat (CD_SEQ_KICK d) (·.kick d value.toNat)

/-- A software write of an entry word (R206, R231): accepted while MODE is 0 or the entry is FREE; STATE
only while MODE is 0, and never a code that is not held. -/
def Tx.writeEntry (t : Tx) (d a v : Nat) : Tx :=
  let e := (a - CD_SEQ_ENT0 d 0) / 0x20
  let mode := t.is (CD_SEQ_STAT_MODE d)
  let st := t.rd (CD_SEQ_ENT0_STATE d e)
  if mode ∧ st ≠ seqFree then t.seqRefused d
  else if a = CD_SEQ_ENT0 d e then
    let new := if mode || bits v 2 0 > 3 then st else bits v 2 0
    (t.applyAt a (putBits v 2 0 st)).seqSet d e new
  else t.applyAt a v

/-- The takeover count has run out (R207). -/
def Tx.takeoverDue (t : Tx) (d : Nat) : Bool :=
  let k := t.rd (CD_SEQ_CTL_KICKTO d)
  !t.is (CD_SEQ_STAT_MODE d) && t.is (CD_SEQ_CTL_BEN d) && k != 0 && decide (k ≤ (t.schOf d).kicks)

/-- TAKEOVER (R207): MODE becomes builder at that tick, which is a tick of the builder's. -/
def Tx.takeover (t : Tx) (d : Nat) : Tx :=
  let t := ((t.wr (CD_SEQ_STAT_MODE d) 1).set1 (CD_SEQ_STAT_TAKEOVER d)).onSch d fun s => { s with kicks := 0, takePend := false }
  ((t.irq (128 + 16 * d + 12)).event "TAKEOVER" [d]).builderAttempt d

def execTakeover (d : Die) (s : State) : Host.Outcome State Fault Refusal :=
  s.does fun t => t.when (t.powered (domCD d) && t.takeoverDue d) (·.takeover d)

/-- BUILDER_TICK (R207, R209): a TAKE takes effect; in builder mode a round is attempted; in runtime mode
the ticks since the last KICK count. -/
def Tx.builderTick (t : Tx) (d : Nat) : Tx :=
  let t := if (t.schOf d).takePend then
      (t.onSch d fun s => { s with takePend := false, kicks := 0 }).wr (CD_SEQ_STAT_MODE d) 1
    else t
  if t.is (CD_SEQ_STAT_MODE d) then t.builderAttempt d else t.onSch d fun s => { s with kicks := s.kicks + 1 }

def execBuilderTick (d : Die) (s : State) : Host.Outcome State Fault Refusal :=
  s.does fun t => t.when (t.powered (domCD d)) (·.builderTick d)

/-! ### Energy -/

/-- The engine groups whose steps are those of domain `k` of a die: 0 to 3 quadrants, 4 to 7 strand
pairs, 8 the whipping and spectral engines, 9 the fabric (R224). -/
def domainGroups (k : Nat) : List Nat :=
  if k < 4 then [0] else if k < 8 then [1] else if k = 8 then [2] else [0, 1, 2]

/-- One domain's tick (R224): `nj` nanojoules since the last, the residue below 1 µJ carried forward. -/
def Tx.energyDomain (t : Tx) (d k nj : Nat) : Tx :=
  let s := t.schOf d
  let total := s.residue.at k + nj
  let e := total / 1000
  let steps (cls : Nat) := ((domainGroups k).map fun g => s.tickSteps.at (g * 64 + cls)).foldl (· + ·) 0
  let sum := ((List.range 64).map steps).foldl (· + ·) 0
  let t := t.onSch d fun s => { s with residue := s.residue.put k (total % 1000) }
  let (t, given) := (List.range 64).foldl (fun (t, given) cls =>
    if sum = 0 ∨ steps cls = 0 then (t, given)
    else
      let q := e * steps cls / sum
      (t.incPair (CD_ACT_ENERGY_LO d cls) q, given + q)) (t, 0)
  (t.incPair (CD_ACT_IDLE_LO d) (e - given)).incPair (CD_ACT_ETOT_LO d) e

/-- ENERGY_TICK (R224): every powered compute die apportions the energy of its ten domains; `energies`
gives them in nJ, die by die. -/
def execEnergyTick (energies : List Nat) (s : State) : Host.Outcome State Fault Refusal :=
  s.does fun t => t.each (List.range 4) fun t d =>
    if t.powered (domCD d) then
      (t.each (List.range 10) fun t k => t.energyDomain d k (energies.getD (10 * d + k) 0)).onSch d fun s => { s with tickSteps := [] }
    else t

end Sys2Proof.Machine
end

