-- ==== Sys2Proof/Machine/RegWrite.lean ====
section
/-! DEFINITION.  Software's writes of registers, by address: each reaches the same effect as the command that has a row of its own, and
otherwise every field takes the write under its class (R12, R15, R17, R627, R628, R632). -/

namespace Sys2Proof.Machine

/-- A snapshot command in bit 0 (R630). -/
def Tx.snapBit (t : Tx) (a v : Nat) : Tx := if bit v 0 then t.snapBlock a else t

/-- A write of a register with a lock bit: a set lock stays set, and a 0 for it is lost (R627). -/
def Tx.writeLock (t : Tx) (l : FRef) (v : Nat) : Tx :=
  if t.is l && !bit v l.lo then (t.lostWrite l.addr).applyAt l.addr (putBits v l.hi l.lo 1) else t.applyAt l.addr v

/-- Kept bytes of a range whose contents are no longer what was written become open values (log entry 12). -/
def Tx.openKeys (t : Tx) (lo hi : Nat) : Tx :=
  t.each ((t.m.map (·.1) ++ t.s.mem.map (·.1)).filter fun k => decide (lo ≤ k) && decide (k < hi)) fun t k =>
    let (v, t) := t.fresh 8
    t.wb k (BitVec.ofNat 8 v)

/-- A write of HD_DMAP_CFG (R266, R293): another LOCSZ moves every address to other devices. -/
def Tx.writeDmapCfg (t : Tx) (v : Nat) : Tx :=
  let old := t.rd HD_DMAP_CFG_LOCSZ
  let t := t.writeLock HD_DMAP_CFG_LOCK v
  if t.rd HD_DMAP_CFG_LOCSZ = old then t else t.openKeys 0 dramEnd

/-- A write of a register of the encryption block (R271, R295): another region or slot deciphers with another key. -/
def Tx.writeMee (t : Tx) (a v : Nat) : Tx :=
  if a = HD_MEE_CTL then
    if t.is HD_MEE_CTL_LOCK then (if bit v 0 then t else t.lostWrite a) else if bit v 0 then t.meeLock else t
  else
    let old := t.word a
    let t := t.applyAt a v
    let t := if a = HD_MEE_RCFG 0 then t.wr (HD_MEE_RCFG_EN 0) 1 else t
    if a = HD_MEE_STAT ∨ t.word a = old then t else t.openKeys 0 dramEnd

/-- A write of the translation unit `u` (R263). -/
def Tx.writeXlt (t : Tx) (u a v : Nat) : Tx :=
  let b := xltBase u
  if a = XLT_CTL b then t.writeXltCtl u v
  else if a = XLT_INV b then t.writeXltInv u (bits v 2 0) (bits v 31 16) (bit v 6)
  else if a = XLT_LOCK b then t.writeXltLock u (bits v 1 0) (bits v 31 16)
  else if a = XLT_CMD b then t.snapBit a v
  else if (a = XLT_DCT_LO b ∨ a = XLT_DCT_HI b) ∧ t.is (XLT_CTL_EN b) then t.set1 (XLT_STAT_CMDREF b)
  else t.applyAt a v

/-- A write of link block `e` (R328). -/
def Tx.writeLnk (t : Tx) (e a v : Nat) : Tx :=
  let b := lnkBase e
  if a = LNK_CMD b then t.writeLnkCmd e v
  else if LNK_LMAP b 0 ≤ a ∧ (a - LNK_LMAP b 0) % 0x20 = 0 then t.writeLmap e ((a - LNK_LMAP b 0) / 0x20) v
  else t.applyAt a v

/-- A write of regulator block `b` (R329). -/
def Tx.writeReg (t : Tx) (b a v : Nat) : Tx :=
  let i := (a - REG_CFG b 0) / 0x20
  if !isMcReg b && a == REG_CMD b then t.snapBit a v
  else if REG_CFG b 0 ≤ a ∧ a = REG_CFG b i then t.writeRegCfg b i v
  else if REG_CFG b 0 ≤ a ∧ a = REG_CTL b i then t.writeRegCtl b i v
  else t.applyAt a v

/-- A write of HD_DMA (R330). -/
def Tx.writeDma (t : Tx) (a v : Nat) : Tx :=
  let c := (a - DMA_RBASE_LO 0) / 0x20
  if a = DMA_CMD then t.writeDmaCmd v
  else if a < DMA_RBASE_LO 0 then t.applyAt a v
  else if a = DMA_DB c then t.dmaDoorbell c v
  else if a ≤ DMA_CFG c then t.writeDmaSetup c a v
  else t.applyAt a v

/-- A write of HD_ING (R368, R369). -/
def Tx.writeIng (t : Tx) (a v : Nat) : Tx :=
  let r := (a - ING_RCFG 0) / 0x40
  if a = ING_CTL then t.writeIngCtl v
  else if a = ING_CMD then t.snapBit a v
  else if a = ING_STBASE_LO ∨ a = ING_STBASE_HI ∨ a = ING_DEVCTX then
    (if t.is ING_CTL_EN then t.set1 ING_STAT_CMDREF else t.applyAt a v)
  else if a < ING_RCFG 0 then t.applyAt a v
  else if a ≤ ING_RBASE_HI r then t.writeRing r a v
  else if a = ING_RCONS r then t.writeRcons r v
  else if a = ING_WM r then t.writeWm r v
  else if a = ING_TAKE r then t.writeTake r v
  else t.applyAt a v

/-- A write of HD_ALN (R371). -/
def Tx.writeAln (t : Tx) (a v : Nat) : Tx :=
  if a = ALN_CTL then t.writeAlnCtl v
  else if a = ALN_CMD then t.writeAlnCmd v
  else if a = ALN_DB then t.alnDoorbell v
  else if [ALN_CFG, ALN_RBASE_LO, ALN_RBASE_HI, ALN_CBASE_LO, ALN_CBASE_HI].contains a then t.writeAlnSetup a v
  else if a = ALN_CALCTL then t.writeLock ALN_CALCTL_LOCK v
  else t.applyAt a v

/-- A write of HD_TRJ (R397, R398). -/
def Tx.writeTrj (t : Tx) (a v : Nat) : Tx :=
  if a = TRJ_CTL then t.writeTrjCtl v
  else if a = TRJ_CMD then t.writeTrjCmd v
  else if a = TRJ_DDB then t.writeDdb v
  else if [TRJ_CFG, TRJ_DRBASE_LO, TRJ_DRBASE_HI, TRJ_RES_LO, TRJ_RES_HI, TRJ_EMAC_LO, TRJ_EMAC_HI, TRJ_EVLAN].contains a then t.writeTrjSetup a v
  else t.applyAt a v

/-- A write of HD_CLP (R432). -/
def Tx.writeClp (t : Tx) (a v : Nat) : Tx :=
  if a = CLP_CTL ∨ a = CLP_RBASE_LO ∨ a = CLP_RBASE_HI then t.writeClpSetup a v
  else if a = CLP_DB then t.clpDoorbell v
  else if a = CLP_CMD then t.writeClpCmd v
  else if a = CLP_HB then t.clpHb v
  else t.applyAt a v

/-- A write of HD_HWS (R497 to R499). -/
def Tx.writeHws (t : Tx) (a v : Nat) : Tx :=
  if a = HWS_CMD then t.writeHwsCmd v
  else if a = HWS_CTL then t.writeHwsCtl v
  else if a = HWS_DDB then t.digDoorbell v
  else if [HWS_DCFG, HWS_DRBASE_LO, HWS_DRBASE_HI, HWS_DCBASE_LO, HWS_DCBASE_HI].contains a then t.writeDigSetup a v
  else if HWS_WBASE 0 ≤ a ∧ a < HWS_WBASE 16 then t.writeHwsWindow ((a - HWS_WBASE 0) / 0x10) a v
  else t.applyAt a v

/-- A write of HD_CAN (R618). -/
def Tx.writeCan (t : Tx) (a v : Nat) : Tx :=
  let c := (a - CAN_CTL 0) / 0x40
  if a = CAN_CTL c ∨ a = CAN_RBASE_LO c ∨ a = CAN_RBASE_HI c then t.writeCanSetup c a v
  else if a = CAN_DB c then t.canDoorbell c v
  else if a = CAN_CMD c then t.writeCanCmd c v
  else t.applyAt a v

/-- A write of HD_MBX (R448, R449, R465 to R467): a channel's runtime registers belong to its sender and its receiver. -/
def Tx.writeMbx (t : Tx) (mid a v : Nat) : Tx :=
  let ch := (a - MBX_SPTR_LO 0) / 0x20
  if a = MBX_CTL then t.writeLock MBX_CTL_LOCK v
  else if a = MBX_CMD then t.snapBit a v
  else if a < MBX_SPTR_LO 0 then t.applyAt a v
  else if MBX_CNT 0 ≤ a then
    (if t.mbxSends mid ((a - MBX_CNT 0) / 4) || t.mbxTakes mid ((a - MBX_CNT 0) / 4) || mid == steward then t else t.mbxIdErr mid ((a - MBX_CNT 0) / 4) 3)
  else if a = MBX_STAG ch then t.mbxPost mid ch v
  else if a = MBX_RPOP ch then t.mbxPop mid ch v
  else if a = MBX_SPTR_LO ch ∨ a = MBX_SPTR_HI ch then (if t.mbxSends mid ch then t.applyAt a v else t.mbxIdErr mid ch ((a - MBX_SPTR_LO ch) / 4))
  else if a = MBX_CST ch then (if t.mbxSends mid ch || t.mbxTakes mid ch || mid == steward then t else t.mbxIdErr mid ch 3)
  else if t.mbxTakes mid ch then t
  else t.mbxIdErr mid ch ((a - MBX_SPTR_LO ch) / 4)

/-- A write of an application-core block: a timer's compare takes effect at once (R436, R468). -/
def Tx.writeAcx (t : Tx) (k a v : Nat) : Tx :=
  if a = ACX_CMD k then t.snapBit a v
  else if MTIMECMP_LO k 0 ≤ a then (t.applyAt a v).mtimer (8 * k + (a - MTIMECMP_LO k 0) / 8)
  else t.applyAt a v

/-- A write of a hub block's register. -/
def Tx.hubEffect (t : Tx) (mid a v : Nat) : Tx :=
  let page := (a - hdBase) / 0x1000
  match page with
  | 0x10 => if a = GLB_CMD then t.snapBit a v else t.applyAt a v
  | 0x20 => if a = ETH_CMD then t.snapBit a v else t.applyAt a v
  | 0x30 => if a = HD_SHF_GCFG then t.writeGcfg v else t.applyAt a v
  | 0x40 => if a = HD_SC_CTL then t.writeScrways v else if a = HD_SC_CMD then t.snapBit a v else t.applyAt a v
  | 0x50 => t.writeXlt 4 a v
  | 0x60 => if a = HD_DMAP_CFG then t.writeDmapCfg v else if a = HD_DMAP_MCMD then t.writeMcmd v else t.applyAt a v
  | 0x70 => t.writeMee a v
  | 0x80 => t.writeLnk 4 a v
  | 0x90 => t.writeReg hdReg a v
  | 0xA0 => if a = FW_CTL then t.writeLock FW_CTL_LOCK v else if a = FW_CMD then t.snapBit a v else t.applyAt a v
  | 0xB0 => t.writeDma a v
  | 0x110 => if a = EGO_CTL then t.writeEgoCtl v else if a = EGO_BIASCMD then t.writeBiasCmd v else t.applyAt a v
  | 0x120 => t.writeAln a v
  | 0x130 => t.writeTrj a v
  | 0x140 => t.writeClp a v
  | 0x160 => if a = IRQ_CMD then t.snapBit a v else t.applyAt a v
  | 0x170 => t.writeHws a v
  | 0x180 => if a = PBA_CTL then t.writeBudget v else if a = PBA_CMD then t.writePbaCmd mid v else if a = PBA_REQ then t.writePbaReq mid v else t.applyAt a v
  | 0x190 => if a = THM_CTL then t.writeTlim v else if a = THM_TRIP then t.writeTrip v else if a = THM_CMD then t.snapBit a v else t.applyAt a v
  | 0x1A0 => if a = HUP_CMD then t.snapBit a v else t.applyAt a v
  | 0x1B0 => if a = TST_CMD then t.writeTstCmd v else t.applyAt a v
  | 0x1C0 => if a = RST_CMD then t.writeRstCmd mid v else t.applyAt a v
  | 0x1D0 => if a = SEC_UPDCMD then t.writeUpdCmd v else t.applyAt a v
  | 0x1F0 => t.writeCan a v
  | _ =>
    if 0xD0 ≤ page ∧ page < 0xD4 then t.writeIng a v
    else if 0x100 ≤ page ∧ page < 0x109 then
      let m := page - 0x100
      if a = HD_MC_CMD m then t.snapBit a v else if REG_CFG (mcReg m) 0 ≤ a then t.writeReg (mcReg m) a v else t.applyAt a v
    else if 0x150 ≤ page ∧ page < 0x153 then t.writeAcx (page - 0x150) a v
    else if 0x200 ≤ page ∧ page < 0x210 then t.writeMbx mid a v
    else t.applyAt a v

/-- A write of a scheduler's register (R199, R200, R632). -/
def Tx.writeSch (t : Tx) (mid d a v : Nat) : Tx :=
  let r := (a - CD_SCH_RBASE_LO d 0) / 0x20
  if a = CD_SCH_CTL d then t.writeSchCtl mid d v
  else if a = CD_SCH_CCMD d then t.ctxCommand d (bits v 10 8) (bits v 3 0)
  else if a = CD_SCH_CMD d then t.snapBit a v
  else if a = CD_SCH_EVTINC d then t.eventInc d (bits v 3 0)
  else if a < CD_SCH_RBASE_LO d 0 then t.applyAt a v
  else if a ≤ CD_SCH_RCFG d r then
    (if (t.ctxOf d r).st = .idle then (t.applyAt a v).setWord (CD_SCH_RPTR d r) 0 else t.set1 (CD_SCH_STAT_CMDREF d))
  else if a = CD_SCH_DB d r then t.schDoorbell d r v
  else t.applyAt a v

/-- A write of a sequence block's register (R227, R229, R231). -/
def Tx.writeSeq (t : Tx) (d a v : Nat) : Tx :=
  if a = CD_SEQ_CMD d then t.seqCommand d (bits v 3 0) (bits v 15 8)
  else if a = CD_SEQ_KICK d then t.kick d v
  else if CD_SEQ_ENT0 d 0 ≤ a then t.writeEntry d a v
  else if t.is (CD_SEQ_STAT_MODE d) ∧ (a = CD_SEQ_CTL d ∨ a = CD_SEQ_PER d ∨ (CD_SEQ_TPL_LO d ≤ a ∧ a ≠ CD_SEQ_POOLCNT d)) then t.seqRefused d
  else t.applyAt a v

/-- A write of a register of compute die or base tile `d`. -/
def Tx.stackEffect (t : Tx) (mid d a v : Nat) : Tx :=
  if a < btBase d then
    match (a - cdBase d) / 0x10000 with
    | 1 => t.writeSch mid d a v
    | 2 => if a = CD_BRD_QCTL d then t.writeQctl mid d v else if a = CD_BRD_CMD d then t.snapBit a v else t.applyAt a v
    | 3 => if a = CD_STR_CTL d then t.writeStrCtl d v else if a = CD_STR_CMD d then t.snapBit a v else t.applyAt a v
    | 4 => if a = CD_WSP_CMD d then t.snapBit a v else t.applyAt a v
    | 5 => if a = RTM_CTL (cdRtm d) then t.writeRtmCtl mid d v else if a = RTM_CMD (cdRtm d) then t.snapBit a v else t.applyAt a v
    | 6 => t.writeSeq d a v
    | 7 => if a = CD_ACT_CMD d then t.snapBit a v else t.applyAt a v
    | 8 => t.writeXlt d a v
    | 9 => t.writeReg (cdReg d) a v
    | _ => t.applyAt a v
  else match (a - btBase d) / 0x10000 with
    | 2 => if a = BT_SHF_CMD d then t.snapBit a v else t.applyAt a v
    | 3 => t.writeLnk d a v
    | 5 => if a = RTM_CMD (btRtm d) then t.snapBit a v else t.applyAt a v
    | _ => t.applyAt a v

/-! The lines that stickies hold. -/

/-- The stickies of a regulator block, and of a link block, that keep its line high. -/
def regHeld (b : Nat) : List (Nat × Nat) := (List.range 8).map fun i => (REG_STAT b i, 0x14)
def lnkHeld (e : Nat) : List (Nat × Nat) := (LNK_STAT (lnkBase e), 1) :: (List.range (lnkCount e)).map fun k => (LNK_MST (lnkBase e) k, 0xF)

/-- The stickies that keep source `i` asserted: registers and masks. -/
def lineHeld (i : Nat) : List (Nat × Nat) :=
  if 1 ≤ i ∧ i ≤ 9 then (HD_MC_STAT (i - 1), 0x600) :: regHeld (mcReg (i - 1))
  else if 17 ≤ i ∧ i ≤ 32 then [(DMA_STAT, 2 ^ (i - 17))]
  else if 39 ≤ i ∧ i ≤ 46 then [(ETH_PSTAT (i - 39), 0x38)]
  else if 64 ≤ i ∧ i < 128 then [(ING_TAKEST (i - 64), 0x80000000), (ING_WM (i - 64), 0xC)]
  else if 128 ≤ i ∧ i < 192 then
    let n := (i - 128) / 16
    let j := i % 16
    if j < 8 then [(CD_SCH_STAT n, 2 ^ (8 + j))]
    else match j with
      | 11 => [(RTM_STAT (cdRtm n), 0x70000)]
      | 12 => [(CD_SEQ_STAT n, 0x130000)]
      | 14 => regHeld (cdReg n)
      | 15 => (RTM_STAT (btRtm n), 0x30000) :: lnkHeld n
      | _ => []
  else match i with
    | 10 => [(HD_DMAP_MSTAT, 0x70000)]
    | 14 => lnkHeld 4
    | 15 => regHeld hdReg
    | 16 => [(FW_STAT, 2)]
    | 33 => [(TB_STAT, 0xE)]
    | 34 => [(ING_STAT, 2)]
    | 35 => [(EGO_STAT, 0x160)]
    | 36 => [(ALN_STAT, 0x1C)]
    | 37 => [(TRJ_STAT, 0x1F0)]
    | 38 => [(CLP_STAT, 0x70)]
    | 47 => [(HWS_STAT, 0xF80)]
    | 51 => [(MBX_STAT, 1)]
    | 52 => (List.range 3).map fun k => (ACX_STAT k, 2)
    | 53 => [(IRQ_STAT, 1)]
    | _ => []

/-- A line with no sticky left falls, when the write at `a` may have cleared the last. -/
def Tx.lowerLines (t : Tx) (a : Nat) : Tx :=
  t.each ((List.range 192).filter fun i => (lineHeld i).any fun x => x.1 == a) fun t i =>
    if (lineHeld i).any fun x => t.word x.1 &&& x.2 != 0 then t else t.irqFall i

/-- What a permitted write of the register at `a` does. -/
def Tx.writeAt (t : Tx) (mid a v : Nat) : Tx :=
  let t := if a < cdBase 0 then t.hubEffect mid a v else t.stackEffect mid ((a - cdBase 0) / 0x2000000) a v
  t.lowerLines a

/-! Ranges in a standard's own layout. -/

/-- The APLIC domain at `a` (R453): the S level's, and the offset. -/
def aplAt (a : Nat) : Option (Bool × Nat) :=
  if hdBase + 0x300000 ≤ a ∧ a < hdBase + 0x310000 then some (decide (hdBase + 0x308000 ≤ a), (a - hdBase) % 0x8000) else none

/-- The interrupt file at `a` (R454): level, hart, offset. -/
def fileAt (a : Nat) : Option (Bool × Nat × Nat) :=
  let o := a - hdBase
  if hdBase ≤ a ∧ 0x400000 ≤ o ∧ o < 0x418000 then some (false, (o - 0x400000) / 0x1000, o % 0x1000)
  else if hdBase ≤ a ∧ 0x500000 ≤ o ∧ o < 0x518000 then some (true, (o - 0x500000) / 0x1000, o % 0x1000)
  else none

/-- The root port whose own configuration lies at `a` (R623). -/
def rootAt (a : Nat) : Option Nat := if hdBase + 0x600000 ≤ a ∧ a < hdBase + 0x602000 then some ((a - hdBase - 0x600000) / 0x1000) else none

/-- The bytes of a word, reversed. -/
def swap32 (v : Nat) : Nat := bits v 7 0 * 2 ^ 24 + bits v 15 8 * 2 ^ 16 + bits v 23 16 * 2 ^ 8 + bits v 31 24

/-- A debug session permits debug's write at `a` (R583). -/
def Tx.debugWrites (t : Tx) (a : Nat) : Bool :=
  let page := (a - hdBase) / 0x1000
  decide ((if page = 0x1C0 ∨ page = 0x1D0 then 3 else 2) ≤ t.rd DBG_STAT_LEVEL)

/-- A write of `size` bytes by `mid` in configuration space.  An aligned 32-bit write reaches its register; any other is an access error. -/
def Tx.cfgWrite (t : Tx) (mid a size v : Nat) : Tx :=
  let narrow := size != 4 || a % 4 != 0
  if mid = debugMid ∧ !t.debugWrites a then t
  else match aplAt a, fileAt a, rootAt a with
    | some (s, o), _, _ =>
      if !cfgMid mid || !t.powered domFAB then t.decodeError mid a true else if mid = debugMid ∨ narrow then t else t.aplWrite s o v
    | _, some (s, h, o), _ =>
      if !t.powered domFAB then t.decodeError mid a true
      else if narrow then t
      else if o = 0 then t.seteipnum mid s h v
      else if o = 4 then t.seteipnum mid s h (swap32 v)
      else t
    | _, _, some q =>
      if !cfgMid mid || !t.powered domNET then t.decodeError mid a true else t.send "PCIE" "ROOT_WRITE" [q, a, size, v]
    | none, none, none =>
      if !narrow then t.swWrite mid a fun t => t.writeAt mid a (v % 2 ^ 32)
      else match t.meets mid a size with
        | .decode => t.decodeError mid a true
        | .held => t
        | .bad b k => t.accError b k mid a true
        | .snapAlias b _ => t.aliasWrite b mid a
        | .reg b _ => t.accError b 1 mid a true

/-- REGISTER_WRITE (R12, R17). -/
def execRegisterWrite (mid : Mid) (a : Addr) (size : Fin 9) (value : BitVec 64) (s : State) : Host.Outcome State Fault Refusal :=
  s.does fun t => t.cfgWrite mid.toNat a.toNat size.val value.toNat

/-- The value that commands a snapshot when it is written to the register at `a`, where that is a command register (R630). -/
def snapValue (a : Nat) : Option Nat :=
  let ones := [GLB_CMD, ETH_CMD, HD_SC_CMD, XLT_CMD (xltBase 4), LNK_CMD hdLnk, REG_CMD hdReg, FW_CMD, ING_CMD, MBX_CMD, IRQ_CMD, PBA_CMD, THM_CMD, HUP_CMD] ++
    (List.range 9).map HD_MC_CMD ++ (List.range 3).map ACX_CMD ++
    (List.range 4).flatMap fun d => [CD_BRD_CMD d, CD_STR_CMD d, CD_WSP_CMD d, CD_SCH_CMD d, CD_ACT_CMD d, RTM_CMD (cdRtm d), XLT_CMD (xltBase d),
      REG_CMD (cdReg d), BT_SHF_CMD d, LNK_CMD (btLnk d), RTM_CMD (btRtm d)]
  if ones.contains a then some 1
  else if (List.range 4).any (fun d => CD_SEQ_CMD d == a) then some 8
  else if a = HD_DMAP_MCMD then some 2
  else if a = TRJ_CMD ∨ a = CLP_CMD ∨ a = TST_CMD ∨ (List.range 4).any (fun c => CAN_CMD c == a) then some 3
  else if a = RST_CMD then some 5
  else if a = HWS_CMD then some 7
  else none

/-- SNAP (R630): a master writes the snapshot command to the command register at `a`. -/
def execSnap (mid : Mid) (a : Addr) (s : State) : Host.Outcome State Fault Refusal :=
  s.does fun t =>
    match snapValue a.toNat with
    | some v => t.cfgWrite mid.toNat a.toNat 4 v
    | none => t

/-- The six locks in the order of GLB_LOCKS (R627). -/
def lockRef (i : Nat) : FRef := [HD_SHF_GCFG_LOCK, HD_DMAP_CFG_LOCK, HD_MEE_CTL_LOCK, FW_CTL_LOCK, MBX_CTL_LOCK, ALN_CALCTL_LOCK].getD i HD_SHF_GCFG_LOCK

/-- LOCK_SET (R627): a write that sets a lock bit and carries what else it carries. -/
def execLockSet (mid : Mid) (lock : Fin 6) (value : Word) (s : State) : Host.Outcome State Fault Refusal :=
  s.does fun t => t.cfgWrite mid.toNat (lockRef lock).addr 4 (putBits value.toNat (lockRef lock).hi (lockRef lock).lo 1)

/-! Reads. -/

/-- The offsets of the low words of 64-bit pairs in the block at `b`, each the offset of its row (R14). -/
def lowOffs (b : Nat) : List Nat :=
  let xlt := [8, 0x14, 0x20, 0x2C]
  if b < cdBase 0 then
    match (b - hdBase) / 0x1000 with
    | 0x00 => [4]
    | 0x10 => [0x10, 0x18]
    | 0x40 => [0x40, 0x48]
    | 0x50 => xlt
    | 0x60 => [0x10]
    | 0xA0 => [0xC, 0x100, 0x108]
    | 0xB0 => [0x100, 0x108]
    | 0xC0 => [8, 0x10]
    | 0xD0 => [0xC, 0x1004]
    | 0x110 => [8, 0x18]
    | 0x120 => [0xC, 0x14, 0x30, 0x38]
    | 0x130 => [0xC, 0x18, 0x28, 0x3C]
    | 0x140 => [8]
    | 0x150 | 0x151 | 0x152 => [0x10, 0x100]
    | 0x170 => [0x14, 0x28, 0x30]
    | 0x180 => [0x400]
    | 0x1A0 => [0x14]
    | 0x1D0 => [0xC]
    | 0x1F0 => [0x108]
    | 0x200 => [0x8000, 0x8010]
    | _ => []
  else if cdBase 4 ≤ b ∨ 0x1000000 ≤ (b - cdBase 0) % 0x2000000 then []
  else match (b - cdBase 0) % 0x2000000 / 0x10000 with
    | 1 => [0x100]
    | 2 => [0x18]
    | 3 => [0x10]
    | 4 => [0x10, 0x18]
    | 6 => [0x28, 0x30, 0x3C]
    | 7 => [8, 0x10] ++ (List.range 8).map (0x1000 + 8 * ·)
    | 8 => xlt
    | _ => []

/-- The register at `a` of block `b` is the low word of a pair. -/
def Blk.isLow (b : Blk) (a : Nat) : Bool := ((b.rowAt a).map fun r => (lowOffs b.base).contains r.off).getD false

/-- The lock bits in one word (R638). -/
def Tx.locks (t : Tx) : Nat := (List.range 6).foldl (fun w i => if t.is (lockRef i) then w + 2 ^ i else w) 0

/-- The live value of the register at `a`: what the block shows is live where it is not kept. -/
def Tx.live (t : Tx) (a : Nat) : Nat :=
  let w := t.word a
  if a = TB_NOW_LO then t.now % 2 ^ 32
  else if a = TB_NOW_HI then t.now / 2 ^ 32 % 2 ^ 32
  else if a = GLB_LOCKS then t.locks
  else if GLB_IRQLVL 0 ≤ a ∧ a < GLB_IRQLVL 6 then
    let k := (a - GLB_IRQLVL 0) / 4
    (List.range 32).foldl (fun w b => if t.d.irq.level.at (32 * k + b) then w + 2 ^ b else w) 0
  else if a = HWS_CTL then putBits w (HWS_CTL_MODID).hi (HWS_CTL_MODID).lo modid
  else if ETH_PSTAT 0 ≤ a ∧ a < ETH_PSTAT 8 ∧ (a - ETH_PSTAT 0) % 0x40 = 0 then
    putBits w 1 1 (if t.is TB_CTL_PTPEN ∧ t.rd TB_CTL_PTPPORT = (a - ETH_PSTAT 0) / 0x40 then 1 else 0)
  else if (List.range 5).any fun n => (List.range 8).any fun i => REG_CTL (regBlock n) i == a && t.is (REG_CTL_RT (regBlock n) i) then
    putBits w (REG_CTL_RANK hdReg 0).hi (REG_CTL_RANK hdReg 0).lo 7
  else w

/-- A channel's register may be read by `mid`; if not, the offset that the error names (R449). -/
def Tx.mbxReadBad (t : Tx) (mid a : Nat) : Option (Nat × Nat) :=
  if a < MBX_SPTR_LO 0 ∨ hdBase + 0x210000 ≤ a ∨ mid = debugMid then none
  else if MBX_CNT 0 ≤ a then
    let ch := (a - MBX_CNT 0) / 4
    if t.mbxSends mid ch || t.mbxTakes mid ch || mid == steward then none else some (ch, 3)
  else
    let ch := (a - MBX_SPTR_LO 0) / 0x20
    let o := (a - MBX_SPTR_LO ch) / 4
    let ok := if o < 3 then t.mbxSends mid ch else if o = 3 then t.mbxSends mid ch || t.mbxTakes mid ch || mid == steward else t.mbxTakes mid ch
    if ok then none else some (ch, o)

/-- A latched read of the register at `a` of block `b`, `v` being its live value and `hi` that of the next word (R14, R629): latches are
kept by the low word's address. -/
def Tx.latched (t : Tx) (b : Blk) (ra mid a v hi : Nat) : Nat × Tx :=
  if b.isLow ra then (v, { t with d := { t.d with latches := t.d.latches.put a ⟨mid, hi, true⟩ } })
  else if 4 ≤ ra ∧ b.isLow (ra - 4) then
    let l := t.d.latches.at (a - 4)
    (if l.held && l.mid == mid then l.high else v, t)
  else (v, t)

/-- A read of `size` bytes by `mid` in configuration space, and its answer. -/
def Tx.cfgRead (t : Tx) (mid a size : Nat) : Ans Nat × Tx :=
  let narrow := size != 4 || a % 4 != 0
  match aplAt a, fileAt a, rootAt a with
  | some (s, o), _, _ =>
    if !cfgMid mid || !t.powered domFAB then (.decode a, t.decodeError mid a false) else if narrow then (.ok 0, t) else (.ok (t.aplRead s o), t)
  | _, some _, _ => if !cfgMid mid || !t.powered domFAB then (.decode a, t.decodeError mid a false) else (.ok 0, t)
  | _, _, some _ =>
    if !cfgMid mid || !t.powered domNET then (.decode a, t.decodeError mid a false)
    else
      let (v, t) := t.fresh 32
      (.ok v, t)
  | none, none, none =>
    match t.meets mid a size with
    | .decode => (.decode a, t.decodeError mid a false)
    | .held => (.held, t)
    | .bad b k => (.ok 0, t.accError b k mid a false)
    | .snapAlias b _ =>
      let (v, t) := t.latched b (a - aliasOff) mid a (t.word a) (t.word (a + 4))
      (.ok v, t)
    | .reg b _ =>
      match t.mbxReadBad mid a with
      | some (ch, o) => (.ok 0, t.mbxIdErr mid ch o)
      | none =>
        if mid = debugMid then (.ok (t.live a), t)
        else
          let (v, t) := t.latched b a mid a (t.live a) (t.live (a + 4))
          (.ok v, t)

/-- LOW_WORD_READ (R12, R14, R629): a read of a register by a hart or the steward; the value goes to the reader. -/
def execLowWordRead (mid : Mid) (a : Addr) (size : Fin 9) (s : State) : Host.Outcome State Fault Refusal :=
  s.does fun t =>
    if mid.toNat = debugMid then t
    else match t.cfgRead mid.toNat a.toNat size.val with
      | (.ok v, t) => t.send "CFG" "DATA" [mid.toNat, a.toNat, v]
      | (.decode _, t) => t.send "CFG" "DECODE" [mid.toNat, a.toNat]
      | (_, t) => t

/-- The guest window (R326). -/
def inGuest (a : Nat) : Bool := decide (0x6030000000 ≤ a) && decide (a < 0x6040000000)

/-- DEBUG_READ (R583, R585): a debug-attributed read of `size` bytes, by the target it names. -/
def execDebugRead (a : Addr) (size : Fin 9) (s : State) : Host.Outcome State Fault Refusal :=
  s.does fun t =>
    let p := a.toNat
    let carrier := decide (mramBase ≤ p) && decide (p < norEnd)
    let answer (t : Tx) (v : Nat) : Tx := t.send "DEBUG" "DATA" [p, v]
    if t.rd DBG_STAT_LEVEL < (if carrier then 3 else 1) then t
    else if inPcie p || inGuest p then answer (t.set1 DBG_STAT_NOPEEK) 0
    else if hdBase ≤ p ∧ p < 0x6030000000 ∨ 0x6080000000 ≤ p ∧ p < 0x60A0000000 then
      match t.cfgRead debugMid p size.val with
      | (.ok v, t) => answer t v
      | (.decode _, t) => t.send "DEBUG" "DECODE" [p]
      | (_, t) => t
    else match t.physRead debugMid p size.val with
      | .ok bs => answer t (leNat bs)
      | .poison _ => answer ((t.set1 DBG_STAT_NOPEEK).set1 DBG_STAT_POISON) 0
      | .held => t
      | .decode _ => (t.decodeError debugMid p false).send "DEBUG" "DECODE" [p]

end Sys2Proof.Machine
end

