-- ==== Sys2Proof/Machine/HartAccess.lean ====
section
/-! DEFINITION.  Accesses of the harts to memory and devices (R437 to R440): region attributes, poison, atomics and cache-block operations.
The causes of traps are the RISC-V privileged architecture's (PRESUMED, log entry 61). -/

namespace Sys2Proof.Machine

/-- The kind of region that holds an address (R438). -/
inductive HartRegion where
  /-- coherent main memory: the LPDDR5X range and the scratch -/
  | main
  | shelf
  | config
  | guest
  | pcie
  /-- no region of the harts -/
  | none
  deriving DecidableEq, Repr

/-- The region of `pa`. -/
def regionOf (pa : Nat) : HartRegion :=
  if pa < dramEnd ∨ (scrBase ≤ pa ∧ pa < scrEnd) then .main
  else if (poolBase ≤ pa ∧ pa < poolEnd) ∨ (homeBase ≤ pa ∧ pa < homeEnd) then .shelf
  else if (hdBase ≤ pa ∧ pa < 0x6030000000) ∨ (0x6080000000 ≤ pa ∧ pa < 0x60A0000000) then .config
  else if inGuest pa then .guest
  else if inPcie pa then .pcie
  else .none

/-- A hart takes a trap. -/
def Tx.hartTrap (t : Tx) (h cause va : Nat) : Tx := (t.onHart h fun x => { x with trap := some (cause, va) }).send "HART" "TRAP" [h, cause, va]

/-- A poisoned access that traps (R437, R468). -/
def Tx.poisonTrap (t : Tx) (h cause va pa : Nat) : Tx :=
  let k := h / 8
  let t := ((t.inc (ACX_UECNT_COUNT k)).set1 (ACX_STAT_UE k)).irq 52
  let t := (t.setWord (ACX_ELOG_LO k) (pa / 64 * 64)).setWord (ACX_ELOG_HI k) (bits pa 47 32 + 3 * 2 ^ 16)
  (t.event "POISON" [k, pa]).hartTrap h cause va

/-- What a hart gets for an access that does not succeed; a held access waits. -/
def Tx.hartFail {α : Type} (t : Tx) (h cause va : Nat) (a : Ans α) : Tx :=
  match a with
  | .poison pa => t.poisonTrap h cause va pa
  | .decode _ => t.hartTrap h cause va
  | _ => t

/-- The Shelf line at `pa` comes into the caches, and its key. -/
def Tx.fill (t : Tx) (h pa : Nat) : Tx × Ans Nat :=
  match t.locate h pa false with
  | .at key =>
    if (t.cached key).isSome then (t, .ok key)
    else if t.poisoned key then (t, .poison pa)
    else ({ t with d := { t.d with cache := t.d.cache ++ [⟨key / 64, t.rdBytes (key / 64 * 64) 64, false⟩] } }, .ok key)
  | .decode => (t, .decode pa)
  | .held => (t, .held)

/-- `n` bytes of main memory read by a hart. -/
def Tx.hartRead (t : Tx) (h pa n : Nat) : Tx × Ans (List Byte) :=
  if regionOf pa ≠ .shelf then (t, t.physRead h pa n)
  else (lineRuns pa n).foldl (fun (t, acc) (a, k) =>
    match acc with
    | .ok bs =>
      match t.fill h a with
      | (t, .ok key) => (t, .ok (bs ++ t.snoopRead h key k))
      | (t, .decode p) => (t, .decode p)
      | (t, .poison p) => (t, .poison p)
      | (t, .held) => (t, .held)
    | e => (t, e)) (t, .ok [])

/-- The bytes of a line after `bs` are put at offset `o`. -/
def patchAt (line : List Byte) (o : Nat) (bs : List Byte) : List Byte := line.take o ++ bs ++ line.drop (o + bs.length)

/-- Bytes within one Shelf line, stored by a hart: the line is filled and becomes dirty; a full line needs no fill; a poisoned line takes
nothing less (R437). -/
def Tx.shelfStore (t : Tx) (h pa : Nat) (bs : List Byte) : Tx × Ans Unit :=
  let put (t : Tx) (key : Nat) : Tx :=
    { t with d := { t.d with cache := t.d.cache.map fun c => if c.line = key / 64 then { c with bytes := patchAt c.bytes (key % 64) bs, dirty := true } else c } }
  match t.locate h pa true with
  | .at key =>
    if bs.length = 64 ∧ (t.cached key).isNone then
      ({ t with d := { t.d with cache := t.d.cache ++ [⟨key / 64, bs, true⟩] } }, .ok ())
    else match t.fill h pa with
      | (t, .ok key) => (put t key, .ok ())
      | (t, .poison _) => (t, .ok ())
      | (t, .decode p) => (t, .decode p)
      | (t, .held) => (t, .held)
  | .decode => (t, .decode pa)
  | .held => (t, .held)

/-- Bytes stored by a hart in main memory. -/
def Tx.hartWrite (t : Tx) (h pa : Nat) (bs : List Byte) : Tx × Ans Unit :=
  if regionOf pa ≠ .shelf then t.physWrite h pa bs
  else (lineRuns pa bs.length).foldl (fun (t, acc) (a, k) =>
    match acc with
    | .ok () => t.shelfStore h a ((bs.drop (a - pa)).take k)
    | e => (t, e)) (t, .ok ())

/-- An atomic operation on words of `n` bits (R440): 0 SWAP, 1 ADD, 2 AND, 3 OR, 4 XOR, 5 MIN, 6 MAX, 7 MINU, 8 MAXU. -/
def amoValue (op n old x : Nat) : Nat :=
  match op with
  | 0 => x
  | 1 => (old + x) % 2 ^ n
  | 2 => old &&& x
  | 3 => old ||| x
  | 4 => old ^^^ x
  | 5 => if sint n x < sint n old then x else old
  | 6 => if sint n old < sint n x then x else old
  | 7 => min old x
  | _ => max old x

/-- A far atomic at its target (R440): the old value, and the word modified. -/
def Tx.atomAt (t : Tx) (mid pa op size x : Nat) : Tx × Ans Nat :=
  match t.locate mid pa true with
  | .at key =>
    let t := t.cacheOut key
    if t.poisoned key then (t, .poison pa)
    else
      let old := t.rdLE key size
      (t.storeRun key (leBytes size (amoValue op (8 * size) old (x % 2 ^ (8 * size)))), .ok old)
  | .decode => (t, .decode pa)
  | .held => (t, .held)

/-- The flag register at `pa` (R438, R464). -/
def isFlag (pa : Nat) : Bool := decide (MBX_FLAG 0 ≤ pa) && decide (pa < MBX_FLAG 64) && pa % 4 == 0

/-- An atomic operation on a flag: 4 bytes only (R440). -/
def Tx.atomFlag (t : Tx) (mid pa op size x : Nat) : Tx × Ans Nat :=
  if size ≠ 4 ∨ !isFlag pa then (t, .decode pa)
  else match t.meets mid pa 4 with
    | .reg _ _ =>
      let old := t.word pa
      (t.setWord pa (amoValue op 32 old (x % 2 ^ 32)), .ok old)
    | .held => (t, .held)
    | _ => (t, .decode pa)

/-- Configuration space answers an access by `mid` at `pa`. -/
def Tx.answersAt (t : Tx) (mid pa : Nat) : Bool :=
  match aplAt pa, fileAt pa, rootAt pa, t.meets mid pa 4 with
  | none, none, none, .decode => false
  | none, none, some _, _ => t.powered domNET
  | none, none, none, _ => true
  | _, _, _, _ => t.powered domFAB

/-- The guest site's window takes an access of a core: allowed, and its connection not lost (R308, R326). -/
def Tx.guestOpen (t : Tx) : Bool := t.is FW_CTL_OUTCORE && t.powered domGS && !(t.lnkState 4 16 == 0 && t.lnkState 4 17 == 0)
/-- An access to the window that is not allowed is logged with WHY 0x6 (R326). -/
def Tx.guestBarred (t : Tx) (h pa : Nat) : Tx := if t.is FW_CTL_OUTCORE then t else t.fwDeny h pa 6

/-- A hart's load or fetch of `n` bytes, its failures trapping with `cause`. -/
def Tx.hartLoad (t : Tx) (h va pa n cause : Nat) : Tx :=
  let data (t : Tx) (vs : List Nat) : Tx := t.send "HART" "DATA" (h :: vs)
  match regionOf pa with
  | .main | .shelf | .pcie =>
    match t.hartRead h pa n with
    | (t, .ok bs) => data t (bs.map (·.toNat))
    | (t, a) => t.hartFail h cause va a
  | .config =>
    match t.cfgRead h pa n with
    | (.ok v, t) => data t ((leBytes n v).map (·.toNat))
    | (a, t) => t.hartFail h cause va a
  | .guest =>
    if t.guestOpen then
      let (v, t) := t.fresh (8 * n)
      data (t.send "GUEST" "READ" [h, pa, n]) ((leBytes n v).map (·.toNat))
    else (t.guestBarred h pa).hartTrap h cause va
  | .none => t.hartTrap h cause va

/-- A hart's store. -/
def Tx.hartStore (t : Tx) (h va pa : Nat) (bs : List Byte) : Tx :=
  match regionOf pa with
  | .main | .shelf | .pcie =>
    match t.hartWrite h pa bs with
    | (t, .ok ()) => t
    | (t, a) => t.hartFail h 7 va a
  | .config =>
    let ok := t.answersAt h pa
    let t := t.cfgWrite h pa bs.length (leNat bs)
    if ok then t else t.hartTrap h 7 va
  | .guest =>
    if t.guestOpen then t.send "GUEST" "WRITE" ([h, pa] ++ bs.map (·.toNat)) else (t.guestBarred h pa).hartTrap h 7 va
  | .none => t.hartTrap h 7 va

/-- A hart's atomic operation on a word of `size` bytes: in L2 on main memory, far on the Shelf and on a flag. -/
def Tx.hartAmo (t : Tx) (h va pa op size x : Nat) : Tx :=
  if pa % size ≠ 0 then t.hartTrap h 6 va
  else
    let r : Tx × Ans Nat := match regionOf pa with
      | .main =>
        match t.physLE h pa size with
        | some old =>
          match t.physWrite h pa (leBytes size (amoValue op (8 * size) old (x % 2 ^ (8 * size)))) with
          | (t, .ok ()) => (t, .ok old)
          | (t, .decode p) => (t, .decode p)
          | (t, .poison p) => (t, .poison p)
          | (t, .held) => (t, .held)
        | none => match t.physRead h pa size with
          | .poison p => (t, .poison p)
          | .held => (t, .held)
          | _ => (t, .decode pa)
      | .shelf => t.atomAt h pa op size x
      | .config => t.atomFlag h pa op size x
      | _ => (t, .decode pa)
    match r with
    | (t, .ok old) => t.send "HART" "DATA" [h, old]
    | (t, a) => t.hartFail h 7 va a

/-- A hart's load-reserved (R438). -/
def Tx.hartLr (t : Tx) (h va pa size : Nat) : Tx :=
  if pa % size ≠ 0 then t.hartTrap h 4 va
  else if regionOf pa ≠ .main then t.hartTrap h 5 va
  else match t.physRead h pa size with
    | .ok bs => (t.onHart h fun x => { x with resv := some (pa / 64) }).send "HART" "DATA" [h, leNat bs]
    | a => t.hartFail h 5 va a

/-- A hart's store-conditional: it stores while its reservation holds the line, and the reservation ends. -/
def Tx.hartSc (t : Tx) (h va pa size x : Nat) : Tx :=
  if pa % size ≠ 0 then t.hartTrap h 6 va
  else if regionOf pa ≠ .main then t.hartTrap h 7 va
  else
    let held := (t.d.harts.at h).resv == some (pa / 64)
    match t.physRead h pa size with
    | .ok _ =>
      let t := t.onHart h fun x => { x with resv := none }
      if held then
        match t.physWrite h pa (leBytes size x) with
        | (t, .ok ()) => t.send "HART" "SC" [h, 0]
        | (t, a) => t.hartFail h 7 va a
      else t.send "HART" "SC" [h, 1]
    | a => t.hartFail h 7 va a

/-- A hart's cache-block operation on the line of `pa` (R437, R439): on the LPDDR5X range and the scratch the caches are coherent with
every agent, so cleaning and invalidating change nothing. -/
def Tx.hartCbo (t : Tx) (h va pa : Nat) (op : HartOp) : Tx :=
  let line := pa / 64 * 64
  match regionOf pa, op with
  | .main, .cboZero | .shelf, .cboZero => t.hartStore h va line (List.replicate 64 0#8)
  | .main, _ => t
  | .shelf, op =>
    match t.locate h line false with
    | .at key =>
      match op with
      | .cboClean =>
        match t.cached key with
        | some c => let t := t.cacheOut key; { t with d := { t.d with cache := t.d.cache ++ [{ c with dirty := false }] } }
        | none => t
      | .cboInval => { t with d := { t.d with cache := t.d.cache.filter fun c => c.line != key / 64 } }
      | _ => t.cacheOut key
    | .decode => t.hartTrap h 7 va
    | .held => t
  | _, _ => t.hartTrap h 7 va

/-- HART_MEMORY_ACCESS (R437 to R440): an access of a hart, at virtual address `va` and the physical address its own translation gave. -/
def execHartMemoryAccess (h : Hart) (op : HartOp) (va : BitVec 64) (pa : Addr) (s : State) : Host.Outcome State Fault Refusal :=
  s.does fun t =>
    let k := h.val
    let p := pa.toNat
    let v := va.toNat
    let size (w : Bool) : Nat := if w then 8 else 4
    if !t.hartOn k || (t.d.harts.at k).halted then t
    else match op with
      | .load n => t.hartLoad k v p n.val 5
      | .fetch n => t.hartLoad k v p n.val 1
      | .store bs => t.hartStore k v p bs
      | .amo f w x => t.hartAmo k v p f.val (size w) x.toNat
      | .lr w => t.hartLr k v p (size w)
      | .sc w x => t.hartSc k v p (size w) x.toNat
      | op => t.hartCbo k v p op

end Sys2Proof.Machine
end

