-- ==== Sys2Proof/Machine/LinkEntries.lean ====
section
/-! DEFINITION.  Entries that a link module's receiver takes (R298 to R303): checks and replay, identities (R322), requests served or sent on
along their route (R25, R308), responses, and link control. -/

namespace Sys2Proof.Machine

/-- The flits that follow an entry (R301). -/
def LEntry.flitCount (x : LEntry) : Nat :=
  match x.typ with
  | 2 | 5 => x.len + 1
  | 3 => x.len + 2
  | 4 | 7 => 1
  | _ => 0

/-- The entry is sound: its CRC, a TYPE that is not reserved, its flits whole (R300, R301). -/
def entryOk (w : Nat) (flits : List Byte) : Bool :=
  let x := LEntry.ofBits w
  bits w 127 112 == entryCrc (w % 2 ^ 112) flits && decide (x.typ ≤ 8) && flits.length == 64 * x.flitCount

/-- The identities of the row "BTn from the hub" of R322. -/
def hubIds (mid : Nat) : Bool :=
  decide (mid < 0x200) || mid == 0x700 || mid == 0x701 || mid == 0x710 || mid == 0x7F0 || (decide (0x800 ≤ mid) && decide (mid < 0x900)) ||
    (decide (0xC00 ≤ mid) && decide (mid < 0xE00))

/-- The die that an address belongs to: a stack for its Shelf and its configuration, else the hub. -/
def Tx.dieOf (t : Tx) (pa : Nat) : Nat :=
  match t.tileOf pa with
  | some n => n
  | none => if cdBase 0 ≤ pa ∧ pa < cdBase 4 then (pa - cdBase 0) / 0x2000000 else 4

/-- Where a requester is: a compute die's stack, the guest site (5), or the hub. -/
def homeOf (mid : Nat) : Nat := if 0xC00 ≤ mid ∧ mid < 0xD00 then 5 else (dieOfMid mid).getD 4

/-- Some route in force of compute die `c` uses the connection from `a` to `b`. -/
def Tx.crosses (t : Tx) (c a b : Nat) : Bool := (List.range 5).any fun x => (edges (t.route c x)).contains (a, b)

/-- The module end accepts a request of `mid` for `pa` (R322). -/
def Tx.midOk (t : Tx) (e k mid pa : Nat) : Bool :=
  let far := lnkFar e k
  if far = 5 then decide (0xC00 ≤ mid) && decide (mid < 0xD00)
  else match dieOfMid mid with
    | some c =>
      !bit t.d.expelled c &&
        (if e = 4 then c == far || (t.lost c 4 && lowNeighbour c == far) else far != 4 && t.crosses c far e)
    | none =>
      hubIds mid && e != 4 &&
        (far == 4 || ((List.range 4).any fun m => t.lost m 4 && t.dieOf pa == m && (edges (t.route 4 m)).contains (far, e)))

/-- The first module of the bundle from end `e` to die `h` (5: the guest site). -/
def bundleTo (e h : Nat) : Nat :=
  if e = 4 then (if h = 5 then 16 else 4 * h) else if h = 4 then 0 else if (e + 1) % 4 = h then 4 else 6

/-- An entry goes on towards die `d`. -/
def Tx.sendOn (t : Tx) (e d : Nat) (x : LEntry) (flits : List Byte) : Tx :=
  let hop := if d = 5 then (if e = 4 then 5 else (t.route e 4).getD 1 4) else (t.route e d).getD 1 d
  t.linkSend e (bundleTo e hop) x flits

/-- A response to a request, on the module's own bundle. -/
def Tx.respond (t : Tx) (e k : Nat) (x : LEntry) (status : Nat) (data : List Byte) : Tx :=
  let ack := x.typ == 2 || x.typ == 3
  let y : LEntry := {
    typ := if ack then 6 else 5, vc := x.vc + 1, rank := x.rank, len := if ack || x.typ == 4 then 0 else x.len, status := status,
    mid := x.mid, tag := x.tag }
  t.linkSend e k y (if ack then [] else data)

/-- The tokens a request costs (R316). -/
def LEntry.tokens (x : LEntry) : Nat := if x.typ = 3 then x.len + 2 else if x.typ = 4 then 1 else x.len + 1

/-- The regulators that a request is charged to here: its source's at its first point, a controller's port where it is served (R311, R315). -/
def Tx.regsOf (t : Tx) (e k : Nat) (x : LEntry) : List (Nat × Nat) :=
  let rt := x.vc == 2
  let cfg := decide (hdBase ≤ x.addr) && decide (x.addr < 0x6040000000)
  let src := if cfg || lnkFar e k != (dieOfMid x.mid).getD 4 then [] else (t.sourceReg x.mid x.addr rt).toList
  let port := if e = 4 ∧ x.addr < dramEnd then
      ((dramLocate (t.rd HD_DMAP_CFG_LOCSZ) x.addr).map fun l => (mcReg (t.server l).1, mcPort x.mid)).toList else []
  src ++ port

/-- The runs of enabled bytes of one flit under its mask. -/
def maskRuns (mask : Nat) : List (Nat × Nat) :=
  (List.range 64).foldl (fun rs i =>
    if !bit mask i then rs
    else match rs.getLast? with
      | some (o, n) => if o + n = i then rs.dropLast ++ [(o, n + 1)] else rs ++ [(i, 1)]
      | none => [(i, 1)]) []

/-- The enabled bytes of a masked write: addresses and bytes. -/
def maskedRuns (pa len : Nat) (flits : List Byte) : List (Nat × List Byte) :=
  (List.range (len + 1)).flatMap fun i =>
    (maskRuns (fld flits (64 * (len + 1) + 8 * i) 8)).map fun (o, n) => (pa + 64 * i + o, (flits.drop (64 * i + o)).take n)

/-- A request served at its target: the answer's STATUS and data, or nothing while it is held. -/
def Tx.serve (t : Tx) (x : LEntry) (flits : List Byte) : Tx × Option (Nat × List Byte) :=
  let cfg := decide (hdBase ≤ x.addr) && decide (x.addr < 0x6040000000) || (decide (0x6080000000 ≤ x.addr) && decide (x.addr < 0x60A0000000))
  let n := 64 * (x.len + 1)
  let none64 := List.replicate n 0#8
  let line := x.addr / 64 * 64
  let bad (t : Tx) (n : Nat) : Tx × Option (Nat × List Byte) := (t, some (1, List.replicate n 0#8))
  let writes (ws : List (Nat × List Byte)) : Tx × Option (Nat × List Byte) :=
    ws.foldl (fun (t, acc) (a, bs) =>
      match acc with
      | some (0, _) =>
        if cfg then (if t.answersAt x.mid a then (t.cfgWrite x.mid a bs.length (leNat bs), acc) else (t.decodeError x.mid a true, some (1, [])))
        else match t.physWrite x.mid a bs with
          | (t, .ok ()) => (t, acc)
          | (t, .held) => (t, none)
          | (t, .poison _) => (t, some (2, []))
          | (t, .decode _) => (t, some (1, []))
      | r => (t, r)) (t, some (0, []))
  match x.typ with
  | 1 =>
    if cfg then
      match t.cfgRead x.mid x.addr 4 with
      | (.ok v, t) => (t, some (0, leBytes n (v * 256 ^ (x.addr % 64))))
      | (.held, t) => (t, none)
      | (_, t) => bad t n
    else match t.physRead x.mid line n with
      | .ok bs => (t, some (0, bs))
      | .held => (t, none)
      | .poison _ =>
        let (v, t) := t.fresh (8 * n)
        (t, some (2, leBytes n v))
      | .decode _ => bad t n
  | 2 => writes [(if cfg then x.addr else line, flits.take n)]
  | 3 => writes (maskedRuns line x.len flits)
  | _ =>
    let size := 2 ^ fld flits 17 1
    let op := fld flits 16 1
    let sound := op ≤ 8 ∧ (size = 4 ∨ size = 8) ∧ x.len = 0 ∧ x.addr % size = 0 ∧ zeros flits 8 8 ∧ zeros flits 18 46
    if !sound then bad t 64
    else
      let r := if cfg then t.atomFlag x.mid x.addr op size (fld flits 0 8)
        else if (t.tileOf x.addr).isSome then t.atomAt x.mid x.addr op size (fld flits 0 8) else (t, .decode x.addr)
      match r with
      | (t, .ok old) => (t, some (0, leBytes 64 old))
      | (t, .held) => (t, none)
      | (t, .poison _) => (t, some (2, none64))
      | (t, .decode _) => bad t 64

/-- A request at its target: charged, served and answered; nothing while it is held. -/
def Tx.atTarget (t : Tx) (e k : Nat) (x : LEntry) (flits : List Byte) (regs : List (Nat × Nat)) : Option Tx :=
  let write := x.typ == 2 || x.typ == 3
  match t.serve x flits with
  | (_, none) => none
  | (t, some (status, data)) =>
    let t := if status = 1 ∨ status = 3 then t else t.each regs fun t (b, i) => (t.charge b i x.tokens write).1
    some (t.respond e k x status data)

/-- A request of the guest site passes the firewall first (R325): refused, held at a ceiling, or passed with its rank clamped. -/
def Tx.fromGuest (t : Tx) (e k : Nat) (x : LEntry) : Option (Tx × Option LEntry) :=
  let write := x.typ != 1
  if lnkFar e k ≠ 5 then some (t, some x)
  else if t.fwFull then none
  else match t.firewall x.mid (x.addr / 64 * 64) (64 * (x.len + 1)) write with
    | .error why => some ((t.fwDeny x.mid x.addr why).respond e k x 3 (List.replicate (64 * (x.len + 1)) 0#8), none)
    | .ok w =>
      some ({ t with d := { t.d with fwUsed := t.d.fwUsed.upd w (· + (x.len + 1)) } }, some { x with rank := min x.rank (t.rd FW_CTL_GRANK), hitch := 0 })

/-- A received entry takes its effect: a request is refused for its identity, sent on, or served; a response reaches its requester or is sent on.
Nothing while its request is held. -/
def Tx.entryEffect (t : Tx) (e k : Nat) (x : LEntry) (flits : List Byte) : Option Tx :=
  if 1 ≤ x.typ ∧ x.typ ≤ 4 then
    if !t.midOk e k x.mid x.addr && lnkFar e k != 5 then
      let t := (t.set1 (LNK_STAT_MIDERR (lnkBase e))).event "MIDERR" [e, k, x.mid]
      some (t.respond e k x 1 (List.replicate (64 * (if x.typ = 4 then 1 else x.len + 1)) 0#8))
    else match t.fromGuest e k x with
      | none => none
      | some (t, none) => some t
      | some (t, some x) =>
        let d := t.dieOf x.addr
        let regs := t.regsOf e k x
        if d = e then t.atTarget e k x flits regs
        else some ((t.each regs fun t (b, i) => (t.charge b i x.tokens (x.typ == 2 || x.typ == 3)).1).sendOn e d x flits)
  else if x.typ = 5 ∨ x.typ = 6 then
    let d := homeOf x.mid
    if d = e then some (t.send "LINK" "ANSWER" ([x.mid, x.tag, x.status] ++ flits.map (·.toNat))) else some (t.sendOn e d x flits)
  else some t

/-- Received slots are freed, and returned in a CREDIT entry (R302). -/
def Tx.freeSlots (t : Tx) (e k vc n : Nat) : Tx :=
  let a := LNK_CRAUD1 (lnkBase e) k
  (t.setWord a (putVc (t.word a) vc (vcByte (t.word a) vc - n))).linkControl e k 2 0 (n % 128 * 2 ^ (7 * vc))

/-- The entries of a module that wait at their target are tried again, oldest first in each virtual channel. -/
def Tx.unstick (t : Tx) (e k : Nat) : Tx :=
  let es := (t.linkOf e k).stuck
  let (t, left) := es.foldl (fun (t, left) bs =>
    let x := LEntry.ofBits (leNat (bs.take 16))
    if left.any fun b : List Byte => (LEntry.ofBits (leNat (b.take 16))).vc == x.vc then (t, left ++ [bs])
    else match t.entryEffect e k x (bs.drop 16) with
      | some t => (t.freeSlots e k x.vc (slotsOf (bs.drop 16)), left)
      | none => (t, left ++ [bs])) (t, ([] : List (List Byte)))
  t.onLink e k fun l => { l with stuck := left }

/-- The end is there and takes entries. -/
def Tx.receives (t : Tx) (e k : Nat) : Bool :=
  decide (k < lnkCount e) && t.powered (lnkDom e) && (t.lnkState e k == 2 || t.lnkState e k == 3)

/-- A sound entry in sequence takes its slots, is acknowledged, and stands last among those that wait for their effect (R302, R303). -/
def Tx.linkAccept (t : Tx) (e k w : Nat) (flits : List Byte) : Tx :=
  let x := LEntry.ofBits w
  let a := LNK_CRAUD1 (lnkBase e) k
  let t := t.setWord a (putVc (t.word a) x.vc (vcByte (t.word a) x.vc + slotsOf flits))
  let t := t.onLink e k fun l => { l with rxSeq := (l.rxSeq + 1) % 1024, stuck := l.stuck ++ [leBytes 16 w ++ flits] }
  t.linkControl e k 0 x.seq 0

/-- The module end takes this entry: it receives, waits for no SYNC, and the entry is sound and next in sequence (R302, R303). -/
def Tx.linkTakes (t : Tx) (e k w : Nat) (flits : List Byte) : Bool :=
  t.receives e k && !(t.linkOf e k).drop && entryOk w flits && (LEntry.ofBits w).seq == (t.linkOf e k).rxSeq

/-- A sound entry of TYPE `typ` in sequence is accepted, and takes its effect (R302, R303). -/
def Tx.takeEntry (t : Tx) (e k typ w : Nat) (flits : List Byte) : Tx :=
  if (LEntry.ofBits w).typ ≠ typ ∨ !t.linkTakes e k w flits then t else (t.linkAccept e k w flits).unstick e k

/-- The row of an entry with a sequence. -/
def entryRow (typ : Nat) (e : Fin 5) (k : Fin 18) (entry : BitVec 128) (flits : List Byte) (s : State) : Host.Outcome State Fault Refusal :=
  s.does fun t => t.takeEntry e k typ entry.toNat flits

def execRd (e : Fin 5) (k : Fin 18) (entry : BitVec 128) (s : State) : Host.Outcome State Fault Refusal := entryRow 1 e k entry [] s
def execWr (e : Fin 5) (k : Fin 18) (entry : BitVec 128) (flits : List Byte) (s : State) : Host.Outcome State Fault Refusal := entryRow 2 e k entry flits s
def execWrm (e : Fin 5) (k : Fin 18) (entry : BitVec 128) (flits : List Byte) (s : State) : Host.Outcome State Fault Refusal := entryRow 3 e k entry flits s
def execAtom (e : Fin 5) (k : Fin 18) (entry : BitVec 128) (flits : List Byte) (s : State) : Host.Outcome State Fault Refusal := entryRow 4 e k entry flits s
def execRsp (e : Fin 5) (k : Fin 18) (entry : BitVec 128) (flits : List Byte) (s : State) : Host.Outcome State Fault Refusal := entryRow 5 e k entry flits s
def execAck (e : Fin 5) (k : Fin 18) (entry : BitVec 128) (s : State) : Host.Outcome State Fault Refusal := entryRow 6 e k entry [] s

/-- CRC_FAILURE (R303, R322): an entry with a bad CRC, a reserved TYPE or a sequence gap, or a response that answers no outstanding request:
NAK names the first entry that lacks, everything is discarded until SYNC, and `lanes` are charged one retry each. -/
def execCrcFailure (e : Fin 5) (k : Fin 18) (entry : BitVec 128) (flits : List Byte) (lanes : List (Fin 18)) (unmatched : Bool) (s : State) :
    Host.Outcome State Fault Refusal :=
  s.does fun t =>
    let x := LEntry.ofBits entry.toNat
    let l := t.linkOf e k
    let bad := !entryOk entry.toNat flits || (x.typ != 8 && x.typ != 0 && x.seq != l.rxSeq) || (unmatched && (x.typ == 5 || x.typ == 6))
    if !t.receives e k || l.drop || !bad then t
    else ((t.linkControl e k 1 l.rxSeq 0).onLink e k fun l => { l with drop := true }).chargeRetries e k lanes

/-! Link control. -/

/-- A link-control entry of the kind `sub`, once sound, does `f`; all but SYNC are discarded while the receiver waits for one. -/
def controlRow (sub : Nat) (e : Fin 5) (k : Fin 18) (entry : BitVec 128) (f : Tx → LEntry → Tx) (s : State) : Host.Outcome State Fault Refusal :=
  s.does fun t =>
    let x := LEntry.ofBits entry.toNat
    if x.typ ≠ 8 ∨ bits x.xf 13 10 ≠ sub ∨ !t.receives e k ∨ !entryOk entry.toNat [] ∨ ((t.linkOf e k).drop ∧ sub ≠ 3) then t else f t x

/-- LCTL_ACK (R301, R303): entries up to the one named leave the replay buffer. -/
def execLctlAck (e : Fin 5) (k : Fin 18) (entry : BitVec 128) (s : State) : Host.Outcome State Fault Refusal :=
  controlRow 0 e k entry (fun t x =>
    match (t.linkOf e k).unacked.findIdx? (fun u => u.1 == x.seq) with
    | some i => (t.onLink e k fun l => { l with unacked := l.unacked.drop (i + 1) }).linkFlush e k
    | none => t) s

/-- The free slots of a receiver, as SYNC carries them (R301). -/
def Tx.freeFields (t : Tx) (e k : Nat) : Nat :=
  (List.range 4).foldl (fun w vc => w + (64 - vcByte (t.word (LNK_CRAUD1 (lnkBase e) k)) vc) * 2 ^ (7 * vc)) 0

/-- Entries before the one a NAK names have arrived: the buffer keeps `rest`, and SYNC and `rest` are sent (R299, R303). -/
def Tx.linkReplay (t : Tx) (e k : Nat) (rest : List (Nat × List Byte)) : Tx :=
  let t := (t.onLink e k fun l => { l with unacked := rest }).inc (LNK_RETRY_COUNT (lnkBase e) k)
  let t := t.linkControl e k 3 0 (t.freeFields e k)
  t.each rest fun t (_, bs) => t.send "LINK" "ENTRY" ([e, k] ++ bs.map (·.toNat))

/-- NAK (R303): the entries from the one named on are sent again; where the next one to send is named, SYNC alone ends the discard. -/
def execNak (e : Fin 5) (k : Fin 18) (entry : BitVec 128) (s : State) : Host.Outcome State Fault Refusal :=
  controlRow 1 e k entry (fun t x =>
    let l := t.linkOf e k
    match l.unacked.findIdx? (fun u => u.1 == x.seq) with
    | some i => t.linkReplay e k (l.unacked.drop i)
    | none => if x.seq = l.txSeq then t.linkReplay e k [] else t) s

/-- CREDIT (R302): freed slots come back. -/
def execCredit (e : Fin 5) (k : Fin 18) (entry : BitVec 128) (s : State) : Host.Outcome State Fault Refusal :=
  controlRow 2 e k entry (fun t x =>
    let a := LNK_CRAUD0 (lnkBase e) k
    let t := t.each (List.range 4) fun t vc =>
      t.setWord a (putVc (t.word a) vc (min 64 (vcByte (t.word a) vc + bits x.addr (7 * vc + 6) (7 * vc))))
    t.linkFlush e k) s

/-- LCTL_SYNC (R299, R302, R303): the free slots of the far receiver, and the end of a discard. -/
def execLctlSync (e : Fin 5) (k : Fin 18) (entry : BitVec 128) (s : State) : Host.Outcome State Fault Refusal :=
  controlRow 3 e k entry (fun t x =>
    let a := LNK_CRAUD0 (lnkBase e) k
    let t := t.each (List.range 4) fun t vc => t.setWord a (putVc (t.word a) vc (min 64 (bits x.addr (7 * vc + 6) (7 * vc))))
    (t.onLink e k fun l => { l with drop := false }).linkFlush e k) s

/-- BUNDLE (R298, R301): the weights that the receiver's rotation takes at the epoch. -/
def execBundle (e : Fin 5) (k : Fin 18) (entry : BitVec 128) (s : State) : Host.Outcome State Fault Refusal :=
  controlRow 4 e k entry (fun t x =>
    let (k0, n) := lnkBundle e k
    t.each (List.range n) fun t i => t.onLink e (k0 + i) fun l => { l with rxWeight := bits x.addr (2 * i + 1) (2 * i) }) s

end Sys2Proof.Machine
end

