-- ==== Sys2Proof/Machine/LogRows.lean ====
section
/-! DEFINITION.  Wear and margin monitors (R549 to R552), the event log (R553 to R555) and the steward's reports (R556). -/

namespace Sys2Proof.Machine

def Tx.onLog (t : Tx) (f : Log → Log) : Tx := { t with d := { t.d with log := f t.d.log } }

/-! Wear. -/

/-- A monitor stands beyond a threshold: one entry when it is crossed and one when it is crossed back (R552; the detail of CODE is
open). -/
def Tx.monitor (t : Tx) (key : Nat) (beyond : Bool) (sev unit value threshold : Nat) : Tx :=
  let was := t.d.wearTold.contains key
  if beyond = was then t
  else
    let (c, t) := t.fresh 8
    let t := { t with d := { t.d with wearTold := if beyond then key :: t.d.wearTold else t.d.wearTold.filter (· != key) } }
    t.logEntry 0 sev (0x300 + c) unit value threshold

/-- The weight of a second at a highest reading, in 1/16 °C (R549). -/
def wearWeight (h : Int) : Nat :=
  if h ≤ 85 * 16 then 234 else if h ≤ 95 * 16 then 432 else if h ≤ 105 * 16 then 774 else if h ≤ 110 * 16 then 1024
  else if h ≤ 115 * 16 then 1346 else if h ≤ 120 * 16 then 1756 else 2932

/-- WIX in permille (R549). -/
def wearIndex (eq : Nat) : Nat := eq * 1000 / (1024 * 3600 * 70000)

/-- The weight of a half-cycle of amplitude `a` in 1/16 K, in 1/32 cycle (R550). -/
def cycleWeight (a : Int) : Nat :=
  if a < 20 * 16 then 0 else if a < 40 * 16 then 16 else if a < 60 * 16 then 36 else if a < 80 * 16 then 64 else if a < 120 * 16 then 144 else 289

/-- The count of cycles in permille of 200,000 (R550). -/
def cycleIndex (c : Nat) : Nat := c / 6400

/-- The mean of a die is taken: a turn of 5 K from the running extreme ends a half-cycle (R550). -/
def Wear.sample (w : Wear) (m : Int) : Wear :=
  let turned (dir : Nat) : Wear := { w with
    cycles := w.cycles + cycleWeight (w.extreme - w.turn).natAbs, turn := w.extreme, extreme := m, dir := dir }
  match w.dir with
  | 0 => { w with turn := m, extreme := m, dir := 3 }
  | 1 => if w.extreme < m then { w with extreme := m } else if m ≤ w.extreme - 80 then turned 2 else w
  | 2 => if m < w.extreme then { w with extreme := m } else if w.extreme + 80 ≤ m then turned 1 else w
  | _ =>
    if w.turn + 80 ≤ m then { w with extreme := m, dir := 1 } else if m ≤ w.turn - 80 then { w with extreme := m, dir := 2 } else w

/-- Steps of an index: each 100 permille a NOTICE, 900 and 1,000 a WARN (R549). -/
def Tx.wearSteps (t : Tx) (x old new : Nat) : Tx :=
  t.each ((List.range 64).map fun k => 100 * (k + 1)) fun t v =>
    if old < v ∧ v ≤ new then
      let (c, t) := t.fresh 8
      let t := t.logEntry 0 1 (0x300 + c) x new v
      if v = 900 ∨ v = 1000 then t.logEntry 0 2 (0x300 + c) x new v else t
    else t

/-- One second of die `x` is counted. -/
def Tx.wearDie (t : Tx) (x : Nat) : Tx :=
  let w := t.d.wear.at x
  match w.peak with
  | none => t
  | some h =>
    let w' := { w with eq := w.eq + wearWeight h, peak := none }.sample (sint 16 (t.rd (THM_DIE_B_MEAN x)))
    let t := { t with d := { t.d with wear := t.d.wear.put x w' } }
    (t.wearSteps x (wearIndex w.eq) (wearIndex w'.eq)).wearSteps x (cycleIndex w.cycles) (cycleIndex w'.cycles)

/-- The rate of unit `u` (compute dies 0 to 3, base tiles 4 to 7) is recorded under the conditions of R551. -/
def Tx.wearRate (t : Tx) (u : Nat) : Tx :=
  let b := if u < 4 then cdRtm u else btRtm (u - 4)
  let v := t.rd (RTM_VRAIL_VRAIL b)
  let m := sint 16 (t.rd (THM_DIE_B_MEAN (u + 1)))
  if t.is (RTM_RATE_VALID b) && decide (745 ≤ v) && decide (v ≤ 755) && decide (80 * 16 ≤ m) && decide (m ≤ 90 * 16) then
    let r := t.rd (RTM_RATE_RATE b)
    let (low, first) := t.d.rateLow.at u
    { t with d := { t.d with rateLow := t.d.rateLow.put u (if low = 0 then r + 1 else min low (r + 1), if first = 0 then r + 1 else first) } }
  else t

/-- The hourly checks (R551, R552): the measured daisy chains, the eyes of the module ends, the hold-up store, the lowest rates; the
accumulators go to the journals, whose layout there is open. -/
def Tx.wearHour (t : Tx) (bumps : List (BitVec 16)) : Tx :=
  let t := t.each (List.range 8) fun t k =>
    match bumps[k]? with
    | none => t
    | some m =>
      let t := t.wr (TST_BUMP_MOHM k) m.toNat
      let r := t.cfgFld (0x20 + 2 * k) 2
      if t.d.sec.cfg.isNone then t
      else (t.monitor (2 * k) (decide (r * 110 ≤ m.toNat * 100)) 1 k m.toNat (r * 110 / 100)).monitor (2 * k + 1) (decide (r * 120 ≤ m.toNat * 100)) 2 k
        m.toNat (r * 120 / 100)
  let t := t.each ((List.range 50).filter fun u => t.lnkState (min (u / 8) 4) (if u < 32 then u % 8 else u - 32) == 2) fun t u =>
    let e := min (u / 8) 4
    let m := t.rd (LNK_EYE_MARGIN (lnkBase e) (if u < 32 then u % 8 else u - 32))
    t.monitor (100 + u) (decide (m ≤ t.rd (LNK_CTL_EYEMIN (lnkBase e)) + 4)) 1 u m (t.rd (LNK_CTL_EYEMIN (lnkBase e)) + 4)
  let cap := t.rd HUP_E_CAP
  let t := (t.monitor 50 (decide (cap < 185)) 1 0 cap 185).monitor 51 (decide (cap < 177)) 2 0 cap 177
  let t := t.each (List.range 8) fun t u =>
    let low := (t.d.rateLow.at u).1
    if low = 0 then t else t.monitor (60 + u) (decide (low - 1 < 1045)) 2 (u + 1) (low - 1) 1045
  let (v, t) := t.fresh 4096
  let low : Tab (Nat × Nat) := t.d.rateLow.map fun e => (e.1, 0, e.2.2)
  ({ t with d := { t.d with rateLow := low, wearJ := t.d.wear } }).batch 2 0x81000 (leBytes 512 v)

/-- The daily checks of corrected lines (R552): a rank-channel beyond 256 is migrated while a spare is free. -/
def Tx.wearDay (t : Tx) : Tx :=
  let ce := t.d.tst.ce
  let t := t.each (List.range 12) fun t g =>
    let n := ce.at g
    (t.monitor (200 + g) (decide (64 ≤ n)) 1 g n 64).monitor (220 + g) (decide (1024 ≤ n)) 2 g n 1024
  let t := t.each (List.range 64) fun t q =>
    let n := ce.at (16 + q)
    let t := t.monitor (300 + q) (decide (256 ≤ n)) 1 q n 256
    if n < 256 then t.monitor (400 + q) false 2 q n 256
    else if t.freeSpare.isSome then t.writeMcmd (1 + 256 * q) else t.monitor (400 + q) true 2 q n 256
  t.onTst fun s => { s with ce := [] }

/-- WEAR_SAMPLE (R549 to R552): at every whole second; at a whole hour with the daisy chains as measured, in mΩ. -/
def execWearSample (bumps : List (BitVec 16)) (s : State) : Host.Outcome State Fault Refusal :=
  s.does fun t =>
    if !t.powered domSTW || t.now % 1000000000 ≠ 0 || t.d.tst.wearAt = t.now + 1 then t
    else
      let t := t.onTst fun s => { s with wearAt := t.now + 1 }
      let t := (t.each (List.range 9) (·.wearDie ·)).each (List.range 8) (·.wearRate ·)
      let t := if t.now % 3600000000000 = 0 then t.wearHour bumps else t
      if t.now % 86400000000000 = 0 then t.wearDay else t

/-! The log. -/

/-- Entries the ring holds (R544). -/
def logRing : Nat := 491520

/-- LOG_FLUSH (R555): 128 entries wait, or the oldest for 1 s; they go to the ring as one batch, in two parts where the ring ends; entries
lost before are then reported. -/
def execLogFlush (s : State) : Host.Outcome State Fault Refusal :=
  s.does fun t =>
    let l := t.d.log
    if !t.powered domSTW || l.buf.isEmpty || (l.buf.length < 128 && decide (t.now < l.since + 1000000000)) then t
    else
      let es := l.buf.take 128
      let a := es.take (logRing - l.head)
      let b := es.drop (logRing - l.head)
      let t := t.batch 3 (0x100000 + 32 * l.head) a.flatten
      let t := if b.isEmpty then t else t.batch 3 0x100000 b.flatten
      let t := t.onLog fun l => { l with
        buf := l.buf.drop 128, head := (l.head + es.length) % logRing, stored := min logRing (l.stored + es.length), since := t.now }
      if l.lost = 0 then t else (t.onLog fun l => { l with lost := 0 }).logEntry 0 2 0x900 0 l.lost 0

/-- The message at the head of a channel of the module configuration is taken by the steward. -/
def Tx.stewardTake (t : Tx) (o : Nat) : Option (Nat × Tx) :=
  match t.d.sec.cfg, t.stewardHead (t.cfgFld o 1) with
  | some _, some (ptr, _) => some (ptr, t.mbxPop steward (t.cfgFld o 1) 1)
  | _, _ => none

/-- LOG_READ (R556): a request on the log channel names a SEQ, a count and a buffer; the entries from that SEQ on that are in the ring are
copied, and the reply gives the first SEQ copied and the count. -/
def execLogRead (seq : Word) (count : BitVec 13) (buffer : Addr) (s : State) : Host.Outcome State Fault Refusal :=
  s.does fun t =>
    let t0 := t
    match t.stewardTake 0x1A with
    | none => t
    | some (_, t) =>
      let l := t.d.log
      let waiting := (t.d.batches ++ t.d.batch.toList).foldl (fun n b => if b.cls = 3 then n + b.bytes.length / 32 else n) 0
      let next := l.seq + 2 ^ 32 - l.buf.length - waiting
      let kept := l.stored - waiting
      let back := min kept ((next + 2 ^ 32 - seq.toNat) % 2 ^ 32)
      let n := min back (min count.toNat 4096)
      let first := (next - back) % 2 ^ 32
      let start := l.head + 2 * logRing - waiting - back
      let bs := (List.range n).flatMap fun i => t.rdBytes (mramBase + 0x100000 + 32 * ((start + i) % logRing)) 32
      match t.physWrite steward buffer.toNat bs with
      | (_, .held) => t0
      | (t, _) => t.send "STEWARD" "LOG_REPLY" [first, n]

/-- SOFTWARE_LOG_ENTRY (R555): a message on the software channel names an entry in LPDDR5X; at most 100 in a second are accepted. -/
def execSoftwareLogEntry (s : State) : Host.Outcome State Fault Refusal :=
  s.does fun t =>
    match t.stewardTake 0x1B with
    | none => t
    | some (ptr, t) =>
      let sec := t.now / 1000000000
      let soft := if t.d.log.second = sec then t.d.log.soft else 0
      match (if ptr + 32 ≤ dramEnd then t.physRead steward ptr 32 else .decode ptr) with
      | .ok e =>
        if 100 ≤ soft || fld e 14 1 != 0x20 then t.onLog fun l => { l with lost := l.lost + 1 }
        else (t.onLog fun l => { l with second := sec, soft := soft + 1 }).logBytes e
      | _ => t.onLog fun l => { l with lost := l.lost + 1 }

/-- The health report (R556). -/
def Tx.healthReport (t : Tx) : List Byte :=
  let l := t.d.log
  let r := t.d.repair
  let overdue := (List.range 8).foldl (fun m k => if t.d.tst.told.any (fun e => e.1 / 64 == k && e.2 != 0) then m + 2 ^ k else m) 0
  let b := leBytes 4 0x484C5431 ++ leBytes 2 l.boot ++ leBytes 2 0 ++ leBytes 8 t.now ++ leBytes 4 (l.seq + 2 ^ 32 - 1) ++ leBytes 1 l.sev ++
    leBytes 3 0 ++ (List.range 9).flatMap (fun x => leBytes 2 (wearIndex (t.d.wear.at x).eq)) ++
    (List.range 9).flatMap (fun x => leBytes 2 (cycleIndex (t.d.wear.at x).cycles)) ++
    (List.range 4).flatMap (fun n => leBytes 4 (r.die.at n)) ++ leBytes 4 r.spbad ++ leBytes 4 r.gexcl ++
    leBytes 4 ((List.range 50).foldl (fun n e => n + popcount 18 (r.bad.at e)) 0) ++ leBytes 4 overdue ++
    leBytes 4 (t.rd HD_DMAP_MSTAT_STATE) ++ leBytes 28 0
  b ++ leBytes 4 (crc32c b)

/-- HEALTH_REPORT (R556): at every whole second, on the port and with the tag of the module configuration. -/
def execHealthReport (s : State) : Host.Outcome State Fault Refusal :=
  s.does fun t =>
    let port := t.cfgFld 0x15 1
    if !t.powered domSTW || t.now % 1000000000 ≠ 0 || t.d.log.health = t.now + 1 || t.d.sec.cfg.isNone || 8 ≤ port then t
    else
      let t := t.send "ETH" "HEALTH" (port :: t.cfgFld 0x16 2 :: 0x88B7 :: t.healthReport.map (·.toNat))
      t.onLog fun l => { l with health := t.now + 1, sev := 0 }

end Sys2Proof.Machine
end

