-- ==== Sys2Proof/Machine/PairRows.lean ====
section
/-! DEFINITION.  The pair at a Cleat: relayed messages (R481), pair time (R482), comparison and disputes (R483 to R486), presence
(R487, R489), module votes (R427, R490), and the planned handover (R492). -/

namespace Sys2Proof.Machine

/-- The body of a relay message of this KIND (R481): its CRC, version and zero bytes hold. -/
def relayBody (msg : List Byte) (kind : Nat) : Option (List Byte) :=
  let n := msg.length - 4
  if msg.length < 12 ∨ 508 < msg.length ∨ crc32c (msg.take n) ≠ fld msg n 4 ∨ fld msg 1 1 ≠ kind ∨ 4 ≤ fld msg 0 1 ∨ fld msg 4 4 ≠ 1 then none
  else some ((msg.take n).drop 8)

/-- The message is whole but of a version that is not accepted (R481). -/
def relayForeign (msg : List Byte) : Bool :=
  let n := msg.length - 4
  decide (12 ≤ msg.length) && crc32c (msg.take n) == fld msg n 4 && decide (fld msg 0 1 < 4) && fld msg 4 1 != 1

/-- A whole message that carries the Cleat's own ORIGIN: the straps of the modules disagree (R596). -/
def relayOwn (c : Nat) (msg : List Byte) : Bool :=
  let n := msg.length - 4
  decide (12 ≤ msg.length) && crc32c (msg.take n) == fld msg n 4 && fld msg 0 1 == origin c

/-- A relayed message reaches Cleat `c`: a partner Cleat that is heard, one that is to be treated as silent, or its
own ORIGIN, which is a link fault (R596). -/
def clRelayed (c : Cleat2) (ct : Nat) (lseq : Word) (msg : List Byte) (kind : Nat) (f : Tx → Nat → List Byte → Tx) (s : State) :
    Host.Outcome State Fault Refusal :=
  clFrame c ct lseq.toNat (fun t =>
    let x := t.cl c
    let o := fld msg 0 1
    if relayOwn c msg then t.clLinkFault c false
    else if x.st = .boot then t
    else match relayBody msg kind with
      | some b =>
        let t := if o / 2 = 1 - modid then
            t.onPair c fun p => { p with partner := p.partner.upd (o % 2) fun q => { q with relay := x.ct + 1, pver := 1 } }
          else t
        f t o b
      | none =>
        if relayForeign msg && o / 2 == 1 - modid then
          t.onPair c fun p =>
            let p := if (p.partner.at (o % 2)).pver == fld msg 4 1 then p else p.unsync
            { p with partner := p.partner.upd (o % 2) fun q => { q with relay := 0, pver := fld msg 4 1 } }
        else t) s

/-! Module votes (R427, R490). -/

/-- RELAYED_VOTE (R427): a die vote of another Cleat is never evidence (R426). -/
def execRelayedVote (c : Cleat2) (ct : Nat) (lseq : Word) (msg : List Byte) (s : State) : Host.Outcome State Fault Refusal :=
  clRelayed c ct lseq msg 1 (fun t o b =>
    if b.length = 8 ∧ fld b 0 1 = 1 ∧ fld b 1 1 < 2 ∧ fld b 2 1 = 1 then
      (t.onPair c fun q => { q with mvotes := q.mvotes.upd (fld b 1 1) fun v => v ||| 2 ^ o }).clModuleVotes c
    else t) s

/-! Pair time (R482). -/

/-- TIME_EXCHANGE: the Cleat asks the partner Cleat of its letter. -/
def execTimeExchange (c : Cleat2) (ct : Nat) (s : State) : Host.Outcome State Fault Refusal :=
  clDoes c ct (fun t =>
    let x := t.cl c
    if x.st = .boot then t
    else (t.onPair c fun p => { p with t1 := some x.est }).clRelay c 2 [2 * (1 - modid) + c.val] (leBytes 8 (scode 64 x.est))) s

/-- TIMEREQ: the answer carries t1, and est at arrival and at reply. -/
def execTimereq (c : Cleat2) (ct : Nat) (lseq : Word) (msg : List Byte) (s : State) : Host.Outcome State Fault Refusal :=
  clRelayed c ct lseq msg 2 (fun t o b =>
    let e := leBytes 8 (scode 64 (t.cl c).est)
    if b.length = 8 then t.clRelay c 3 [o] (b ++ e ++ e ++ leBytes 1 o) else t) s

/-- TIMERSP: an exchange of at most 1 ms bounds θ. -/
def execTimersp (c : Cleat2) (ct : Nat) (lseq : Word) (msg : List Byte) (s : State) : Host.Outcome State Fault Refusal :=
  clRelayed c ct lseq msg 3 (fun t o b =>
    let x := t.cl c
    let v (k : Nat) : Int := sint 64 (fld b (8 * k) 8)
    let t4 := x.est
    if b.length = 25 ∧ fld b 24 1 = origin c ∧ o = 2 * (1 - modid) + c.val ∧ x.pair.t1 = some (v 0) ∧ (t4 - v 0) - (v 2 - v 1) ≤ 1000000 then
      t.onPair c fun p => { p with t1 := none, theta := some (v 2 - t4 - 8000, v 1 - v 0 + 8000, x.ct) }
    else t) s

/-- PAIR_TIME_STALE: no exchange accepted for 100 ms; a follower has a fault. -/
def execPairTimeStale (c : Cleat2) (ct : Nat) (s : State) : Host.Outcome State Fault Refusal :=
  clDoes c ct (fun t =>
    let x := t.cl c
    let last := match x.pair.theta with
      | some (_, _, k) => k
      | none => 0
    if x.pair.view = .follower ∧ last + 100000000 ≤ x.ct then t.clFault c 0x50 else t) s

/-! Presence (R481, R487, R491). -/

/-- The view a Cleat takes when it hears of the partner's state (R479, R491; log entry 71). -/
def Cleat.joinView (x : Cleat) (p : Partner) : View :=
  let v := x.pair.view
  let eng := x.st == .engaged
  if p.state = 5 ∨ p.state = 0 ∨ x.st = .expelled ∨ 3 ≤ popcount 4 (x.pair.mvotes.at (1 - modid)) then v
  else if !eng ∧ p.state = 3 ∧ !p.aside then .follower
  else if v ≠ .solo ∨ p.aside then v
  else if eng then (if p.state = 2 ∨ (p.state = 3 ∧ p.view = modid) then .source else v)
  else if p.state = 2 then (if modid = 0 then .source else .follower)
  else v

/-- STATE (R481): what another Cleat reports. -/
def execState (c : Cleat2) (ct : Nat) (lseq : Word) (msg : List Byte) (s : State) : Host.Outcome State Fault Refusal :=
  clRelayed c ct lseq msg 4 (fun t o b =>
    let x := t.cl c
    if b.length ≠ 8 then t
    else
      let aside := bit (fld b 2 1) 0
      let take (q : Partner) : Partner := { q with
        state := fld b 0 1, view := fld b 1 1, aside := aside, synced := bit (fld b 2 1) 1, reason := fld b 3 1 }
      let was := if o / 2 = modid then x.pair.sib.aside else (x.pair.partner.at (o % 2)).aside
      let t := if o / 2 = modid then t.onPair c fun p => { p with sib := take p.sib }
        else t.onPair c fun p => { p with partner := p.partner.upd (o % 2) take }
      let t := if aside && !was then t.clAsideReport c (o / 2) else t
      if o / 2 = modid then t
      else
        let y := t.cl c
        let t := t.clView c (y.joinView (y.pair.partner.at (o % 2)))
        let t := t.onPair c fun p => { p with drove := p.drove || (fld b 0 1 == 3 && !aside) }
        t.clJudge c) s

/-- STATE_SEND (R481): at least every 10 ms. -/
def execStateSend (c : Cleat2) (ct : Nat) (s : State) : Host.Outcome State Fault Refusal :=
  clDoes c ct (fun t => if (t.cl c).st = .boot then t else t.clState c) s

/-- PARTNER_SILENT (R487). -/
def execPartnerSilent (c : Cleat2) (ct : Nat) (s : State) : Host.Outcome State Fault Refusal :=
  clDoes c ct (fun t => t.clJudge c) s

/-! Records and digests (R480, R484 to R486). -/

/-- PARTNER_RECORD (R479, R480). -/
def execPartnerRecord (c : Cleat2) (ct : Nat) (lseq : Word) (bytes : List Byte) (s : State) : Host.Outcome State Fault Refusal :=
  clFrame c ct lseq.toNat (fun t =>
    if bytes.length ≠ 1152 then t.clLinkFault c false
    else if (t.cl c).st = .boot then t
    else
      let t := t.clSwap c (fld bytes 0x2C 4)
      let t := if (t.cl c).pair.view = .follower then t.clCheck c (1 - modid) bytes else t
      t.clCompare c (1 - modid) bytes) s

/-- Unmatched records are counted; three in a row are a fault (R484, R485). -/
def Tx.clUnmatched (t : Tx) (c n : Nat) : Tx :=
  let t := t.onPair c fun p => { p with unmatched := p.unmatched + n, equalRun := if n = 0 then p.equalRun else 0 }
  if 3 ≤ (t.cl c).pair.unmatched ∧ n ≠ 0 then (t.onPair c fun p => { p with unmatched := 0 }).clFault c 0x52 else t

/-- How a dispute stands (R486): resolved against a die of a module, or not; none while it is open. -/
def Dispute.outcome (d : Dispute) (over_ : Bool) : Option (Option (Nat × Nat)) :=
  match d.a1, d.b1 with
  | some a1, some b1 =>
    let a0 := d.a0.hash
    let b0 := d.b0.hash
    if a1.hash = b0 ∧ b1.hash = b0 ∧ b0 ≠ a0 then some (some (0, d.a0.die))
    else if b1.hash = a0 ∧ a1.hash = a0 ∧ a0 ≠ b0 then some (some (1, d.b0.die))
    else some none
  | _, _ => if over_ then some none else none

/-- A dispute closes with an outcome. -/
def Tx.clResolve (t : Tx) (c : Nat) (out : Option (Nat × Nat)) : Tx :=
  match out with
  | none => t.clFault c 0x51
  | some (m, die) =>
    let x := t.cl c
    let t := t.onPair c fun p => { p with
      mism := [], resolved := (x.ct, m) :: p.resolved.filter fun e => decide (x.ct < e.1 + 10000000000) }
    let t := if m = modid ∧ die < 4 then t.clEvidence c die 0x51 3 else t.clEvent c 1 0x51 die m
    if 2 ≤ ((t.cl c).pair.resolved.filter fun e => e.2 == m).length then t.clModuleVote c m 0x51 else t

/-- Every dispute that can close does. -/
def Tx.clDisputes (t : Tx) (c : Nat) : Tx :=
  let x := t.cl c
  let out (d : Dispute) := d.outcome (decide (d.close ≤ x.ct))
  let t := t.onPair c fun p => { p with disputes := p.disputes.filter fun d => (out d).isNone }
  t.each (x.pair.disputes.filterMap out) fun t o => t.clResolve c o

/-- DIGEST_RECORD (R485, R486): the hub that forwards the record has carried it. -/
def execDigestRecord (c : Cleat2) (ct : Nat) (lseq : Word) (bytes : List Byte) (s : State) : Host.Outcome State Fault Refusal :=
  clFrame c ct lseq.toNat (fun t =>
    let t := t.when (t.powered domFAB) (·.hubCarries bytes)
    let x := t.cl c
    let f := fld bytes
    let d : Dig := ⟨f 4 1, f 5 1, f 6 1, f 8 4, bit (f 7 1) 0, (bytes.drop 0x28).take 32, f 0x10 8⟩
    if bytes.length ≠ 80 then t.clLinkFault c false
    else if x.st = .boot ∨ !x.paired ∨ f 0 4 ≠ 0x44475331 ∨ crc32c (bytes.take 0x4C) ≠ f 0x4C 4 ∨ 2 ≤ d.modid ∨ 8 ≤ d.cls ∨
        (x.age d.cls : Int) < x.est - (d.told : Nat) + x.conv.age + 4000 then t
    else if bit (f 7 1) 2 then t.clUnmatched c 1
    else if d.replay then
      (t.onPair c fun p => { p with disputes := p.disputes.map fun q =>
        if q.cls ≠ d.cls ∨ q.key ≠ d.key then q
        else if d.modid = 0 ∧ d.die ≠ q.a0.die ∧ q.a1.isNone then { q with a1 := some d }
        else if d.modid = 1 ∧ d.die ≠ q.b0.die ∧ q.b1.isNone then { q with b1 := some d }
        else q }).clDisputes c
    else match x.pair.digs.find? fun e => e.1.cls == d.cls && e.1.key == d.key && e.1.modid != d.modid with
      | none =>
        let due := ((x.ct : Int) + (x.age d.cls : Nat) - (x.est - (d.told : Nat))).toNat
        t.onPair c fun p => { p with digs := p.digs ++ [(d, due)] }
      | some (o, _) =>
        let t := t.onPair c fun p => { p with digs := p.digs.filter (fun e => !(e.1 == o)), unmatched := 0 }
        if o.hash = d.hash then t
        else if 8 ≤ x.pair.disputes.length then t.clResolve c none
        else
          let (a, b) := if d.modid = 0 then (d, o) else (o, d)
          t.onPair c fun p => { p with
            disputes := p.disputes ++ [{ cls := d.cls, key := d.key, a0 := a, b0 := b, close := x.ct + 200000000 }] }) s

/-- DISPUTE_CLOSE (R486): 200 ms have passed. -/
def execDisputeClose (c : Cleat2) (ct : Nat) (s : State) : Host.Outcome State Fault Refusal :=
  clDoes c ct (fun t => t.clDisputes c) s

/-- RECORD_UNMATCHED (R484): records whose time has passed without a counterpart. -/
def execRecordUnmatched (c : Cleat2) (ct : Nat) (s : State) : Host.Outcome State Fault Refusal :=
  clDoes c ct (fun t =>
    let x := t.cl c
    let goneR := x.pair.recs.filter fun e => decide (e.2.2.2 ≤ x.ct)
    let goneD := x.pair.digs.filter fun e => decide (e.2 ≤ x.ct)
    let t := t.onPair c fun p => { p with
      recs := p.recs.filter (fun e => decide (x.ct < e.2.2.2)), digs := p.digs.filter fun e => decide (x.ct < e.2) }
    t.clUnmatched c (goneR.length + goneD.length)) s

/-! Handover and standing aside on request (R492). -/

/-- Both partner Cleats report STATE 3. -/
def Cleat.partnersDrive (x : Cleat) : Bool := [0, 1].all fun k => (x.pair.partner.at k).state == 3

/-- Acknowledgements of a key are counted; four swap the view at that key. -/
def Tx.clAck (t : Tx) (c key o : Nat) : Tx :=
  let x := t.cl c
  let (at_, mask) := match x.pair.hand with
    | some (k, at_, m) => if k = key then (at_, m) else (x.ct, 0)
    | none => (x.ct, 0)
  let mask := mask ||| 2 ^ o
  if mask = 15 then t.onPair c fun p => { p with hand := none, swap := some key }
  else t.onPair c fun p => { p with hand := some (key, at_, mask) }

/-- HANDREQ (R492). -/
def execHandreq (c : Cleat2) (ct : Nat) (lseq key : Word) (s : State) : Host.Outcome State Fault Refusal :=
  clFrame c ct lseq.toNat (fun t =>
    let x := t.cl c
    let body := leBytes 4 key.toNat
    if x.st = .boot then t
    else if x.paired ∧ x.pair.synced ∧ x.pair.disputes.isEmpty ∧ x.st = .engaged ∧ x.pair.sib.state = 3 ∧ x.partnersDrive ∧
        x.pair.maxPlan + 1 ≤ key.toNat then
      (t.clRelay c 5 (otherOrigins c) body).clAck c key.toNat (origin c)
    else (t.clRelay c 6 (otherOrigins c) body).onPair c fun p => { p with hand := none }) s

/-- HANDACK (R492). -/
def execHandack (c : Cleat2) (ct : Nat) (lseq : Word) (msg : List Byte) (s : State) : Host.Outcome State Fault Refusal :=
  clRelayed c ct lseq msg 5 (fun t o b => if b.length = 4 then t.clAck c (fld b 0 4) o else t) s

/-- HANDNAK (R492): the request is dropped. -/
def execHandnak (c : Cleat2) (ct : Nat) (lseq : Word) (msg : List Byte) (s : State) : Host.Outcome State Fault Refusal :=
  clRelayed c ct lseq msg 6 (fun t _ b =>
    match (t.cl c).pair.hand with
    | some (k, _, _) => if b.length = 4 ∧ k = fld b 0 4 then t.onPair c fun p => { p with hand := none } else t
    | none => t) s

/-- HANDOVER_TIMEOUT (R492): 100 ms without four acknowledgements. -/
def execHandoverTimeout (c : Cleat2) (ct : Nat) (s : State) : Host.Outcome State Fault Refusal :=
  clDoes c ct (fun t =>
    match (t.cl c).pair.hand with
    | some (_, at_, _) => if at_ + 100000000 ≤ (t.cl c).ct then t.onPair c fun p => { p with hand := none } else t
    | none => t) s

/-- ASIDEREQ (R492). -/
def execAsidereq (c : Cleat2) (ct : Nat) (lseq : Word) (s : State) : Host.Outcome State Fault Refusal :=
  clFrame c ct lseq.toNat (fun t =>
    let x := t.cl c
    let may := x.pair.view == .follower || (x.pair.view == .source && x.partnersDrive && [0, 1].all fun k => (x.pair.partner.at k).synced)
    if x.st = .engaged ∧ may then t.clAside c 0 else t) s

end Sys2Proof.Machine
end

