-- ==== Sys2Proof/Machine/TimeBase.lean ====
section
/-! DEFINITION.  The time base and gPTP (R8, R9, R333 to R335). -/

namespace Sys2Proof.Machine

/-- A change of the gPTP state. -/
def Tx.onPtp (t : Tx) (f : Ptp → Ptp) : Tx := { t with d := { t.d with ptp := f t.d.ptp } }

/-- gPTP runs, and on this port (R334). -/
def Tx.ptpOn (t : Tx) (port : Nat) : Bool := t.is TB_CTL_PTPEN && t.rd TB_CTL_PTPPORT == port && t.is (ETH_PSTAT_CFG port)

/-- The stamp of an Ethernet frame that arrives now on a port (R332, R333). -/
def Tx.ethStamp (t : Tx) (port : Nat) : Nat := t.now - t.rd (ING_ETHLAT_LAT port)

/-- OFFSET and RATE take the values of the differences seen; RATE within ±100 ppm (R9, R335). -/
def Tx.publishOffset (t : Tx) : Tx :=
  let h := t.d.ptp.hist
  (t.setPair TB_OFS_LO (scode 64 (Config.offsetFilter h))).setWord TB_RATE
    (scode 32 (clampI (-100000) 100000 (Config.rateAdjust h)))

/-- A valid Sync, with its stamp and the gPTP time there (R335): lock after eight residuals of at most 500 ns in
a row, loss at one above 10 µs; in holdover OFFSET and the rate stand, and at relock OFFSET is rewritten in
one step. -/
def Tx.syncValid (t : Tx) (stamp : Nat) (gptp : Int) : Tx :=
  let diff := gptp - stamp
  let t := t.onPtp fun p => { p with hist := (diff :: p.hist).take 8, last := t.now }
  let res := (diff - Config.offsetFilter t.d.ptp.hist).natAbs
  let t := t.onPtp fun p => { p with good := if res ≤ 500 then p.good + 1 else 0 }
  if t.is TB_STAT_LOCKED then
    if 10000 < res then
      ((t.wr TB_STAT_LOCKED 0).set1 TB_STAT_LOCKLOST).irq 33 |>.onPtp fun p => { p with frozen := true, good := 0 }
    else t.publishOffset
  else if 8 ≤ t.d.ptp.good then
    let relock := t.d.ptp.frozen
    let t := ((t.wr TB_STAT_LOCKED 1).set1 TB_STAT_LOCKGAIN).publishOffset.irq 33
    (t.onPtp fun p => { p with frozen := false }).when relock (·.set1 TB_STAT_OFSTEP)
  else if t.d.ptp.frozen then t
  else t.publishOffset

/-- SYNC (R334, R335): a two-step Sync on PTPPORT is stamped and waits for its Follow_Up; one-step Sync is not
supported. -/
def execSync (port : EthPort) (twoStep : Bool) (seq : BitVec 16) (_origin : Nat) (_correction : Int) (s : State) :
    Host.Outcome State Fault Refusal :=
  s.does fun t => t.when (t.ptpOn port && twoStep) fun t =>
    t.onPtp fun p => { p with sync := some (seq.toNat, t.ethStamp port) }

/-- FOLLOW_UP (R334): the precise origin time of the Sync that waits, in ns, with its correction and the link
delay, is the gPTP time of its stamp. -/
def execFollowUp (port : EthPort) (seq : BitVec 16) (origin : Nat) (correction : Int) (s : State) :
    Host.Outcome State Fault Refusal :=
  s.does fun t =>
    match t.d.ptp.sync with
    | some (q, stamp) =>
      if t.ptpOn port ∧ q = seq.toNat then
        (t.onPtp fun p => { p with sync := none }).syncValid stamp (origin + correction + t.d.ptp.delay)
      else t
    | none => t

/-- ANNOUNCE (R334): the best priority announced names the grandmaster; the module, at 255, never is. -/
def execAnnounce (port : EthPort) (priority : Nat) (s : State) : Host.Outcome State Fault Refusal :=
  s.does fun t => t.when (t.ptpOn port) fun t =>
    t.onPtp fun p => { p with gm := some (min priority (p.gm.getD priority)) }

/-- PDELAY_REQ (R334): answered with the request's stamp, and then with the response's own. -/
def execPdelayReq (port : EthPort) (seq : BitVec 16) (s : State) : Host.Outcome State Fault Refusal :=
  s.does fun t => t.when (t.ptpOn port) fun t =>
    let (sent, t) := t.fresh 64
    (t.send "ETH" "PDELAY_RESP" [port, seq.toNat, t.ethStamp port]).send "ETH" "PDELAY_RESP_FOLLOW_UP" [port, seq.toNat, sent]

/-- PDELAY_RESP (R334): the time the peer received the request, and the response's stamp; when the request left
is open. -/
def execPdelayResp (port : EthPort) (seq : BitVec 16) (received : Nat) (s : State) : Host.Outcome State Fault Refusal :=
  s.does fun t => t.when (t.ptpOn port) fun t =>
    let (sent, t) := t.fresh 64
    t.onPtp fun p => { p with pdelay := some (seq.toNat, sent, received, t.ethStamp port) }

/-- PDELAY_RESP_FOLLOW_UP (R334): the time the peer sent its response completes the link delay: half of the
round trip less the peer's turnaround. -/
def execPdelayRespFollowUp (port : EthPort) (seq : BitVec 16) (sent : Nat) (s : State) : Host.Outcome State Fault Refusal :=
  s.does fun t =>
    match t.d.ptp.pdelay with
    | some (q, t1, t2, t4) =>
      if t.ptpOn port ∧ q = seq.toNat then
        t.onPtp fun p => { p with pdelay := none, delay := (((t4 : Int) - t1) - ((sent : Int) - t2)) / 2 }
      else t
    | none => t

/-- SYNC_TIMEOUT (R335): without a valid Sync for SYNCTO ms (0 acts as 1) lock is lost and holdover begins. -/
def execSyncTimeout (s : State) : Host.Outcome State Fault Refusal :=
  s.does fun t =>
    t.when (t.is TB_STAT_LOCKED && decide (t.d.ptp.last + max 1 (t.rd TB_SYNCTO_SYNCTO) * 1000000 ≤ t.now)) fun t =>
      (((t.wr TB_STAT_LOCKED 0).set1 TB_STAT_LOCKLOST).irq 33).onPtp fun p => { p with frozen := true, good := 0 }

end Sys2Proof.Machine
end

