-- ==== Sys2Proof/Machine/Dispatch.lean ====
section
/-! DEFINITION.  The dispatch: one arm per command of the table, one direct call of its meaning. -/

namespace Sys2Proof.Machine

def exec (i : Instr) (s : State) : Host.Outcome State Fault Refusal :=
  match i with
  | .registerWrite mid a size value => Sys2Proof.Machine.execRegisterWrite mid a size value s
  | .snap mid a => Sys2Proof.Machine.execSnap mid a s
  | .lockSet mid lock value => Sys2Proof.Machine.execLockSet mid lock value s
  | .sync port twoStep seq origin correction => Sys2Proof.Machine.execSync port twoStep seq origin correction s
  | .followUp port seq origin correction => Sys2Proof.Machine.execFollowUp port seq origin correction s
  | .announce port priority => Sys2Proof.Machine.execAnnounce port priority s
  | .pdelayReq port seq => Sys2Proof.Machine.execPdelayReq port seq s
  | .pdelayResp port seq received => Sys2Proof.Machine.execPdelayResp port seq received s
  | .pdelayRespFollowUp port seq sent => Sys2Proof.Machine.execPdelayRespFollowUp port seq sent s
  | .schDoorbell mid d r value => Sys2Proof.Machine.execSchDoorbell mid d r value s
  | .ringFetch d c => Sys2Proof.Machine.execRingFetch d c s
  | .gateMet d c => Sys2Proof.Machine.execGateMet d c s
  | .stepDecode d c => Sys2Proof.Machine.execStepDecode d c s
  | .matmul d c step residue => Sys2Proof.Machine.execMatmul d c step residue s
  | .conv d c step residue => Sys2Proof.Machine.execConv d c step residue s
  | .wmatmul d c step => Sys2Proof.Machine.execWmatmul d c step s
  | .wconv d c step => Sys2Proof.Machine.execWconv d c step s
  | .sfwd d c step => Sys2Proof.Machine.execSfwd d c step s
  | .swxf d c step => Sys2Proof.Machine.execSwxf d c step s
  | .smac d c step => Sys2Proof.Machine.execSmac d c step s
  | .sinv d c step => Sys2Proof.Machine.execSinv d c step s
  | .cvt d c step => Sys2Proof.Machine.execCvt d c step s
  | .add d c step => Sys2Proof.Machine.execAdd d c step s
  | .sub d c step => Sys2Proof.Machine.execSub d c step s
  | .mul d c step => Sys2Proof.Machine.execMul d c step s
  | .max d c step => Sys2Proof.Machine.execMax d c step s
  | .min d c step => Sys2Proof.Machine.execMin d c step s
  | .affine d c step => Sys2Proof.Machine.execAffine d c step s
  | .clamp d c step => Sys2Proof.Machine.execClamp d c step s
  | .relu d c step => Sys2Proof.Machine.execRelu d c step s
  | .exp d c step => Sys2Proof.Machine.execExp d c step s
  | .recip d c step => Sys2Proof.Machine.execRecip d c step s
  | .sqrt d c step => Sys2Proof.Machine.execSqrt d c step s
  | .rsqrt d c step => Sys2Proof.Machine.execRsqrt d c step s
  | .sigmoid d c step => Sys2Proof.Machine.execSigmoid d c step s
  | .silu d c step => Sys2Proof.Machine.execSilu d c step s
  | .tanh d c step => Sys2Proof.Machine.execTanh d c step s
  | .rsum d c step => Sys2Proof.Machine.execRsum d c step s
  | .rmean d c step => Sys2Proof.Machine.execRmean d c step s
  | .rmax d c step => Sys2Proof.Machine.execRmax d c step s
  | .rmin d c step => Sys2Proof.Machine.execRmin d c step s
  | .softmax d c step => Sys2Proof.Machine.execSoftmax d c step s
  | .layernorm d c step => Sys2Proof.Machine.execLayernorm d c step s
  | .rmsnorm d c step => Sys2Proof.Machine.execRmsnorm d c step s
  | .poolmax d c step => Sys2Proof.Machine.execPoolmax d c step s
  | .poolavg d c step => Sys2Proof.Machine.execPoolavg d c step s
  | .gather d c step => Sys2Proof.Machine.execGather d c step s
  | .scatter d c step => Sys2Proof.Machine.execScatter d c step s
  | .fill d c step => Sys2Proof.Machine.execFill d c step s
  | .load d c step => Sys2Proof.Machine.execLoad d c step s
  | .store d c step => Sys2Proof.Machine.execStore d c step s
  | .signal d c step => Sys2Proof.Machine.execSignal d c step s
  | .wait d c step => Sys2Proof.Machine.execWait d c step s
  | .waitComplete d c step => Sys2Proof.Machine.execWaitComplete d c step s
  | .stepCommit d c step => Sys2Proof.Machine.execStepCommit d c step s
  | .restartRecordWrite d c => Sys2Proof.Machine.execRestartRecordWrite d c s
  | .ctxSuspend mid d c => Sys2Proof.Machine.execCtxSuspend mid d c s
  | .ctxSave mid d c => Sys2Proof.Machine.execCtxSave mid d c s
  | .ctxRelease mid d c => Sys2Proof.Machine.execCtxRelease mid d c s
  | .ctxResume mid d c => Sys2Proof.Machine.execCtxResume mid d c s
  | .ctxAbort mid d c => Sys2Proof.Machine.execCtxAbort mid d c s
  | .ctxConfirm mid d c => Sys2Proof.Machine.execCtxConfirm mid d c s
  | .evtinc mid d value => Sys2Proof.Machine.execEvtinc mid d value s
  | .eventIncrement d k => Sys2Proof.Machine.execEventIncrement d k s
  | .interruptLevel source level => Sys2Proof.Machine.execInterruptLevel source level s
  | .rtfenceWrite mid d value => Sys2Proof.Machine.execRtfenceWrite mid d value s
  | .rtfenceSet d => Sys2Proof.Machine.execRtfenceSet d s
  | .qfenceWrite mid d value => Sys2Proof.Machine.execQfenceWrite mid d value s
  | .qoffWrite mid d value => Sys2Proof.Machine.execQoffWrite mid d value s
  | .pairoffWrite mid d value => Sys2Proof.Machine.execPairoffWrite mid d value s
  | .holdWrite mid d value => Sys2Proof.Machine.execHoldWrite mid d value s
  | .join mid d e => Sys2Proof.Machine.execJoin mid d e s
  | .leave mid d e => Sys2Proof.Machine.execLeave mid d e s
  | .fresh mid d e => Sys2Proof.Machine.execFresh mid d e s
  | .adopt mid d e => Sys2Proof.Machine.execAdopt mid d e s
  | .seqConfirm mid d => Sys2Proof.Machine.execSeqConfirm mid d s
  | .take mid d => Sys2Proof.Machine.execTake mid d s
  | .give mid d => Sys2Proof.Machine.execGive mid d s
  | .kick mid d value => Sys2Proof.Machine.execKick mid d value s
  | .takeover d => Sys2Proof.Machine.execTakeover d s
  | .builderTick d => Sys2Proof.Machine.execBuilderTick d s
  | .energyTick energies => Sys2Proof.Machine.execEnergyTick energies s
  | .shelfInitDone n g => Sys2Proof.Machine.execShelfInitDone n g s
  | .shelfScrub n g line found => Sys2Proof.Machine.execShelfScrub n g line found s
  | .scrwaysWrite mid value => Sys2Proof.Machine.execScrwaysWrite mid value s
  | .xltCtlWrite mid u value => Sys2Proof.Machine.execXltCtlWrite mid u value s
  | .invDevctx mid u ctx bcast => Sys2Proof.Machine.execInvDevctx mid u ctx bcast s
  | .invTranslations mid u ctx bcast => Sys2Proof.Machine.execInvTranslations mid u ctx bcast s
  | .invAddress mid u ctx bcast => Sys2Proof.Machine.execInvAddress mid u ctx bcast s
  | .invAll mid u bcast => Sys2Proof.Machine.execInvAll mid u bcast s
  | .invAllLocked mid u bcast => Sys2Proof.Machine.execInvAllLocked mid u bcast s
  | .invDone u => Sys2Proof.Machine.execInvDone u s
  | .xltLock mid u ctx => Sys2Proof.Machine.execXltLock mid u ctx s
  | .xltUnlock mid u ctx => Sys2Proof.Machine.execXltUnlock mid u ctx s
  | .lockWalkDone u => Sys2Proof.Machine.execLockWalkDone u s
  | .dmaDoorbell mid c value => Sys2Proof.Machine.execDmaDoorbell mid c value s
  | .dmaDescriptor c => Sys2Proof.Machine.execDmaDescriptor c s
  | .dmaCompletion c => Sys2Proof.Machine.execDmaCompletion c s
  | .dmaResume mid c => Sys2Proof.Machine.execDmaResume mid c s
  | .dmaAbort mid c => Sys2Proof.Machine.execDmaAbort mid c s
  | .controllerIssue m arrivals found => Sys2Proof.Machine.execControllerIssue m arrivals found s
  | .correctedWriteback m found => Sys2Proof.Machine.execCorrectedWriteback m found s
  | .poisonWriteback m found => Sys2Proof.Machine.execPoisonWriteback m found s
  | .pageIdleClose m k bank => Sys2Proof.Machine.execPageIdleClose m k bank s
  | .refreshDebtTick m k => Sys2Proof.Machine.execRefreshDebtTick m k s
  | .refpb m k => Sys2Proof.Machine.execRefpb m k s
  | .refab m k => Sys2Proof.Machine.execRefab m k s
  | .mr4Read m mult hot => Sys2Proof.Machine.execMr4Read m mult hot s
  | .selfRefreshEntry m commit => Sys2Proof.Machine.execSelfRefreshEntry m commit s
  | .selfRefreshExit m req => Sys2Proof.Machine.execSelfRefreshExit m req s
  | .dramInitDone m => Sys2Proof.Machine.execDramInitDone m s
  | .dramScrub q u line found => Sys2Proof.Machine.execDramScrub q u line found s
  | .migrate mid q => Sys2Proof.Machine.execMigrate mid q s
  | .migrationChunk fixed bad => Sys2Proof.Machine.execMigrationChunk fixed bad s
  | .train mid e k => Sys2Proof.Machine.execTrain mid e k s
  | .retrain mid e k => Sys2Proof.Machine.execRetrain mid e k s
  | .regulatorWindow starved => Sys2Proof.Machine.execRegulatorWindow starved s
  | .guestRequest mid pa rank len data => Sys2Proof.Machine.execGuestRequest mid pa rank len data s
  | .csi2LongPacket port vc dt data header crcOk => Sys2Proof.Machine.execCsi2LongPacket port vc dt data header crcOk s
  | .frameStart port vc => Sys2Proof.Machine.execFrameStart port vc s
  | .frameEnd port vc => Sys2Proof.Machine.execFrameEnd port vc s
  | .lidarFrame port ipv6 udpPort checks fragment payload => Sys2Proof.Machine.execLidarFrame port ipv6 udpPort checks fragment payload s
  | .imuDataReady port => Sys2Proof.Machine.execImuDataReady port s
  | .spiReadDone port data => Sys2Proof.Machine.execSpiReadDone port data s
  | .canFdFrame port id ide dlc data => Sys2Proof.Machine.execCanFdFrame port id ide dlc data s
  | .ingEnable mid value => Sys2Proof.Machine.execIngEnable mid value s
  | .ingTake mid r value => Sys2Proof.Machine.execIngTake mid r value s
  | .takeFlush r => Sys2Proof.Machine.execTakeFlush r s
  | .rconsWrite mid r value => Sys2Proof.Machine.execRconsWrite mid r value s
  | .egoEnable mid value => Sys2Proof.Machine.execEgoEnable mid value s
  | .biasApply mid => Sys2Proof.Machine.execBiasApply mid s
  | .alnDoorbell mid value => Sys2Proof.Machine.execAlnDoorbell mid value s
  | .alnEnable mid value => Sys2Proof.Machine.execAlnEnable mid value s
  | .alnResume mid => Sys2Proof.Machine.execAlnResume mid s
  | .alnAbort mid => Sys2Proof.Machine.execAlnAbort mid s
  | .trjEnable mid value => Sys2Proof.Machine.execTrjEnable mid value s
  | .start mid => Sys2Proof.Machine.execStart mid s
  | .trjAbort mid => Sys2Proof.Machine.execTrjAbort mid s
  | .deltaDoorbell mid value => Sys2Proof.Machine.execDeltaDoorbell mid value s
  | .summary c ct lseq dt gates counts => Sys2Proof.Machine.execSummary c ct lseq dt gates counts s
  | .notice c ct lseq kind unit count tstamp arg0 arg1 => Sys2Proof.Machine.execNotice c ct lseq kind unit count tstamp arg0 arg1 s
  | .gridFrame c ct lseq bytes => Sys2Proof.Machine.execGridFrame c ct lseq bytes s
  | .resultFrame c ct lseq bytes => Sys2Proof.Machine.execResultFrame c ct lseq bytes s
  | .hb c ct lseq task count => Sys2Proof.Machine.execHb c ct lseq task count s
  | .request c ct lseq entry => Sys2Proof.Machine.execRequest c ct lseq entry s
  | .cert c ct lseq bytes => Sys2Proof.Machine.execCert c ct lseq bytes s
  | .certend c ct lseq tag status => Sys2Proof.Machine.execCertend c ct lseq tag status s
  | .spb c ct lseq bytes => Sys2Proof.Machine.execSpb c ct lseq bytes s
  | .release c seq => Sys2Proof.Machine.execRelease c seq s
  | .refuse c seq code sample => Sys2Proof.Machine.execRefuse c seq code sample s
  | .status c image => Sys2Proof.Machine.execStatus c image s
  | .vote c scope target cast code => Sys2Proof.Machine.execVote c scope target cast code s
  | .event c entry => Sys2Proof.Machine.execEvent c entry s
  | .relay src dest msg => Sys2Proof.Machine.execRelay src dest msg s
  | .cleatCanFrame c ct port ide id data => Sys2Proof.Machine.execCleatCanFrame c ct port ide id data s
  | .engage c ct port ide id data => Sys2Proof.Machine.execEngage c ct port ide id data s
  | .disengage c ct port ide id data => Sys2Proof.Machine.execDisengage c ct port ide id data s
  | .vehicleStateLost c ct => Sys2Proof.Machine.execVehicleStateLost c ct s
  | .hubLinkLost c ct => Sys2Proof.Machine.execHubLinkLost c ct s
  | .taskDue c ct task => Sys2Proof.Machine.execTaskDue c ct task s
  | .stopRecordPublish c ct => Sys2Proof.Machine.execStopRecordPublish c ct s
  | .standstill c ct => Sys2Proof.Machine.execStandstill c ct s
  | .gateChange c isOpen => Sys2Proof.Machine.execGateChange c isOpen s
  | .cleatSafe c ct lost => Sys2Proof.Machine.execCleatSafe c ct lost s
  | .cleatThermalTrip c ct => Sys2Proof.Machine.execCleatThermalTrip c ct s
  | .cleatCooled c ct => Sys2Proof.Machine.execCleatCooled c ct s
  | .cleatResetPin c ct => Sys2Proof.Machine.execCleatResetPin c ct s
  | .cleatSramScrub c ct => Sys2Proof.Machine.execCleatSramScrub c ct s
  | .latentTest c ct pass => Sys2Proof.Machine.execLatentTest c ct pass s
  | .latentOverdue c ct => Sys2Proof.Machine.execLatentOverdue c ct s
  | .voteWithdraw c ct d => Sys2Proof.Machine.execVoteWithdraw c ct d s
  | .clpDoorbell mid value => Sys2Proof.Machine.execClpDoorbell mid value s
  | .clpHb mid value => Sys2Proof.Machine.execClpHb mid value s
  | .clpResume mid => Sys2Proof.Machine.execClpResume mid s
  | .clpAbort mid => Sys2Proof.Machine.execClpAbort mid s
  | .hawserLinkUp port => Sys2Proof.Machine.execHawserLinkUp port s
  | .hawserLinkDown port => Sys2Proof.Machine.execHawserLinkDown port s
  | .mirrorEntry port seq pa bytes => Sys2Proof.Machine.execMirrorEntry port seq pa bytes s
  | .roceAck port psn => Sys2Proof.Machine.execRoceAck port psn s
  | .roceRetransmit port => Sys2Proof.Machine.execRoceRetransmit port s
  | .rdmaWrite port q va bytes => Sys2Proof.Machine.execRdmaWrite port q va bytes s
  | .rdmaWriteImmediate port q va bytes imm => Sys2Proof.Machine.execRdmaWriteImmediate port q va bytes imm s
  | .send port q va bytes => Sys2Proof.Machine.execSend port q va bytes s
  | .rearm mid => Sys2Proof.Machine.execRearm mid s
  | .resync mid => Sys2Proof.Machine.execResync mid s
  | .handover mid => Sys2Proof.Machine.execHandover mid s
  | .aside mid => Sys2Proof.Machine.execAside mid s
  | .digestDoorbell mid value => Sys2Proof.Machine.execDigestDoorbell mid value s
  | .dresume mid => Sys2Proof.Machine.execDresume mid s
  | .dabort mid => Sys2Proof.Machine.execDabort mid s
  | .vinSample vin vhold pin => Sys2Proof.Machine.execVinSample vin vhold pin s
  | .pbaOn mid dom => Sys2Proof.Machine.execPbaOn mid dom s
  | .pbaOff mid dom => Sys2Proof.Machine.execPbaOff mid dom s
  | .pbaGrant mid dom tokens => Sys2Proof.Machine.execPbaGrant mid dom tokens s
  | .pbaBist mid dom => Sys2Proof.Machine.execPbaBist mid dom s
  | .pbaBistend mid dom => Sys2Proof.Machine.execPbaBistend mid dom s
  | .shed mid => Sys2Proof.Machine.execShed mid s
  | .unshed mid => Sys2Proof.Machine.execUnshed mid s
  | .budgetWrite mid value => Sys2Proof.Machine.execBudgetWrite mid value s
  | .pbaTick energies sensors tin tout => Sys2Proof.Machine.execPbaTick energies sensors tin tout s
  | .domainPowered d => Sys2Proof.Machine.execDomainPowered d s
  | .domainOff d => Sys2Proof.Machine.execDomainOff d s
  | .hardTrip x => Sys2Proof.Machine.execHardTrip x s
  | .rateWindow u count => Sys2Proof.Machine.execRateWindow u count s
  | .capMeasure cap => Sys2Proof.Machine.execCapMeasure cap s
  | .testStart mid test unit => Sys2Proof.Machine.execTestStart mid test unit s
  | .testAbort mid => Sys2Proof.Machine.execTestAbort mid s
  | .testDone finds expect observed => Sys2Proof.Machine.execTestDone finds expect observed s
  | .fieldTestDue test unit => Sys2Proof.Machine.execFieldTestDue test unit s
  | .wearSample bumps => Sys2Proof.Machine.execWearSample bumps s
  | .logRead seq count buffer => Sys2Proof.Machine.execLogRead seq count buffer s
  | .rstWarm mid => Sys2Proof.Machine.execRstWarm mid s
  | .rstModule mid => Sys2Proof.Machine.execRstModule mid s
  | .rstCluster mid k => Sys2Proof.Machine.execRstCluster mid k s
  | .rstDie mid d => Sys2Proof.Machine.execRstDie mid d s
  | .bootStream c => Sys2Proof.Machine.execBootStream c s
  | .stage mid => Sys2Proof.Machine.execStage mid s
  | .activate mid => Sys2Proof.Machine.execActivate mid s
  | .commit mid => Sys2Proof.Machine.execCommit mid s
  | .revert mid => Sys2Proof.Machine.execRevert mid s
  | .lifecycleToken bytes n => Sys2Proof.Machine.execLifecycleToken bytes n s
  | .dbgauth level response => Sys2Proof.Machine.execDbgauth level response s
  | .haltRequest target hitch => Sys2Proof.Machine.execHaltRequest target hitch s
  | .resumeRequest target => Sys2Proof.Machine.execResumeRequest target s
  | .mbxStag mid ch tag => Sys2Proof.Machine.execMbxStag mid ch tag s
  | .mbxRpop mid ch value => Sys2Proof.Machine.execMbxRpop mid ch value s
  | .seteipnum mid slevel h value => Sys2Proof.Machine.execSeteipnum mid slevel h value s
  | .claim h slevel threshold enabled => Sys2Proof.Machine.execClaim h slevel threshold enabled s
  | .genmsi mid slevel value => Sys2Proof.Machine.execGenmsi mid slevel value s
  | .sourcecfgWrite mid slevel source value => Sys2Proof.Machine.execSourcecfgWrite mid slevel source value s
  | .machineTimer h => Sys2Proof.Machine.execMachineTimer h s
  | .msiCapture q mid ctx bus data => Sys2Proof.Machine.execMsiCapture q mid ctx bus data s
  | .interruptTaken h slevel timer masked deliver threshold enabled => Sys2Proof.Machine.execInterruptTaken h slevel timer masked deliver threshold enabled s
  | .canDoorbell mid c value => Sys2Proof.Machine.execCanDoorbell mid c value s
  | .canLaunch c => Sys2Proof.Machine.execCanLaunch c s
  | .canResume mid c => Sys2Proof.Machine.execCanResume mid c s
  | .canAbort mid c => Sys2Proof.Machine.execCanAbort mid c s
  | .cleatPowerUp c ct => Sys2Proof.Machine.execCleatPowerUp c ct s
  | .serialFrameDiscarded toHub c ct => Sys2Proof.Machine.execSerialFrameDiscarded toHub c ct s
  | .hartMemoryAccess h op va pa => Sys2Proof.Machine.execHartMemoryAccess h op va pa s
  | .lowWordRead mid a size => Sys2Proof.Machine.execLowWordRead mid a size s
  | .debugRead a size => Sys2Proof.Machine.execDebugRead a size s
  | .supervisorTimer h cmp => Sys2Proof.Machine.execSupervisorTimer h cmp s
  | .macsecDiscard port => Sys2Proof.Machine.execMacsecDiscard port s
  | .linkTrained e k margins far => Sys2Proof.Machine.execLinkTrained e k margins far s
  | .eyeMeasurement e k margins => Sys2Proof.Machine.execEyeMeasurement e k margins s
  | .laneLockLoss e k lane => Sys2Proof.Machine.execLaneLockLoss e k lane s
  | .linkDrained e k => Sys2Proof.Machine.execLinkDrained e k s
  | .rd e k entry => Sys2Proof.Machine.execRd e k entry s
  | .wr e k entry flits => Sys2Proof.Machine.execWr e k entry flits s
  | .wrm e k entry flits => Sys2Proof.Machine.execWrm e k entry flits s
  | .atom e k entry flits => Sys2Proof.Machine.execAtom e k entry flits s
  | .rsp e k entry flits => Sys2Proof.Machine.execRsp e k entry flits s
  | .ack e k entry => Sys2Proof.Machine.execAck e k entry s
  | .lctlAck e k entry => Sys2Proof.Machine.execLctlAck e k entry s
  | .nak e k entry => Sys2Proof.Machine.execNak e k entry s
  | .credit e k entry => Sys2Proof.Machine.execCredit e k entry s
  | .lctlSync e k entry => Sys2Proof.Machine.execLctlSync e k entry s
  | .bundle e k entry => Sys2Proof.Machine.execBundle e k entry s
  | .digestRecord c ct lseq bytes => Sys2Proof.Machine.execDigestRecord c ct lseq bytes s
  | .handreq c ct lseq key => Sys2Proof.Machine.execHandreq c ct lseq key s
  | .asidereq c ct lseq => Sys2Proof.Machine.execAsidereq c ct lseq s
  | .partnerRecord c ct lseq bytes => Sys2Proof.Machine.execPartnerRecord c ct lseq bytes s
  | .relayedVote c ct lseq msg => Sys2Proof.Machine.execRelayedVote c ct lseq msg s
  | .timereq c ct lseq msg => Sys2Proof.Machine.execTimereq c ct lseq msg s
  | .timersp c ct lseq msg => Sys2Proof.Machine.execTimersp c ct lseq msg s
  | .state c ct lseq msg => Sys2Proof.Machine.execState c ct lseq msg s
  | .handack c ct lseq msg => Sys2Proof.Machine.execHandack c ct lseq msg s
  | .handnak c ct lseq msg => Sys2Proof.Machine.execHandnak c ct lseq msg s
  | .timeExchange c ct => Sys2Proof.Machine.execTimeExchange c ct s
  | .stateSend c ct => Sys2Proof.Machine.execStateSend c ct s
  | .pairTimeStale c ct => Sys2Proof.Machine.execPairTimeStale c ct s
  | .partnerSilent c ct => Sys2Proof.Machine.execPartnerSilent c ct s
  | .disputeClose c ct => Sys2Proof.Machine.execDisputeClose c ct s
  | .recordUnmatched c ct => Sys2Proof.Machine.execRecordUnmatched c ct s
  | .handoverTimeout c ct => Sys2Proof.Machine.execHandoverTimeout c ct s
  | .canFrameSent c lost stamp => Sys2Proof.Machine.execCanFrameSent c lost stamp s
  | .busOff c => Sys2Proof.Machine.execBusOff c s
  | .crcFailure e k entry flits lanes unmatched => Sys2Proof.Machine.execCrcFailure e k entry flits lanes unmatched s
  | .ethLinkChange port up => Sys2Proof.Machine.execEthLinkChange port up s
  | .ethFrameDrop port fcs => Sys2Proof.Machine.execEthFrameDrop port fcs s
  | .pcieLinkChange q width aer => Sys2Proof.Machine.execPcieLinkChange q width aer s
  | .pcieInboundRequest q mid ctx bus n data => Sys2Proof.Machine.execPcieInboundRequest q mid ctx bus n data s
  | .perstRelease q stable => Sys2Proof.Machine.execPerstRelease q stable s
  | .syncTimeout => Sys2Proof.Machine.execSyncTimeout s
  | .scratchConvDone => Sys2Proof.Machine.execScratchConvDone s
  | .retireDone => Sys2Proof.Machine.execRetireDone s
  | .regulatorRecompute => Sys2Proof.Machine.execRegulatorRecompute s
  | .egoTick => Sys2Proof.Machine.execEgoTick s
  | .biasRecordRead => Sys2Proof.Machine.execBiasRecordRead s
  | .points => Sys2Proof.Machine.execPoints s
  | .camxf => Sys2Proof.Machine.execCamxf s
  | .grid => Sys2Proof.Machine.execGrid s
  | .calset => Sys2Proof.Machine.execCalset s
  | .calStep => Sys2Proof.Machine.execCalStep s
  | .planLoadDone => Sys2Proof.Machine.execPlanLoadDone s
  | .distanceFieldDone => Sys2Proof.Machine.execDistanceFieldDone s
  | .waveEnd => Sys2Proof.Machine.execWaveEnd s
  | .deltaApplyDone => Sys2Proof.Machine.execDeltaApplyDone s
  | .trjStop => Sys2Proof.Machine.execTrjStop s
  | .reductionDone => Sys2Proof.Machine.execReductionDone s
  | .egressSend => Sys2Proof.Machine.execEgressSend s
  | .releaseTimeout => Sys2Proof.Machine.execReleaseTimeout s
  | .summarySend => Sys2Proof.Machine.execSummarySend s
  | .admitTask => Sys2Proof.Machine.execAdmitTask s
  | .revoke => Sys2Proof.Machine.execRevoke s
  | .mirrorEntrySend => Sys2Proof.Machine.execMirrorEntrySend s
  | .digestJob => Sys2Proof.Machine.execDigestJob s
  | .survivalModeEntry => Sys2Proof.Machine.execSurvivalModeEntry s
  | .survivalModeExit => Sys2Proof.Machine.execSurvivalModeExit s
  | .holdupSurvival => Sys2Proof.Machine.execHoldupSurvival s
  | .shutdown => Sys2Proof.Machine.execShutdown s
  | .requestComplete => Sys2Proof.Machine.execRequestComplete s
  | .survivalExit => Sys2Proof.Machine.execSurvivalExit s
  | .floorCut => Sys2Proof.Machine.execFloorCut s
  | .mramBatch => Sys2Proof.Machine.execMramBatch s
  | .mramBatchDone => Sys2Proof.Machine.execMramBatchDone s
  | .leaseGrant => Sys2Proof.Machine.execLeaseGrant s
  | .leaseDeny => Sys2Proof.Machine.execLeaseDeny s
  | .leaseRevoke => Sys2Proof.Machine.execLeaseRevoke s
  | .logFlush => Sys2Proof.Machine.execLogFlush s
  | .softwareLogEntry => Sys2Proof.Machine.execSoftwareLogEntry s
  | .healthReport => Sys2Proof.Machine.execHealthReport s
  | .powerOnReset => Sys2Proof.Machine.execPowerOnReset s
  | .modRstN => Sys2Proof.Machine.execModRstN s
  | .stewardWatchdog => Sys2Proof.Machine.execStewardWatchdog s
  | .resetRelease => Sys2Proof.Machine.execResetRelease s
  | .stageDone => Sys2Proof.Machine.execStageDone s
  | .sessionExpire => Sys2Proof.Machine.execSessionExpire s
  | .lockoutEnd => Sys2Proof.Machine.execLockoutEnd s
  | .publicationComplete => Sys2Proof.Machine.execPublicationComplete s
  | .sessionClose => Sys2Proof.Machine.execSessionClose s

end Sys2Proof.Machine
end

