-- ==== Sys2Proof/Machine/Step.lean ====
section
/-! DEFINITION.  One step: the command at the front of the queue is taken and run with the queue's rest;
on an empty queue the block idles and device time counts one nanosecond (R8; DESIGN CHOICE, log
entry 3). -/

namespace Sys2Proof.Machine

/-- One step of the block. -/
def step (s : State) : Host.Outcome State Fault Refusal :=
  match s.pending with
  | [] => .next s.idle
  | c :: cs => exec c { s with pending := cs }

/-- `s` with the command that a word spells put at the front of its queue. -/
def State.withFetchWord (s : State) (nbits w : Nat) : State :=
  match decodeTableWord nbits w with
  | some c => { s with pending := c :: s.pending }
  | none => s

end Sys2Proof.Machine
end

