-- ==== Sys2Proof/Safety.lean ====
section
/-! DEFINITION.  What counts as a sound state, and the words the statements are written in: what stands between two states, a command
that completes, the registers that software commands write, and whether a write reaches one. -/

namespace Sys2Proof.Machine

/-! Sound states. -/

/-- Memory is in its canonical form. -/
def Memory.wf (m : List Host.Cell) : Bool := swf emptyByte m

/-- The register file is in its canonical form. -/
def Regs.wf (r : List (Nat × Word)) : Bool := swf resetWord r

/-- The invariant of the machine: memory and the register file are canonical, so equal contents are equal data. -/
def State.Inv (s : State) : Prop := Memory.wf s.mem = true ∧ Regs.wf s.regs = true

/-! What stands. -/

/-- Every byte of memory reads as before. -/
def SameMem (s t : State) : Prop := ∀ a, t.byte a = s.byte a

/-- Every byte of memory outside the `n` bytes from `lo` on reads as before. -/
def SameMemBut (s t : State) (lo n : Nat) : Prop := ∀ a, (a < lo ∨ lo + n ≤ a) → t.byte a = s.byte a

/-- Every register but those at the addresses `as` reads as before. -/
def SameRegs (s t : State) (as : List Nat) : Prop := ∀ a, a ∉ as → t.reg a = s.reg a

/-- Command `c` completes in `s`, and `P` holds of the next state. -/
def Completes (c : Instr) (s : State) (P : State → Prop) : Prop := ∃ t, exec c s = .next t ∧ P t

/-! Where a command finds the machine. -/

/-- The domain of index `i` is powered and out of reset. -/
def State.on (s : State) (i : Nat) : Bool := (Tx.start s).powered i

/-- The word of a register, as a number. -/
def State.word (s : State) (a : Nat) : Nat := (s.reg a).toNat

/-- A 64-bit pair of registers. -/
def State.pair (s : State) (a : Nat) : Nat := s.word a + s.word (a + 4) * 2 ^ 32

/-- What a 32-bit write by `mid` to `a` meets. -/
def State.meets (s : State) (mid a : Nat) : Hit := (Tx.start s).meets mid a 4

/-- A 32-bit write by `mid` reaches the register at `a`: it lies in a block that is on, and the master may write it. -/
def State.reaches (s : State) (mid a : Nat) : Bool :=
  match s.meets mid a with
  | .reg b _ => mayWrite b mid a
  | _ => false

/-- Context `c` of compute die `d`. -/
def State.ctx (s : State) (d c : Nat) : Sctx := (s.dev.sch.at d).ctx.at c

/-- The size of ring `r` of die `d`, in entries. -/
def State.ringSize (s : State) (d r : Nat) : Nat := 2 ^ (Tx.start s).ringLog d r

/-- Cleat `c`, its clock brought to the instant `ct` of its command. -/
def State.cleatAt (s : State) (c ct : Nat) : Cleat :=
  let x := s.dev.cleat.at c
  { x with ct := max x.ct ct }

/-- Cleat `c` runs and has no mismatch of trajectory records waiting (R401, R484). -/
def State.cleatRuns (s : State) (c : Nat) : Bool := (s.dev.cleat.at c).alive && (s.dev.cleat.at c).pair.mism.isEmpty

/-- Cleat `c` as the frame of LSEQ `lseq` finds it at the instant `ct`. -/
def State.cleatHears (s : State) (c ct lseq : Nat) : Cleat := { s.cleatAt c ct with lseq := some ((lseq + 1) % 2 ^ 32) }

/-- The frame of LSEQ `lseq` follows the one before it, so it is no gap (R403). -/
def State.inSeq (s : State) (c lseq : Nat) : Bool := decide ((s.dev.cleat.at c).lseq = none ∨ (s.dev.cleat.at c).lseq = some lseq)

/-- Nothing but Cleat `c` and what leaves the module has changed. -/
def CleatOnly (s t : State) (c : Nat) : Prop :=
  SameRegs s t [] ∧ SameMem s t ∧ t.dev = { s.dev with cleat := t.dev.cleat, out := t.dev.out, free := t.dev.free } ∧
    t.dev.cleat.at (1 - c) = s.dev.cleat.at (1 - c)

/-- A record of stream `k` has completed (R342 to R344): its SEQ counts, and the stream's ring holds one record more, or the record is dropped and
counted, to be told by GAP. -/
def Recorded (s t : State) (k : Nat) : Prop :=
  let r := fld (s.dev.ing.table.getD k []) 2 1
  t.dev.ing.seq.at k = (s.dev.ing.seq.at k + 1) % 2 ^ 32 ∧
  (t.rd (ING_RPTR_WR r) = (s.rd (ING_RPTR_WR r) + 1) % 65536 ∧ t.dev.ing.gap.at k = false ∨
    t.rd (ING_RPTR_WR r) = s.rd (ING_RPTR_WR r) ∧ t.rd (ING_DROP_DROPCNT r) = min (s.rd (ING_DROP_DROPCNT r) + 1) (2 ^ 32 - 1) ∧ t.dev.ing.gap.at k = true)

/-- The compute commands of step `n` of context `c` on die `d`, each with the OPC it runs (R171). -/
def computeCommands (d : Die) (c : Ctx) (n : StepNo) : List (Instr × Nat) :=
  [(.matmul d c n .clean, 0x10), (.conv d c n .clean, 0x11), (.wmatmul d c n, 0x18), (.wconv d c n, 0x19), (.sfwd d c n, 0x30),
   (.swxf d c n, 0x31), (.smac d c n, 0x32), (.sinv d c n, 0x33), (.cvt d c n, 0x40), (.add d c n, 0x41), (.sub d c n, 0x42),
   (.mul d c n, 0x43), (.max d c n, 0x44), (.min d c n, 0x45), (.affine d c n, 0x46), (.clamp d c n, 0x47), (.relu d c n, 0x48),
   (.exp d c n, 0x49), (.recip d c n, 0x4A), (.sqrt d c n, 0x4B), (.rsqrt d c n, 0x4C), (.sigmoid d c n, 0x4D), (.silu d c n, 0x4E),
   (.tanh d c n, 0x4F), (.rsum d c n, 0x50), (.rmean d c n, 0x51), (.rmax d c n, 0x52), (.rmin d c n, 0x53), (.softmax d c n, 0x54),
   (.layernorm d c n, 0x55), (.rmsnorm d c n, 0x56), (.poolmax d c n, 0x58), (.poolavg d c n, 0x59), (.gather d c n, 0x5C),
   (.scatter d c n, 0x5D), (.fill d c n, 0x5E)]

/-- The commands that are a 32-bit write of one register: the master and the register's address. -/
def softwareWrite : Instr → Option (Nat × Nat)
  | .schDoorbell mid d r _ => some (mid.toNat, CD_SCH_DB d r)
  | .ctxSuspend mid d _ | .ctxSave mid d _ | .ctxRelease mid d _ | .ctxResume mid d _ | .ctxAbort mid d _ | .ctxConfirm mid d _ => some (mid.toNat, CD_SCH_CCMD d)
  | .evtinc mid d _ => some (mid.toNat, CD_SCH_EVTINC d)
  | .rtfenceWrite mid d _ => some (mid.toNat, CD_SCH_CTL d)
  | .qfenceWrite mid d _ | .qoffWrite mid d _ => some (mid.toNat, CD_BRD_QCTL d)
  | .pairoffWrite mid d _ => some (mid.toNat, CD_STR_CTL d)
  | .holdWrite mid d _ => some (mid.toNat, RTM_CTL (cdRtm d))
  | .join mid d _ | .leave mid d _ | .fresh mid d _ | .adopt mid d _ | .seqConfirm mid d | .take mid d | .give mid d => some (mid.toNat, CD_SEQ_CMD d)
  | .kick mid d _ => some (mid.toNat, CD_SEQ_KICK d)
  | .scrwaysWrite mid _ => some (mid.toNat, HD_SC_CTL)
  | .xltCtlWrite mid u _ => some (mid.toNat, XLT_CTL (xltBase u))
  | .invDevctx mid u _ _ | .invTranslations mid u _ _ | .invAddress mid u _ _ | .invAll mid u _ | .invAllLocked mid u _ => some (mid.toNat, XLT_INV (xltBase u))
  | .xltLock mid u _ | .xltUnlock mid u _ => some (mid.toNat, XLT_LOCK (xltBase u))
  | .dmaDoorbell mid c _ => some (mid.toNat, DMA_DB c)
  | .dmaResume mid _ | .dmaAbort mid _ => some (mid.toNat, DMA_CMD)
  | .migrate mid _ => some (mid.toNat, HD_DMAP_MCMD)
  | .train mid e _ | .retrain mid e _ => some (mid.toNat, LNK_CMD (lnkBase e))
  | .ingEnable mid _ => some (mid.toNat, ING_CTL)
  | .ingTake mid r _ => some (mid.toNat, ING_TAKE r)
  | .rconsWrite mid r _ => some (mid.toNat, ING_RCONS r)
  | .egoEnable mid _ => some (mid.toNat, EGO_CTL)
  | .biasApply mid => some (mid.toNat, EGO_BIASCMD)
  | .alnDoorbell mid _ => some (mid.toNat, ALN_DB)
  | .alnEnable mid _ => some (mid.toNat, ALN_CTL)
  | .alnResume mid | .alnAbort mid => some (mid.toNat, ALN_CMD)
  | .trjEnable mid _ => some (mid.toNat, TRJ_CTL)
  | .start mid | .trjAbort mid => some (mid.toNat, TRJ_CMD)
  | .deltaDoorbell mid _ => some (mid.toNat, TRJ_DDB)
  | .clpDoorbell mid _ => some (mid.toNat, CLP_DB)
  | .clpHb mid _ => some (mid.toNat, CLP_HB)
  | .clpResume mid | .clpAbort mid => some (mid.toNat, CLP_CMD)
  | .rearm mid | .resync mid | .handover mid | .aside mid | .dresume mid | .dabort mid => some (mid.toNat, HWS_CMD)
  | .digestDoorbell mid _ => some (mid.toNat, HWS_DDB)
  | .pbaOn mid _ | .pbaOff mid _ | .pbaGrant mid _ _ | .pbaBist mid _ | .pbaBistend mid _ => some (mid.toNat, PBA_REQ)
  | .shed mid | .unshed mid => some (mid.toNat, PBA_CMD)
  | .budgetWrite mid _ => some (mid.toNat, PBA_CTL)
  | .testStart mid _ _ | .testAbort mid => some (mid.toNat, TST_CMD)
  | .rstWarm mid | .rstModule mid | .rstCluster mid _ | .rstDie mid _ => some (mid.toNat, RST_CMD)
  | .stage mid | .activate mid | .commit mid | .revert mid => some (mid.toNat, SEC_UPDCMD)
  | .mbxStag mid ch _ => some (mid.toNat, MBX_STAG ch)
  | .mbxRpop mid ch _ => some (mid.toNat, MBX_RPOP ch)
  | .canDoorbell mid c _ => some (mid.toNat, CAN_DB c)
  | .canResume mid c | .canAbort mid c => some (mid.toNat, CAN_CMD c)
  | _ => none

end Sys2Proof.Machine
end

