-- ==== Sys2Proof/WellFormed.lean ====
section
/-! DEFINITION.  Well-formed commands: operands that a type does not bound keep the formats the spec gives them.  A meaning is defined
on ill-formed commands too; nothing in the machine rests on these checks. -/

namespace Sys2Proof

/-- A time or a 64-bit address. -/
def wf64 (n : Nat) : Bool := decide (n < 2 ^ 64)
/-- A bus address, 48 bits. -/
def wf48 (n : Nat) : Bool := decide (n < 2 ^ 48)
/-- A list of exactly `k` items. -/
def wfLen {α : Type} (k : Nat) (xs : List α) : Bool := xs.length == k
/-- A list of `lo` to `hi` items. -/
def wfRange {α : Type} (lo hi : Nat) (xs : List α) : Bool := decide (lo ≤ xs.length) && decide (xs.length ≤ hi)
/-- Every item named once. -/
def wfNodup {α : Type} [DecidableEq α] (xs : List α) : Bool := decide xs.Nodup
/-- The lengths of CAN FD data (R341, R408). -/
def wfCan (n : Nat) : Bool := [0, 1, 2, 3, 4, 5, 6, 7, 8, 12, 16, 20, 24, 32, 48, 64].contains n
/-- Flits of a link entry follow its header: none, or whole units of 64 bytes (R300, R301). -/
def wfFlits (bs : List Byte) : Bool := bs.length % 64 == 0 && decide (bs.length ≤ 512)
/-- Data of a request: at least a byte, within a line of 64 where it begins at `pa` (R12, R272). -/
def wfLine (pa : Nat) (bs : List Byte) : Bool := decide (0 < bs.length) && decide (pa % 64 + bs.length ≤ 64)

/-- The operands of a hart's access: a power of two of bytes, and whole atomics (R437 to R440). -/
def HartOp.wellFormed : HartOp → Bool
  | .load n => [1, 2, 4, 8, 16, 32, 64].contains n.val
  | .fetch n => [2, 4].contains n.val
  | .store bs => [1, 2, 4, 8, 16, 32, 64].contains bs.length
  | .amo _ wide x => wide || decide (x.toNat < 2 ^ 32)
  | .sc wide x => wide || decide (x.toNat < 2 ^ 32)
  | .lr _ | .cboZero | .cboClean | .cboFlush | .cboInval => true

/-- A request at a memory controller keeps to one line. -/
def McReq.wellFormed (r : McReq) : Bool :=
  match r.data with
  | none => true
  | some bs => wfLine r.pa.toNat bs

/-- The command's operands keep their formats.  The types bound every operand of the commands not named here. -/
def Instr.wellFormed : Instr → Bool
  | .sync _ _ _ origin _ | .followUp _ _ origin _ => wf64 origin
  | .announce _ priority => decide (priority < 256)
  | .pdelayResp _ _ at' | .pdelayRespFollowUp _ _ at' => wf64 at'
  | .energyTick energies => wfLen 40 energies
  | .controllerIssue _ arrivals _ => arrivals.all (·.wellFormed)
  | .selfRefreshExit _ req => req.wellFormed
  | .migrationChunk fixed bad => wfNodup fixed && wfNodup bad && fixed.all fun k => !bad.contains k
  | .linkTrained _ _ margins far => wfLen margins.length far && wfRange 1 18 margins
  | .eyeMeasurement _ _ margins => wfRange 1 18 margins
  | .wr _ _ _ flits | .wrm _ _ _ flits | .atom _ _ _ flits | .rsp _ _ _ flits | .crcFailure _ _ _ flits _ _ => wfFlits flits
  | .guestRequest _ pa _ _ data => match data with
    | none => true
    | some bs => wfLine pa.toNat bs || bs.length % 64 == 0
  | .csi2LongPacket _ _ _ data _ _ => decide (data.length < 2 ^ 16)
  | .lidarFrame _ _ _ _ _ payload => decide (payload.length ≤ 9000)
  | .canFdFrame _ _ _ _ data | .cleatCanFrame _ _ _ _ _ data | .engage _ _ _ _ _ data | .disengage _ _ _ _ _ data => wfCan data.length
  | .summary _ ct _ dt _ counts => wf64 ct && wf64 dt && wfRange 0 64 counts
  | .notice _ ct _ _ _ _ tstamp a0 a1 => wf64 ct && wf64 tstamp && wf64 a0 && wf64 a1
  | .gridFrame _ ct _ bytes => wf64 ct && wfLen 67648 bytes
  | .resultFrame _ ct _ bytes | .partnerRecord _ ct _ bytes => wf64 ct && wfLen 1152 bytes
  | .request _ ct _ entry => wf64 ct && wfLen 64 entry
  | .cert _ ct _ bytes | .spb _ ct _ bytes => wf64 ct && wfRange 1 4096 bytes
  | .digestRecord _ ct _ bytes => wf64 ct && wfLen 80 bytes
  | .relayedVote _ ct _ msg | .timereq _ ct _ msg | .timersp _ ct _ msg | .state _ ct _ msg | .handack _ ct _ msg | .handnak _ ct _ msg =>
      wf64 ct && wfRange 12 508 msg
  | .relay _ _ msg => wfRange 1 512 msg
  | .status _ image => wfLen 4096 image
  | .event _ entry => wfLen 32 entry
  | .mirrorEntry _ seq _ bytes => wf48 seq && wfRange 1 4096 bytes
  | .roceAck _ psn => decide (psn < 2 ^ 24)
  | .rdmaWrite _ _ va bytes | .rdmaWriteImmediate _ _ va bytes _ | .send _ _ va bytes => wf64 va && decide (0 < bytes.length)
  | .pbaTick energies sensors _ _ => wfLen 74 energies && wfLen 9 sensors
  | .testDone finds _ _ => finds.all fun (a, b) => decide (a < 2 ^ 32) && decide (b < 2 ^ 32)
  | .wearSample bumps => bumps.isEmpty || wfLen 8 bumps
  | .dbgauth _ response => wfLen 4096 response
  | .msiCapture _ _ _ bus _ => wf48 bus
  | .pcieInboundRequest _ _ _ bus _ _ => wf64 bus
  | .hartMemoryAccess _ op _ _ => op.wellFormed
  | _ => true

end Sys2Proof
end

