-- ==== Sys2Proof/Certificates/Slice0/Obligations.lean ====
section
/-! DEFINITION.  The statements for the provers.  `Completes c s P` says that the command `c` answers a next state in `s`, of which `P`
holds; `SameMem` and `SameRegs` say what it leaves alone. -/

open Sys2Proof Sys2Proof.Machine

/-! The machine. -/

/-- One step takes the command at the front of the queue and runs it with the queue's rest. -/
def Obligations.StepRunsTheFrontCommand : Prop := ∀ (c : Instr) (cs : List Instr) (s : State),
  step { s with pending := c :: cs } = exec c { s with pending := cs }

/-- On an empty queue device time counts one nanosecond (R8): it never steps, and nothing but it and deferred halts moves.  That the block
idles one nanosecond a step is the model's choice (log entry 3). -/
def Obligations.EmptyQueueCountsTime : Prop := ∀ s : State, s.pending = [] →
  ∃ t, step s = .next t ∧ t.now = s.now + 1 ∧ t.pending = [] ∧ SameMem s t

/-- The machine right after reset is sound: memory and the register file are canonical. -/
def Obligations.ResetIsSound : Prop := State.reset.Inv

/-- Every step from a sound state answers a sound state. -/
def Obligations.StepKeepsSound : Prop := ∀ s t : State, s.Inv → step s = .next t → t.Inv

/-- Every command goes on: none ends the machine in a fault or a refusal, none touches the queue, and none but a power-on reset touches device
time (R8). -/
def Obligations.EveryCommandGoesOn : Prop := ∀ (c : Instr) (s : State),
  Completes c s fun t => t.pending = s.pending ∧ t.now = if c = .powerOnReset then 0 else s.now

/-! Registers. -/

/-- A software write that does not reach its register: a decode error leaves its mark in the decode log (R620, R637), an access by a
master that may not write leaves its mark in the block's ACCERR and in the access log (R624, R637), a block in reset holds the write
(R20); nothing else changes. -/
def Obligations.WriteTurnedAway : Prop := ∀ (c : Instr) (mid a : Nat) (s : State), softwareWrite c = some (mid, a) →
  match s.meets mid a with
  | .decode => Completes c s fun t =>
      t.rd GLB_STAT_DECERR = 1 ∧ t.word GLB_DECLOG_LO = a % 2 ^ 32 ∧
      t.rd GLB_CNT_DECCNT = min (s.rd GLB_CNT_DECCNT + 1) (2 ^ GLB_CNT_DECCNT.width - 1) ∧
      SameRegs s t [GLB_STAT, GLB_DECLOG_LO, GLB_DECLOG_HI, GLB_CNT] ∧ SameMem s t ∧ t.dev = s.dev
  | .held => Completes c s fun t => t = s
  | .reg b _ => mayWrite b mid a = false → Completes c s fun t =>
      t.rd b.accerr = 1 ∧ t.rd GLB_STAT_ACCANY = 1 ∧ t.word GLB_ACCLOG_LO = a % 2 ^ 32 ∧
      t.rd GLB_CNT_ACCCNT = min (s.rd GLB_CNT_ACCCNT + 1) (2 ^ GLB_CNT_ACCCNT.width - 1) ∧
      SameRegs s t [b.accerr.addr, GLB_STAT, GLB_ACCLOG_LO, GLB_ACCLOG_HI, GLB_CNT] ∧ SameMem s t ∧ t.dev = s.dev
  | _ => True

/-! Work lists. -/

/-- A doorbell moves the ring's accepted tail, or is refused: a tail outside the ring, or one that would make more entries pending than
the ring takes, sets CMDREF and the indices keep their values (R166).  The event counters count one, modulo 2^32, at a write of EVTINC and
at a message (R173). -/
def Obligations.DoorbellsAndEventCounters : Prop :=
  (∀ (s : State) (mid : Mid) (d : Die) (r : Ctx) (v : Word), s.reaches mid.toNat (CD_SCH_DB d r) = true →
    let size := s.ringSize d r
    let tail := bits v.toNat 11 0
    let pend (x : Nat) := (x + size - s.rd (CD_SCH_RPTR_HEAD d r)) % size
    Completes (.schDoorbell mid d r v) s fun t => SameMem s t ∧ t.dev = s.dev ∧
      if tail < size ∧ pend (s.rd (CD_SCH_RPTR_DBTAIL d r)) ≤ pend tail then
        t.rd (CD_SCH_RPTR_DBTAIL d r) = tail ∧ t.rd (CD_SCH_RPTR_HEAD d r) = s.rd (CD_SCH_RPTR_HEAD d r) ∧ SameRegs s t [CD_SCH_RPTR d r]
      else t.rd (CD_SCH_STAT_CMDREF d) = 1 ∧ SameRegs s t [CD_SCH_STAT d]) ∧
  (∀ (s : State) (mid : Mid) (d : Die) (v : Word), s.reaches mid.toNat (CD_SCH_EVTINC d) = true →
    let k := bits v.toNat 3 0
    Completes (.evtinc mid d v) s fun t => t.word (CD_SCH_EVT d k) = (s.word (CD_SCH_EVT d k) + 1) % 2 ^ 32 ∧
      SameRegs s t [CD_SCH_EVT d k] ∧ SameMem s t ∧ t.dev = s.dev) ∧
  (∀ (s : State) (d : Die) (k : EvtNo), s.on (domCD d) = true → bit s.dev.expelled d = false →
    Completes (.eventIncrement d k) s fun t => t.word (CD_SCH_EVT d k) = (s.word (CD_SCH_EVT d k) + 1) % 2 ^ 32 ∧
      SameRegs s t [CD_SCH_EVT d k] ∧ SameMem s t ∧ t.dev = s.dev)

/-- A fetched list without RESUME on a ring that is not real-time: the context takes the entry, GATED where GATE is set and RUNNING
otherwise, and HEAD moves on (R165, R166, R168).  On every ring, RESUME or not, no fetch starts a list with GATE = 1, and where the fetch
leaves the context waiting it reports GATED; a gated context starts once its counter has reached GATEVAL, and stays as it is before (R168). -/
def Obligations.ListsAreFetchedAndGated : Prop :=
  (∀ (s : State) (d : Die) (c : Ctx) (u : Tx) (e : List Byte),
    let t0 := Tx.start s
    let head := s.rd (CD_SCH_RPTR_HEAD d c)
    t0.mayFetch d c = true → t0.rt d c = false →
    t0.vRead d (s.rd (CD_SCH_RCFG_RDEVCTX d c)) (dieMid d) (sext48 (s.pair (CD_SCH_RBASE_LO d c) / 64 * 64) + head * 64) 64 = (u, .ok e) →
    entryBad e false = false → t0.partBusy d c (entF e 0x30 4) (entF e 0x34 4) = false → bit (entF e 0x2F 1) 0 = false →
    Completes (.ringFetch d c) s fun t => (t.ctx d c).ent = e ∧ (t.ctx d c).next = 0 ∧ (t.ctx d c).done = 0 ∧
      (t.ctx d c).st = (if bit (entF e 0x2F 1) 1 then .gated else .running) ∧
      t.rd (CD_SCH_CTX_STATE d c) = (if bit (entF e 0x2F 1) 1 then 1 else 2) ∧ (t.ctx d c).gateevt = entF e 0x3A 1 % 16 ∧ (t.ctx d c).gateval = entF e 0x3C 4 ∧
      t.rd (CD_SCH_RPTR_HEAD d c) = (head + 1) % s.ringSize d c) ∧
  (∀ (s t : State) (d : Die) (c : Ctx), (s.ctx d c).st = .idle → exec (.ringFetch d c) s = .next t → bit (entF (t.ctx d c).ent 0x2F 1) 1 = true →
    (t.ctx d c).st ≠ .running ∧ ((t.ctx d c).st = .gated → t.rd (CD_SCH_CTX_STATE d c) = 1)) ∧
  (∀ (s : State) (d : Die) (c : Ctx), (s.ctx d c).st = .gated → s.word (CD_SCH_EVT d (s.ctx d c).gateevt) < (s.ctx d c).gateval →
    exec (.gateMet d c) s = .next s) ∧
  (∀ (s : State) (d : Die) (c : Ctx), (s.ctx d c).st = .gated → (s.ctx d c).gateval ≤ s.word (CD_SCH_EVT d (s.ctx d c).gateevt) →
    Completes (.gateMet d c) s fun t => (t.ctx d c).st = .running ∧ SameMem s t)

/-- STEP_DECODE: a sound step entry stands decoded in the window, with no fault held (R170, R176). -/
def Obligations.StepsAreDecoded : Prop := ∀ (s : State) (d : Die) (c : Ctx) (j : Nat) (u : Tx) (bs : List Byte),
  let x := s.ctx d c
  let t0 := Tx.start s
  let words := (List.range 48).map fun i => entF bs (4 * i) 4
  x.st = .running → x.toDecode = some j → ((x.step? x.next).all fun y => y.fault.isNone) = true →
  t0.dieRead d x.client x.devctx (x.listaddr + 192 * j) 192 = (u, .ok bs) →
  (⟨words⟩ : StepEntry).decodeFault j x.partbase x.partsize (u.rt d c) (shapeOf (u.unusable d)).isSome (u.strandUnits d)
    (u.powered (domWS d)) = none →
  Completes (.stepDecode d c) s fun t => SameMem s t ∧ ∃ y, (t.ctx d c).step? j = some y ∧ y.words = words ∧ y.fault = none

/-- A compute step that holds its engine's grant runs: the staging bytes it writes take its results, the newest where it writes a byte
twice, every other byte stands, its steps are counted (exactly on the Braid and the whipping engine, at most the worst case elsewhere, R83,
R108, R118, R128), the strand units' conditions are recorded (R109), and no other register changes. -/
def Obligations.ComputeStepsRun : Prop := ∀ (s : State) (d : Die) (c : Ctx) (n : StepNo) (i : Instr) (opc : Nat) (x : StepSt) (e : Unit5),
  (i, opc) ∈ computeCommands d c n → (Tx.start s).grantedAs d c n.toNat opc = some (x, e) →
  let out := x.entry.run (fun a => s.byte (stagingKey d + a)) (s.dev.sch.at d).shape (16 * popcount 4 (s.dev.sch.at d).pairs)
  out.fault = none →
  Completes i s fun t =>
    (∀ a, t.byte a = ((out.writes.reverse.find? fun w => stagingKey d + w.1 == a).map (·.2)).getD (s.byte a)) ∧
    (∃ y k, (t.ctx d c).step? n.toNat = some y ∧ y.phase = .ran k ∧
      if e = .strand ∨ e = .spectral then k ≤ out.steps else k = out.steps) ∧
    t.word (CD_STR_STAT d) = putBits (s.word (CD_STR_STAT d)) 12 8 (bits (s.word (CD_STR_STAT d)) 12 8 ||| out.sticky) ∧
    SameRegs s t [CD_STR_STAT d]

/-- A tile step that the residue checkers find wrong is discarded and counted, its quadrant's bit and counter show it, and no byte of
memory changes (R89). -/
def Obligations.ResidueMismatchDiscards : Prop := ∀ (s : State) (d : Die) (c : Ctx) (n : StepNo) (q : Fin 4) (i : Instr) (opc : Nat) (x : StepSt),
  (i, opc) ∈ [(Instr.matmul d c n (.mismatch q), 0x10), (.conv d c n (.mismatch q), 0x11)] →
  (Tx.start s).grantedAs d c n.toNat opc = some (x, .braid) → bit (s.dev.sch.at d).qact q = true → (s.dev.sch.at d).mism.at q = 0 →
  Completes i s fun t => bit (t.rd (CD_BRD_QSTAT_QERR d)) q = true ∧
    t.rd (CD_BRD_DISCCNT_DISC d) = min (s.rd (CD_BRD_DISCCNT_DISC d) + 1) (2 ^ (CD_BRD_DISCCNT_DISC d).width - 1) ∧
    (s.dev.sch.at d).cur.at 0 = (t.dev.sch.at d).cur.at 0 ∧ SameMem s t

/-- A transfer step whose every transaction is answered has run, and memory stands as the transactions left it (R172).  SIGNAL counts its
own die's event counter; WAIT is under way (R173). -/
def Obligations.TransfersAndSyncStepsRun : Prop :=
  (∀ (s : State) (d : Die) (c : Ctx) (n : StepNo) (i : Instr) (opc : Nat) (x : StepSt) (u : Tx),
    (i, opc) ∈ [(Instr.load d c n, 0x60), (.store d c n, 0x61)] →
    (Tx.start s).readyAs d c n.toNat opc .transfer = some x → (s.ctx d c).transferring = false →
    ((Tx.start s).beginList d c).transferAll d c (opc == 0x60) x.entry.transactions = (u, .ok ()) →
    Completes i s fun t => (∀ a, t.byte a = u.rb a) ∧ ∃ y, (t.ctx d c).step? n.toNat = some y ∧ y.phase = .ran 0) ∧
  (∀ (s : State) (d : Die) (c : Ctx) (n : StepNo) (x : StepSt),
    (Tx.start s).readyAs d c n.toNat 0x70 .sync = some x → bits (x.entry.b 1) 1 0 = d → s.on (domCD d) = true → bit s.dev.expelled d = false →
    let k := bits (x.entry.b 1) 11 8
    Completes (.signal d c n) s fun t => t.word (CD_SCH_EVT d k) = (s.word (CD_SCH_EVT d k) + 1) % 2 ^ 32 ∧ SameMem s t ∧
      ∃ y, (t.ctx d c).step? n.toNat = some y ∧ y.phase = .ran 0) ∧
  (∀ (s : State) (d : Die) (c : Ctx) (n : StepNo) (x : StepSt), (Tx.start s).readyAs d c n.toNat 0x71 .sync = some x →
    Completes (.wait d c n) s fun t => SameMem s t ∧ ∃ y, (t.ctx d c).step? n.toNat = some y ∧ y.phase = .granted)

/-- A step whose work is done, and a WAIT whose counter has reached VALUE, commit once their marker is written: the marker is in memory, and
the step has committed or its list has ended (R173, R174, R176). -/
def Obligations.StepsCommit : Prop := ∀ (s : State) (d : Die) (c : Ctx) (n : StepNo) (x : StepSt) (i : Instr) (u : Tx),
  let y := s.ctx d c
  let t0 := Tx.start s
  y.st = .running → y.step? n.toNat = some x → y.next ≤ n.toNat → n.toNat < y.next + 32 →
  (i = .stepCommit d c n ∧ (∃ k, x.phase = .ran k) ∨
    i = .waitComplete d c n ∧ x.entry.opc = 0x71 ∧ x.phase = .granted ∧ x.entry.b 2 ≤ s.word (CD_SCH_EVT d (bits (x.entry.b 1) 3 0))) →
  t0.dieWrite d y.client y.devctx (y.commitaddr + 8 * n.toNat) (markerBytes y.epoch x.entry.opc n.toNat) = (u, .ok ()) → y.round = false →
  Completes i s fun t => (∀ a, t.byte a = u.rb a) ∧ ((t.ctx d c).committed n.toNat = true ∨ (t.ctx d c).st = .idle)

/-- The context commands in the states that accept them, and CMDREF in any other (R182, R184): SUSPEND stops a running or gated context,
RELEASE after a SAVE and ABORT free it, CONFIRM clears ADOPTPEND, SAVE writes the partition and the record, RESUME runs it again. -/
def Obligations.ContextCommands : Prop :=
  (∀ (s : State) (mid : Mid) (d : Die) (c : Ctx) (i : Instr), s.reaches mid.toNat (CD_SCH_CCMD d) = true →
    let x := s.ctx d c
    (i = .ctxSuspend mid d c ∧ x.st ≠ .running ∧ x.st ≠ .gated ∨ i = .ctxSave mid d c ∧ x.resumable = false ∨
      i = .ctxRelease mid d c ∧ (x.resumable = false ∨ x.saved = false) ∨ i = .ctxResume mid d c ∧ x.resumable = false ∨
      i = .ctxAbort mid d c ∧ x.st = .idle) →
    Completes i s fun t => t.rd (CD_SCH_STAT_CMDREF d) = 1 ∧ SameRegs s t [CD_SCH_STAT d] ∧ SameMem s t ∧ t.dev = s.dev) ∧
  (∀ (s : State) (mid : Mid) (d : Die) (c : Ctx), s.reaches mid.toNat (CD_SCH_CCMD d) = true → (s.ctx d c).st = .running ∨ (s.ctx d c).st = .gated →
    Completes (.ctxSuspend mid d c) s fun t => (t.ctx d c).st = .stopping ∧ (t.ctx d c).reason = (s.ctx d c).reason ||| 2 ∧
      t.rd (CD_SCH_CTX_STATE d c) = 3 ∧ SameMem s t) ∧
  (∀ (s : State) (mid : Mid) (d : Die) (c : Ctx), s.reaches mid.toNat (CD_SCH_CCMD d) = true → (s.ctx d c).resumable = true → (s.ctx d c).saved = true →
    Completes (.ctxRelease mid d c) s fun t => (t.ctx d c).st = .idle ∧ t.rd (CD_SCH_CTX_STATE d c) = 0 ∧
      (∀ r ∈ (t.dev.sch.at d).recs, r.ctx = c → r.released = true) ∧ SameMem s t) ∧
  (∀ (s : State) (mid : Mid) (d : Die) (c : Ctx), s.reaches mid.toNat (CD_SCH_CCMD d) = true → (s.ctx d c).st ≠ .idle → (s.ctx d c).round = false →
    Completes (.ctxAbort mid d c) s fun t => (t.ctx d c).st = .idle ∧ (t.ctx d c).steps = [] ∧ SameMem s t) ∧
  (∀ (s : State) (mid : Mid) (d : Die) (c : Ctx), s.reaches mid.toNat (CD_SCH_CCMD d) = true →
    Completes (.ctxConfirm mid d c) s fun t => t.rd (CD_SCH_RRAUD_ADOPTPEND d) = 0 ∧ SameRegs s t [CD_SCH_RRAUD d] ∧ SameMem s t ∧ t.dev = s.dev) ∧
  (∀ (s : State) (mid : Mid) (d : Die) (c : Ctx), s.reaches mid.toNat (CD_SCH_CCMD d) = true → (s.ctx d c).resumable = true →
    (s.ctx d c).next < (s.ctx d c).nsteps → s.rd (CD_SCH_RCFG_RT d c) = 0 →
    Completes (.ctxResume mid d c) s fun t => ((t.ctx d c).st = .running ∨ (t.ctx d c).st = .gated) ∧ (t.ctx d c).next = (s.ctx d c).next ∧
      (t.ctx d c).done = (s.ctx d c).done ∧ (t.ctx d c).saved = false ∧ SameMem s t) ∧
  (∀ (s : State) (mid : Mid) (d : Die) (c : Ctx) (r : Rec) (u v : Tx), s.reaches mid.toNat (CD_SCH_CCMD d) = true →
    let x := s.ctx d c
    let t0 := Tx.start s
    x.resumable = true → (s.dev.sch.at d).recOf c = some r → x.round = false →
    t0.dieWrite d x.client x.devctx (x.saveaddr + 256) (t0.rdBytes (stagingKey d + x.partbase) x.partsize) = (u, .ok ()) →
    u.dieWrite d x.client x.devctx x.saveaddr (recWithSaved r.bytes x.partsize) = (v, .ok ()) →
    Completes (.ctxSave mid d c) s fun t => (∀ a, t.byte a = v.rb a) ∧ (t.ctx d c).saved = true ∧ (t.ctx d c).st = x.st)

/-- A context whose steps in flight have ended leaves STOPPING with its restart record written: SUSPENDED where only a SUSPEND asked for it,
STOPPED with its fault shown where a step faulted (R182, R183, R196). -/
def Obligations.RestartRecordsAreWritten : Prop := ∀ (s : State) (d : Die) (c : Ctx),
  let x := s.ctx d c
  x.st = .stopping → x.inFlight = [] → (s.dev.sch.at d).freeSlot.isSome = true → x.round = false → bit x.reason 2 = false → bit x.reason 4 = false →
  Completes (.restartRecordWrite d c) s fun t =>
    (t.ctx d c).st = (if bit x.reason 0 then .stopped else .suspended) ∧
    (bit x.reason 0 = true → t.rd (CD_SCH_CFLT_FCODE d c) = x.fcode % 256 ∧ bit (t.rd (CD_SCH_STAT_CFAULT d)) c = true) ∧
    (∃ r ∈ (t.dev.sch.at d).recs, r.ctx = c ∧ r.released = false ∧ r.bytes = (Tx.start s).makeRecord d c) ∧ SameMem s t

/-- The switches of a die: RTFENCE and QFENCE are the steward's alone to change (R640), QOFF and PAIROFF are its and the cores'; a fence stops
the die's real-time contexts (R90, R91, R131, R191). -/
def Obligations.DieSwitches : Prop :=
  (∀ (s : State) (mid : Mid) (d : Die) (v : Word), s.reaches mid.toNat (CD_SCH_CTL d) = true →
    let f := CD_SCH_CTL_RTFENCE d
    Completes (.rtfenceWrite mid d v) s fun t => SameMem s t ∧
      t.rd f = (if mid.toNat = steward then bits v.toNat f.hi f.lo else s.rd f) ∧
      (s.rd f = 0 → t.rd f = 1 → ∀ c : Ctx, s.rd (CD_SCH_RCFG_RT d c) = 1 → (s.ctx d c).st = .running ∨ (s.ctx d c).st = .gated →
        (t.ctx d c).st = .stopping ∧ bit (t.ctx d c).reason 2 = true)) ∧
  (∀ (s : State) (mid : Mid) (d : Die) (v : Word), s.reaches mid.toNat (CD_BRD_QCTL d) = true →
    let f := CD_BRD_QCTL_QFENCE d
    let g := CD_BRD_QCTL_QOFF d
    ∀ i ∈ [Instr.qfenceWrite mid d v, .qoffWrite mid d v], Completes i s fun t => SameMem s t ∧
      t.rd f = (if mid.toNat = steward then bits v.toNat f.hi f.lo else s.rd f) ∧ t.rd g = bits v.toNat g.hi g.lo) ∧
  (∀ (s : State) (mid : Mid) (d : Die) (v : Word), s.reaches mid.toNat (CD_STR_CTL d) = true →
    let f := CD_STR_CTL_PAIROFF d
    Completes (.pairoffWrite mid d v) s fun t => SameMem s t ∧ t.rd f = bits v.toNat f.hi f.lo)

/-! Sequences, accounting and rates. -/

/-- JOIN, LEAVE and ADOPT move an entry of the sequence table from one state to another and the audit follows; from any other state they are
refused with CMDREF; FRESH marks an entry and CONFIRM clears the count of adopted ones (R205, R206, R229).  TAKE and GIVE ask for the
builder's mode and the runtime's, KICK restarts the takeover count, and each is refused in the other mode; a tick in runtime mode counts, and once
KICKTO ticks have passed without a KICK the builder takes over (R207, R229). -/
def Obligations.SequencesAndTheBuilder : Prop :=
  (∀ (s : State) (mid : Mid) (d : Die) (e : Entry) (i : Instr) (src dst : Nat), s.reaches mid.toNat (CD_SEQ_CMD d) = true →
    (i, src, dst) ∈ [(Instr.join mid d e, seqFree, seqJoin), (.leave mid d e, seqActive, seqLeave), (.adopt mid d e, seqFree, seqActive)] →
    Completes i s fun t => SameMem s t ∧ t.dev = s.dev ∧
      if s.rd (CD_SEQ_ENT0_STATE d e) = src then
        t.rd (CD_SEQ_ENT0_STATE d e) = dst ∧ t.rd (seqAudit d src) = s.rd (seqAudit d src) - 1 ∧
        t.rd (seqAudit d dst) = (s.rd (seqAudit d dst) + 1) % 512 ∧
        (t.rd (CD_SEQ_AUD2_SEQPEND d) = if i = .adopt mid d e then min (s.rd (CD_SEQ_AUD2_SEQPEND d) + 1) 511 else s.rd (CD_SEQ_AUD2_SEQPEND d)) ∧
        SameRegs s t [CD_SEQ_ENT0 d e, CD_SEQ_AUD0 d, CD_SEQ_AUD1 d, CD_SEQ_AUD2 d]
      else t.rd (CD_SEQ_STAT_CMDREF d) = 1 ∧ SameRegs s t [CD_SEQ_STAT d]) ∧
  (∀ (s : State) (mid : Mid) (d : Die) (e : Entry), s.reaches mid.toNat (CD_SEQ_CMD d) = true →
    Completes (.fresh mid d e) s fun t => t.rd (CD_SEQ_ENT0_FRESH d e) = 1 ∧ SameRegs s t [CD_SEQ_ENT0 d e] ∧ SameMem s t ∧ t.dev = s.dev) ∧
  (∀ (s : State) (mid : Mid) (d : Die), s.reaches mid.toNat (CD_SEQ_CMD d) = true →
    Completes (.seqConfirm mid d) s fun t => t.rd (CD_SEQ_AUD2_SEQPEND d) = 0 ∧ SameRegs s t [CD_SEQ_AUD2 d] ∧ SameMem s t ∧ t.dev = s.dev) ∧
  (∀ (s : State) (mid : Mid) (d : Die), s.reaches mid.toNat (CD_SEQ_CMD d) = true →
    Completes (.take mid d) s fun t => SameMem s t ∧
      if s.rd (CD_SEQ_STAT_MODE d) = 1 then t.rd (CD_SEQ_STAT_CMDREF d) = 1 ∧ t.dev = s.dev
      else (t.dev.sch.at d).takePend = true ∧ SameRegs s t []) ∧
  (∀ (s : State) (mid : Mid) (d : Die), s.reaches mid.toNat (CD_SEQ_CMD d) = true →
    Completes (.give mid d) s fun t => SameMem s t ∧ SameRegs s t [CD_SEQ_STAT d] ∧
      if s.rd (CD_SEQ_STAT_MODE d) = 0 then t.rd (CD_SEQ_STAT_CMDREF d) = 1
      else if s.rd (CD_SEQ_STAT_RBUSY d) = 1 then (t.dev.sch.at d).givePend = true
      else t.rd (CD_SEQ_STAT_MODE d) = 0 ∧ t.rd (CD_SEQ_STAT_HANDBACK d) = 1) ∧
  (∀ (s : State) (mid : Mid) (d : Die) (v : Word), s.reaches mid.toNat (CD_SEQ_KICK d) = true → bit v.toNat 0 = true →
    Completes (.kick mid d v) s fun t => SameMem s t ∧
      if s.rd (CD_SEQ_STAT_MODE d) = 1 then t.rd (CD_SEQ_STAT_CMDREF d) = 1 else (t.dev.sch.at d).kicks = 0 ∧ SameRegs s t []) ∧
  (∀ (s : State) (d : Die), s.on (domCD d) = true → s.rd (CD_SEQ_STAT_MODE d) = 0 → (s.dev.sch.at d).takePend = false →
    Completes (.builderTick d) s fun t => (t.dev.sch.at d).kicks = (s.dev.sch.at d).kicks + 1 ∧ SameRegs s t [] ∧ SameMem s t) ∧
  (∀ (s : State) (d : Die), s.on (domCD d) = true → s.rd (CD_SEQ_STAT_MODE d) = 0 → s.rd (CD_SEQ_CTL_BEN d) = 1 →
    s.rd (CD_SEQ_CTL_KICKTO d) ≠ 0 → s.rd (CD_SEQ_CTL_KICKTO d) ≤ (s.dev.sch.at d).kicks →
    (s.ctx d (s.rd (CD_SEQ_CTL_RING d))).st ≠ .idle →
    Completes (.takeover d) s fun t => t.rd (CD_SEQ_STAT_MODE d) = 1 ∧ t.rd (CD_SEQ_STAT_TAKEOVER d) = 1 ∧ SameMem s t ∧
      t.rd (CD_SEQ_AUD2_OVRCNT d) = min (s.rd (CD_SEQ_AUD2_OVRCNT d) + 1) (2 ^ 16 - 1))

/-- Apportioned energy is conserved: where the classes' energies and the idle energy of a die sum to its total before a tick, they do so after
it, while no counter is at its limit (R224, R225). -/
def Obligations.EnergyTickKeepsTheBooks : Prop := ∀ (s : State) (d : Die) (energies : List Nat),
  let sum (t : State) := ((List.range 64).map fun c => t.pair (CD_ACT_ENERGY_LO d c)).sum + t.pair (CD_ACT_IDLE_LO d)
  sum s = s.pair (CD_ACT_ETOT_LO d) → s.pair (CD_ACT_ETOT_LO d) < 2 ^ 63 →
  (∀ k < 10, (s.dev.sch.at d).residue.at k < 1000) → (∀ x ∈ energies, x < 2 ^ 50) →
  Completes (.energyTick energies) s fun t => sum t = t.pair (CD_ACT_ETOT_LO d) ∧ SameMem s t ∧
    t.pair (CD_ACT_ETOT_LO d) = s.pair (CD_ACT_ETOT_LO d) +
      (if s.on (domCD d) then ((List.range 10).map fun k => ((s.dev.sch.at d).residue.at k + energies.getD (10 * d + k) 0) / 1000).sum else 0)

/-- The cores and the steward set and clear floor hold (R143, R640); the end of a rate window shows the measured rate and the least since the
snapshot (R141, R161). -/
def Obligations.RatesAndFloorHold : Prop :=
  (∀ (s : State) (mid : Mid) (d : Die) (v : Word), s.reaches mid.toNat (RTM_CTL (cdRtm d)) = true →
    Completes (.holdWrite mid d v) s fun t => t.rd (RTM_CTL_HOLD (cdRtm d)) = bits v.toNat 0 0 ∧ SameMem s t) ∧
  (∀ (s : State) (u : Fin 8) (count : Nat), s.on (rtmDom u) = true → s.now % 10000 = 0 → (s.dev.rtm.at u).last ≠ 0 →
    (s.dev.rtm.at u).last ≠ s.now + 1 →
    Completes (.rateWindow u count) s fun t => t.rd (RTM_RATE_RATE (rtmOf u)) = min (count / 10) 65535 ∧ t.rd (RTM_RATE_VALID (rtmOf u)) = 1 ∧
      t.rd (RTM_RMIN_RMIN (rtmOf u)) = min (s.rd (RTM_RMIN_RMIN (rtmOf u))) (min (count / 10) 65535) ∧
      t.rd (RTM_STAT_ABOVE (rtmOf u)) = (if 800 ≤ min (count / 10) 65535 then 1 else 0) ∧ SameMem s t)

/-- At the end of a window every regulator's counts restart, and one that was starved below its effective guarantee records a miss (R316,
R317); the engine computes every guarantee anew, never above the configured one, and exactly that where no direction it uses is overloaded
(R319). -/
def Obligations.RegulatorWindows : Prop :=
  (∀ (s : State) (starved : List (Fin 14 × Fin 8 × Bool)), (∀ e ∈ s.dev.regNext, (e.1, e.2.1) ∈ allRegs) →
    Completes (.regulatorWindow starved) s fun t => SameMem s t ∧ t.dev.regNext = [] ∧
    (∀ r ∈ allRegs, t.word (REG_AUD r.1 r.2) = 0 ∧ t.word (REG_AUD2 r.1 r.2) = 0) ∧
    (∀ n i w, (n, i, w) ∈ starved →
      let b := regBlock n
      (if isMcReg b then s.rd (REG_AUD_USEDR b i) + s.rd (REG_AUD_USEDW b i) else s.rd (if w then REG_AUD_USEDW b i else REG_AUD_USEDR b i)) <
        s.rd (if w && !isMcReg b then REG_EFF_GWEFF b i else REG_EFF_GREFF b i) →
      t.rd (REG_STAT_MISS b i) = 1)) ∧
  (∀ s : State, Completes .regulatorRecompute s fun t => SameMem s t ∧ SameRegs s t [] ∧ (∀ e ∈ t.dev.regNext, (e.1, e.2.1) ∈ allRegs) ∧
    (∀ b i eff cause, (b, i, eff, cause) ∈ t.dev.regNext → isMcReg b = false →
      bits eff 15 0 ≤ s.rd (REG_CFG_GR b i) ∧ bits eff 31 16 ≤ s.rd (REG_CFG_GW b i)) ∧
    (∀ r ∈ engineRegs, (Tx.start s).cutting (Tx.start s).loads r.1 r.2 false = [] → (Tx.start s).cutting (Tx.start s).loads r.1 r.2 true = [] →
      (r.1, r.2, s.rd (REG_CFG_GR r.1 r.2) + 2 ^ 16 * s.rd (REG_CFG_GW r.1 r.2), 0) ∈ t.dev.regNext))

/-! Registers. -/

/-- The fields of every register row lie apart within its 32 bits (R12, R15), and a write is applied to every field under the field's own class, in
one action: RW and RWH take the value, LCK only until the block's lock is set, a W1C bit clears where a 1 is written, RO, WO and CNT keep what
they held; reserved bits and every other register stand (R15, R17, R628). -/
def Obligations.FieldsTakeAWriteByTheirClass : Prop := ∀ (b : Blk) (r : RegRow),
  (∀ a, blockAt a = some b → r ∈ b.rows → (r.flds.Pairwise fun f g => f.hi < g.lo ∨ g.hi < f.lo) ∧ ∀ f ∈ r.flds, f.lo ≤ f.hi ∧ f.hi < 32) ∧
  ∀ (t : Tx) (a v : Nat), blockAt a = some b → b.rowAt a = some r →
  let u := t.applyWrite r a v
  (∀ f ∈ r.flds, u.rd ⟨a, f.hi, f.lo⟩ = match f.acc with
    | .rw | .rwh => bits v f.hi f.lo
    | .lck => if t.lockedAt a then t.rd ⟨a, f.hi, f.lo⟩ else bits v f.hi f.lo
    | .w1c => t.rd ⟨a, f.hi, f.lo⟩ &&& (bits v f.hi f.lo ^^^ (2 ^ (f.hi + 1 - f.lo) - 1))
    | .ro | .wo | .cnt => t.rd ⟨a, f.hi, f.lo⟩) ∧
  (∀ k < 32, (∀ f ∈ r.flds, k < f.lo ∨ f.hi < k) → bit (u.word a) k = bit (t.word a) k) ∧ (∀ x, x ≠ a → u.word x = t.word x)

/-- A register without a command row of its own takes a software write; a lock sets with the fields its write carries, and freezes them
(R627); SNAP copies the counters to the alias and clears them (R630). -/
def Obligations.WritesLocksAndSnapshots : Prop :=
  (∀ (s : State) (mid : Mid) (v : BitVec 64) (a : Nat), a ∈ [TB_SYNCTO, GLB_SCRATCH 0, GLB_SCRATCH 1, TB_CTL] → s.reaches mid.toNat a = true →
    Completes (.registerWrite mid (BitVec.ofNat 48 a) 4 v) s fun t => SameRegs s t [a] ∧ SameMem s t ∧ t.dev = s.dev ∧
      if a = TB_SYNCTO then t.rd TB_SYNCTO_SYNCTO = bits v.toNat 15 0
      else if a = TB_CTL then t.rd TB_CTL_PTPPORT = bits v.toNat 7 4 ∧ t.rd TB_CTL_PTPEN = bits v.toNat 0 0
      else t.word a = v.toNat % 2 ^ 32) ∧
  (∀ (s : State) (mid : Mid) (lock : Fin 6) (v : Word), lock ≠ 2 → s.reaches mid.toNat (lockRef lock).addr = true →
    Completes (.lockSet mid lock v) s fun t => t.rd (lockRef lock) = 1 ∧ SameRegs s t [(lockRef lock).addr, HD_SHF_STAT] ∧ (lock.val ≥ 3 → SameMem s t) ∧
      (lock = 0 → t.rd HD_SHF_GCFG_INTL = if s.rd HD_SHF_GCFG_LOCK = 1 then s.rd HD_SHF_GCFG_INTL else bits v.toNat HD_SHF_GCFG_INTL.hi HD_SHF_GCFG_INTL.lo) ∧
      (lock = 1 → t.rd HD_DMAP_CFG_LOCSZ = if s.rd HD_DMAP_CFG_LOCK = 1 then s.rd HD_DMAP_CFG_LOCSZ else bits v.toNat HD_DMAP_CFG_LOCSZ.hi HD_DMAP_CFG_LOCSZ.lo)) ∧
  (∀ (s : State) (mid : Mid), s.reaches mid.toNat GLB_CMD = true →
    Completes (.snap mid (BitVec.ofNat 48 GLB_CMD)) s fun t => t.word (GLB_CNT + aliasOff) = s.word GLB_CNT ∧ t.word GLB_CNT = 0 ∧
      SameRegs s t [GLB_CNT, GLB_CNT + aliasOff] ∧ SameMem s t ∧ t.dev = s.dev)

/-- A read of a pair's low word latches its high word for the reader; the next read of the high word answers the latch to that master and the
live value to any other (R14, R629); a narrow read answers 0 and leaves its mark (R12); a debug read answers the live value and changes no
register but NOPEEK and POISON (R18, R585). -/
def Obligations.ReadsAndLatches : Prop :=
  (∀ (s : State) (mid : Mid), s.on domAON = true → cfgMid mid.toNat = true → mid.toNat ≠ debugMid →
    (Completes (.lowWordRead mid (BitVec.ofNat 48 TB_NOW_LO) 4) s fun t =>
      t.dev.latches.at TB_NOW_LO = ⟨mid.toNat, s.now / 2 ^ 32 % 2 ^ 32, true⟩ ∧
      t.dev.out = s.dev.out ++ [⟨"CFG", "DATA", [mid.toNat, TB_NOW_LO, s.now % 2 ^ 32]⟩] ∧ SameRegs s t [] ∧ SameMem s t) ∧
    (Completes (.lowWordRead mid (BitVec.ofNat 48 TB_NOW_HI) 4) s fun t =>
      let l := s.dev.latches.at TB_NOW_LO
      t.dev.out = s.dev.out ++ [⟨"CFG", "DATA", [mid.toNat, TB_NOW_HI, if l.held = true ∧ l.mid = mid.toNat then l.high else s.now / 2 ^ 32 % 2 ^ 32]⟩] ∧
      t.dev.latches = s.dev.latches ∧ SameRegs s t [] ∧ SameMem s t) ∧
    (Completes (.lowWordRead mid (BitVec.ofNat 48 TB_NOW_LO) 2) s fun t =>
      t.dev.out = s.dev.out ++ [⟨"CFG", "DATA", [mid.toNat, TB_NOW_LO, 0]⟩] ∧ t.rd TB_STAT_ACCERR = 1 ∧ t.dev.latches = s.dev.latches ∧
      SameRegs s t [TB_STAT, GLB_STAT, GLB_ACCLOG_LO, GLB_ACCLOG_HI, GLB_CNT] ∧ SameMem s t)) ∧
  (∀ s : State, s.on domAON = true → 1 ≤ s.rd DBG_STAT_LEVEL →
    Completes (.debugRead (BitVec.ofNat 48 TB_NOW_LO) 4) s fun t =>
      t.dev = { s.dev with out := s.dev.out ++ [⟨"DEBUG", "DATA", [TB_NOW_LO, s.now % 2 ^ 32]⟩] } ∧ SameRegs s t [] ∧ SameMem s t) ∧
  (∀ (s : State) (a : Addr) (n : Fin 9) (q : Nat), 1 ≤ s.rd DBG_STAT_LEVEL → a.toNat < dramEnd → (Tx.start s).physRead debugMid a.toNat n = .poison q →
    Completes (.debugRead a n) s fun t => t.rd DBG_STAT_NOPEEK = 1 ∧ t.rd DBG_STAT_POISON = 1 ∧ SameRegs s t [DBG_STAT] ∧ SameMem s t ∧
      t.dev.out = s.dev.out ++ [⟨"DEBUG", "DATA", [a.toNat, 0]⟩])

/-! Time. -/

/-- The gPTP messages on PTPPORT: the two-step Sync and its Follow_Up make one difference of gPTP and device time, the peer-delay messages make
the link delay (R334); lock comes with eight residuals of at most 500 ns in a row and goes with one above 10 µs, or without a Sync for SYNCTO
ms (R335). -/
def Obligations.TimeFollowsTheGrandmaster : Prop :=
  (∀ (s : State) (port : EthPort) (seq : BitVec 16) (o : Nat) (x : Int), (Tx.start s).ptpOn port = true →
    Completes (.sync port true seq o x) s fun t => t.dev.ptp = { s.dev.ptp with sync := some (seq.toNat, s.now - s.rd (ING_ETHLAT_LAT port)) } ∧
      SameRegs s t [] ∧ SameMem s t) ∧
  (∀ (s : State) (port : EthPort) (seq : BitVec 16) (origin stamp : Nat) (x : Int), (Tx.start s).ptpOn port = true →
    s.dev.ptp.sync = some (seq.toNat, stamp) →
    let diff : Int := origin + x + s.dev.ptp.delay - stamp
    let hist := (diff :: s.dev.ptp.hist).take 8
    let residual := (diff - Config.offsetFilter hist).natAbs
    let good := if residual ≤ 500 then s.dev.ptp.good + 1 else 0
    Completes (.followUp port seq origin x) s fun t =>
      t.dev.ptp.sync = none ∧ t.dev.ptp.hist = hist ∧ t.dev.ptp.last = s.now ∧ t.now = s.now ∧ SameMem s t ∧
      SameRegs s t [TB_STAT, TB_OFS_LO, TB_OFS_HI, TB_RATE, IRQ_STAT] ∧
      (s.rd TB_STAT_LOCKED = 1 → 10000 < residual → t.rd TB_STAT_LOCKED = 0 ∧ t.rd TB_STAT_LOCKLOST = 1 ∧ t.dev.ptp.frozen = true ∧
        t.pair TB_OFS_LO = s.pair TB_OFS_LO) ∧
      (s.rd TB_STAT_LOCKED = 1 → residual ≤ 10000 → t.rd TB_STAT_LOCKED = 1 ∧ t.pair TB_OFS_LO = scode 64 (Config.offsetFilter hist)) ∧
      (s.rd TB_STAT_LOCKED = 0 → (t.rd TB_STAT_LOCKED = 1 ↔ 8 ≤ good)) ∧
      (s.rd TB_STAT_LOCKED = 0 → 8 ≤ good → t.rd TB_STAT_LOCKGAIN = 1 ∧ t.dev.ptp.frozen = false ∧ (s.dev.ptp.frozen = true → t.rd TB_STAT_OFSTEP = 1))) ∧
  (∀ (s : State) (port : EthPort) (p : Nat), (Tx.start s).ptpOn port = true →
    Completes (.announce port p) s fun t => t.dev.ptp.gm = some (min p (s.dev.ptp.gm.getD p)) ∧ SameRegs s t [] ∧ SameMem s t) ∧
  (∀ (s : State) (port : EthPort) (seq : BitVec 16), (Tx.start s).ptpOn port = true →
    Completes (.pdelayReq port seq) s fun t => ∃ sent, t.dev.out = s.dev.out ++
      [⟨"ETH", "PDELAY_RESP", [port.val, seq.toNat, s.now - s.rd (ING_ETHLAT_LAT port)]⟩, ⟨"ETH", "PDELAY_RESP_FOLLOW_UP", [port.val, seq.toNat, sent]⟩] ∧
      SameRegs s t [] ∧ SameMem s t) ∧
  (∀ (s : State) (port : EthPort) (seq : BitVec 16) (received : Nat), (Tx.start s).ptpOn port = true →
    Completes (.pdelayResp port seq received) s fun t =>
      ∃ left, t.dev.ptp.pdelay = some (seq.toNat, left, received, s.now - s.rd (ING_ETHLAT_LAT port)) ∧ SameRegs s t [] ∧ SameMem s t) ∧
  (∀ (s : State) (port : EthPort) (seq : BitVec 16) (sent t1 t2 t4 : Nat), (Tx.start s).ptpOn port = true →
    s.dev.ptp.pdelay = some (seq.toNat, t1, t2, t4) →
    Completes (.pdelayRespFollowUp port seq sent) s fun t => t.dev.ptp.delay = ((t4 : Int) - t1 - (sent - t2)) / 2 ∧ t.dev.ptp.pdelay = none ∧
      SameRegs s t [] ∧ SameMem s t) ∧
  (∀ s : State, s.rd TB_STAT_LOCKED = 1 → s.dev.ptp.last + max 1 (s.rd TB_SYNCTO_SYNCTO) * 1000000 ≤ s.now →
    Completes .syncTimeout s fun t => t.rd TB_STAT_LOCKED = 0 ∧ t.rd TB_STAT_LOCKLOST = 1 ∧ t.dev.ptp.frozen = true ∧
      SameRegs s t [TB_STAT, IRQ_STAT] ∧ SameMem s t)

/-! The Shelf, the system cache and translation. -/

/-- A powered group becomes READY with its lines at zero (R238); a scrub read corrects a line or poisons it once (R239); a write of SCRWAYS
starts the change of the scratch partition that its end completes, new ways beginning as zero (R247). -/
def Obligations.ShelfAndScratch : Prop :=
  (∀ (s : State) (n : Die) (g : Fin 3), s.on (domSH n g) = true → bit (s.rd HD_SHF_STAT_READY) (3 * n + g) = false → s.dev.tst.lease = none →
    Completes (.shelfInitDone n g) s fun t => bit (t.rd HD_SHF_STAT_READY) (3 * n + g) = true ∧ bit (t.rd (BT_SHF_STAT_INIT n)) g = true ∧
      (∀ o < 0x4000000, t.byte (shelfKey n g o) = 0) ∧ SameMemBut s t (shelfKey n g 0) 0x4000000 ∧ SameRegs s t [HD_SHF_STAT, BT_SHF_STAT n]) ∧
  (∀ (s : State) (n : Die) (g : Fin 3) (line : BitVec 20) (e : Ecc), bit (s.rd HD_SHF_STAT_READY) (3 * n + g) = true →
    (Tx.start s).poisoned (shelfKey n g (line.toNat * 64)) = false →
    Completes (.shelfScrub n g line e) s fun t => SameMem s t ∧ match e with
      | .clean => t = s
      | .corrected => t.rd (BT_SHF_CECNT_CECNT n) = min (s.rd (BT_SHF_CECNT_CECNT n) + 1) (2 ^ 32 - 1) ∧ t.rd (BT_SHF_STAT_CE n) = 1 ∧
          SameRegs s t [BT_SHF_CECNT n, BT_SHF_STAT n] ∧ t.dev.poison = s.dev.poison
      | .uncorrectable => t.rd (BT_SHF_UECNT_UECNT n) = min (s.rd (BT_SHF_UECNT_UECNT n) + 1) (2 ^ 32 - 1) ∧ t.rd (BT_SHF_STAT_UE n) = 1 ∧
          t.rd (BT_SHF_ELOG_GROUP n) = g ∧ t.rd (BT_SHF_ELOG_LINE n) = line.toNat ∧
          t.dev.poison = shelfKey n g (line.toNat * 64) / 64 :: s.dev.poison) ∧
  (∀ (s : State) (mid : Mid) (v : Word), s.reaches mid.toNat HD_SC_CTL = true →
    let ways := bits v.toNat 3 0
    Completes (.scrwaysWrite mid v) s fun t =>
      if s.rd HD_SC_STAT_CONV = 1 ∨ 8 < ways then t.rd HD_SC_STAT_CMDREF = 1 ∧ SameRegs s t [HD_SC_STAT] ∧ SameMem s t
      else t.rd HD_SC_CTL_SCRWAYS = ways ∧ SameRegs s t [HD_SC_CTL, HD_SC_STAT] ∧ t.rd HD_SC_STAT_CONV = (if ways = s.rd HD_SC_STAT_SCRACT then 0 else 1) ∧
        t.rd HD_SC_STAT_SCRACT = min ways (s.rd HD_SC_STAT_SCRACT)) ∧
  (∀ s : State, s.rd HD_SC_STAT_CONV = 1 → s.rd HD_SC_STAT_SCRACT ≤ s.rd HD_SC_CTL_SCRWAYS →
    Completes .scratchConvDone s fun t => t.rd HD_SC_STAT_CONV = 0 ∧ t.rd HD_SC_STAT_CONVDONE = 1 ∧ t.rd HD_SC_STAT_SCRACT = s.rd HD_SC_CTL_SCRWAYS ∧
      (∀ a, scrBase + s.rd HD_SC_STAT_SCRACT * 0x400000 ≤ a → a < scrBase + s.rd HD_SC_CTL_SCRWAYS * 0x400000 → t.byte a = 0) ∧
      SameRegs s t [HD_SC_STAT])

/-- A unit changes only EN while it is enabled (R263); an invalidation drops what its operation names and no more, and ends by INV_DONE (R255); a
LOCK starts a walk whose end installs the leaf or says why not, an unlock removes the entry (R254); a busy unit refuses. -/
def Obligations.TranslationUnits : Prop :=
  (∀ (s : State) (mid : Mid) (u : XltUnit) (v : Word), s.reaches mid.toNat (XLT_CTL (xltBase u)) = true →
    Completes (.xltCtlWrite mid u v) s fun t => t.rd (XLT_CTL_EN (xltBase u)) = bits v.toNat 0 0 ∧ SameMem s t ∧ t.dev = s.dev ∧
      SameRegs s t [XLT_CTL (xltBase u), XLT_STAT (xltBase u)] ∧
      if s.rd (XLT_CTL_EN (xltBase u)) = 1 then
        t.rd (XLT_CTL_LOG2NDC (xltBase u)) = s.rd (XLT_CTL_LOG2NDC (xltBase u)) ∧
        (bits v.toNat 4 1 ≠ s.rd (XLT_CTL_LOG2NDC (xltBase u)) → t.rd (XLT_STAT_CMDREF (xltBase u)) = 1)
      else t.rd (XLT_CTL_LOG2NDC (xltBase u)) = bits v.toNat 4 1) ∧
  (∀ (s : State) (mid : Mid) (u : XltUnit) (ctx : BitVec 16) (bcast : Bool) (i : Instr) (op : Nat),
    s.reaches mid.toNat (XLT_INV (xltBase u)) = true → (u = 4 → bcast = false) →
    (i, op) ∈ [(Instr.invDevctx mid u ctx bcast, 1), (.invTranslations mid u ctx bcast, 2), (.invAddress mid u ctx bcast, 3),
      (.invAll mid u bcast, 4), (.invAllLocked mid u bcast, 5)] →
    let x := s.dev.xlt.at u
    let va := s.pair (XLT_INVVA_LO (xltBase u))
    Completes i s fun t => SameMem s t ∧ SameRegs s t [XLT_STAT (xltBase u), XLT_LKAUD (xltBase u)] ∧
      if (Tx.start s).xltBusy u then t.rd (XLT_STAT_CMDREF (xltBase u)) = 1 ∧ t.dev = s.dev
      else t.rd (XLT_STAT_INVBUSY (xltBase u)) = 1 ∧
        (t.dev.xlt.at u).tlb = x.tlb.filter (fun f => match op with
          | 1 | 2 => f.ctx != ctx.toNat
          | 3 => !f.covers ctx.toNat va
          | _ => false) ∧
        (t.dev.xlt.at u).dcs = x.dcs.filter (fun e => match op with
          | 1 => e.1 != ctx.toNat
          | 2 | 3 => true
          | _ => false) ∧
        (t.dev.xlt.at u).locked = if op = 5 then [] else x.locked) ∧
  (∀ (s : State) (mid : Mid) (k : Fin 4),
    s.reaches mid.toNat (XLT_INV (xltBase 4)) = true → (Tx.start s).xltBusy 4 = false → s.on (domCD k) = true → (Tx.start s).xltBusy k = false →
    Completes (.invAll mid 4 true) s fun t => (t.dev.xlt.at k).tlb = [] ∧ (t.dev.xlt.at k).dcs = [] ∧ (t.dev.xlt.at k).locked = (s.dev.xlt.at k).locked ∧
      t.rd (XLT_STAT_INVBUSY (xltBase k)) = 1 ∧ SameMem s t) ∧
  (∀ (s : State) (u : XltUnit), s.rd (XLT_STAT_INVBUSY (xltBase u)) = 1 → (s.dev.xlt.at 4).bcast = false →
    Completes (.invDone u) s fun t => t.rd (XLT_STAT_INVBUSY (xltBase u)) = 0 ∧ SameRegs s t [XLT_STAT (xltBase u)] ∧ SameMem s t) ∧
  (∀ (s : State) (mid : Mid) (u : XltUnit) (ctx : BitVec 16), s.reaches mid.toNat (XLT_LOCK (xltBase u)) = true → (Tx.start s).xltBusy u = false →
    let va := sext48 (s.pair (XLT_LOCKVA_LO (xltBase u)))
    (Completes (.xltLock mid u ctx) s fun t => t.rd (XLT_STAT_LKBUSY (xltBase u)) = 1 ∧ (t.dev.xlt.at u).walk = some (ctx.toNat, va) ∧
      (t.dev.xlt.at u).locked = (s.dev.xlt.at u).locked ∧ SameRegs s t [XLT_STAT (xltBase u)] ∧ SameMem s t) ∧
    (Completes (.xltUnlock mid u ctx) s fun t =>
      (t.dev.xlt.at u).locked = (s.dev.xlt.at u).locked.filter (fun f => !f.covers ctx.toNat va) ∧
      t.rd (XLT_LKAUD_LKUSED (xltBase u)) = (t.dev.xlt.at u).locked.length % 512 ∧ SameRegs s t [XLT_LKAUD (xltBase u)] ∧ SameMem s t)) ∧
  (∀ (s : State) (u : XltUnit) (ctx va : Nat), (s.dev.xlt.at u).walk = some (ctx, va) →
    let b := xltBase u
    let t0 := ((Tx.start s).onXlt u fun x => { x with walk := none }).wr (XLT_STAT_LKBUSY b) 0
    Completes (.lockWalkDone u) s fun t => t.rd (XLT_STAT_LKBUSY b) = 0 ∧ SameMem s t ∧ SameRegs s t [XLT_STAT b, XLT_LKAUD b] ∧
      match (t0.lockWalk u ctx va).2 with
      | .ok f => (t.dev.xlt.at u).locked = f :: (s.dev.xlt.at u).locked ∧ t.rd (XLT_LKAUD_LKUSED b) = ((s.dev.xlt.at u).locked.length + 1) % 512
      | .error e => t.rd (XLT_STAT_LKERR b) = 1 ∧ t.rd (XLT_STAT_LKCAUSE b) = e % 16 ∧ (t.dev.xlt.at u).locked = (s.dev.xlt.at u).locked)

/-! DMA. -/

/-- A DMA doorbell moves DBTAIL or is refused (R330, R632); a running channel fetches the next descriptor and begins its transfer (R323, R324);
the oldest descriptor's transfer ends with its record, and a fault halts the channel at it (R258, R324); RESUME and ABORT (R324, R632). -/
def Obligations.DmaChannels : Prop :=
  (∀ (s : State) (mid : Mid) (c : Fin 16) (v : Word), s.reaches mid.toNat (DMA_DB c) = true →
    let n := 2 ^ (Tx.start s).dmaLog c
    let tail := bits v.toNat 11 0
    let pend (x : Nat) := (x + n - s.rd (DMA_PTR_HEAD c)) % n
    Completes (.dmaDoorbell mid c v) s fun t => SameMem s t ∧ t.dev = s.dev ∧
      if tail < n ∧ pend (s.rd (DMA_PTR_DBTAIL c)) ≤ pend tail then
        t.rd (DMA_PTR_DBTAIL c) = tail ∧ t.rd (DMA_PTR_HEAD c) = s.rd (DMA_PTR_HEAD c) ∧ SameRegs s t [DMA_PTR c, DMA_CST c, DMA_AUD]
      else t.rd DMA_STAT_CMDREF = 1 ∧ SameRegs s t [DMA_STAT]) ∧
  (∀ (s : State) (c : Fin 16) (u : Tx) (bs : List Byte) (src dst len flags : Nat),
    let q := s.dev.dma.at c
    let head := s.rd (DMA_PTR_HEAD c)
    s.on domFAB = true → q.stopped = false → s.rd (DMA_CST_STATE c) ≠ 2 → (Tx.start s).dmaPending c ≠ 0 → q.begun.length < 16 →
    ((List.range 16).foldl (fun acc k => acc + (s.dev.dma.at k).begun.length) 0) < 256 →
    (Tx.start s).vRead 4 (s.rd (DMA_CFG_DEVCTX c)) (dmaMid c) (sext48 (s.pair (DMA_RBASE_LO c) / 32 * 32 % 2 ^ 48 + head * 32)) 32 = (u, .ok bs) →
    dmaFields bs = some (src, dst, len, flags) → (bit flags 1 = true → q.begun = []) →
    Completes (.dmaDescriptor c) s fun t => t.rd (DMA_PTR_HEAD c) = (head + 1) % 2 ^ (Tx.start s).dmaLog c ∧
      ∃ x, (t.dev.dma.at c).begun = q.begun ++ [x] ∧ x.idx = head ∧ x.src = src ∧ x.dst = dst ∧ x.len = len ∧ x.flags = flags) ∧
  (∀ (s : State) (c : Fin 16) (x y : DmaD) (rest : List DmaD) (u v : Tx), (s.dev.dma.at c).begun = x :: rest →
    (Tx.start s).dmaMove c x (dmaPieces x) = (u, y) → y.fail = none → y.len ≤ y.moved → u.dmaWriteRecord c y = (v, .ok ()) →
    Completes (.dmaCompletion c) s fun t => (∀ a, t.byte a = v.rb a) ∧ (t.dev.dma.at c).begun = rest) ∧
  (∀ (s : State) (c : Fin 16) (x y : DmaD) (u v : Tx), (s.dev.dma.at c).begun = [x] →
    (Tx.start s).dmaMove c x (dmaPieces x) = (u, y) → y.fail.isSome = true → u.dmaWriteRecord c y = (v, .ok ()) →
    Completes (.dmaCompletion c) s fun t => (∀ a, t.byte a = v.rb a) ∧ (t.dev.dma.at c).begun = [] ∧ t.rd (DMA_CST_STATE c) = 2 ∧
      t.rd (DMA_PTR_HEAD c) = y.idx % 2 ^ 12 ∧ bit (t.rd DMA_STAT_HALT) c = true) ∧
  (∀ (s : State) (mid : Mid) (c : Fin 16), s.reaches mid.toNat DMA_CMD = true →
    (Completes (.dmaResume mid c) s fun t => SameMem s t ∧
      if s.rd (DMA_CST_STATE c) = 2 then (t.dev.dma.at c).begun = [] ∧ (t.dev.dma.at c).stopped = false ∧
        t.rd (DMA_CST_STATE c) = (if (Tx.start s).dmaPending c = 0 then 0 else 1) ∧ t.word (DMA_PTR c) = s.word (DMA_PTR c) ∧ SameRegs s t [DMA_CST c, DMA_AUD]
      else t.rd DMA_STAT_CMDREF = 1 ∧ SameRegs s t [DMA_STAT]) ∧
    (Completes (.dmaAbort mid c) s fun t => SameMem s t ∧ (t.dev.dma.at c).begun = [] ∧ t.rd (DMA_PTR_HEAD c) = s.rd (DMA_PTR_DBTAIL c) ∧
      t.rd (DMA_CST_STATE c) = 0 ∧ SameRegs s t [DMA_PTR c, DMA_CST c, DMA_AUD]))

/-! The LPDDR5X memory. -/

/-- At every size of the local windows, addresses and places in the devices correspond one to one: the address of a line decodes to its
rank-channel, chunk and line, and the place of a line's address has that address (R266). -/
def Obligations.AddressesAndPlacesCorrespond : Prop := ∀ locsz ≤ 15,
  (∀ q < 64, ∀ u < 491520, ∀ line < 64, ∃ l, dramLocate locsz (dramAddr locsz q u line) = some l ∧ l.q = q ∧ l.u = u ∧ l.line = line) ∧
  (∀ a < dramEnd, a % 64 = 0 → ∃ l, dramLocate locsz a = some l ∧ l.q < 64 ∧ l.u < 491520 ∧ l.line < 64 ∧ dramAddr locsz l.q l.u l.line = a)

/-- The controller issues the request its arbitration names, a waiting one of rank 7 before any of a lower rank (R273): a full-line write is
stored, a read answers its line; write-backs leave the data as they are (R268); a scrub read and an access check a line (R268, R269). -/
def Obligations.ControllersIssue : Prop :=
  (∀ (s : State) (m : Fin 9) (e : McEnt) (l : DLoc) (bs : List Byte), (Tx.start s).mcRuns m = true → (s.dev.mc.at m).wake ≤ s.now →
    (Tx.start s).mcNext m = some e → (Tx.start s).reqLoc e.req = some l → e.kind = .port → e.req.data = some bs → bs.length = 64 →
    e.req.pa.toNat % 64 = 0 → (Tx.start s).migrating l.q = false →
    Completes (.controllerIssue m [] .clean) s fun t => e ∈ (s.dev.mc.at m).queue ∧ (t.dev.mc.at m).queue = (s.dev.mc.at m).queue.erase e ∧
      (∀ x ∈ (s.dev.mc.at m).queue, x.req.arank = 7 → (Tx.start s).forced m ((Tx.start s).reqBank m x).1 = false → e.req.arank = 7) ∧
      (∀ i < 64, t.byte (e.req.pa.toNat + i) = bs.getD i 0) ∧ SameMemBut s t e.req.pa.toNat 64 ∧ SameRegs s t [HD_MC_QAUD m] ∧
      t.dev.out = s.dev.out ++ [⟨"MC", "WRITTEN", [m.val, e.req.port.val, e.req.pa.toNat]⟩]) ∧
  (∀ (s : State) (m : Fin 9) (e : McEnt) (l : DLoc), (Tx.start s).mcRuns m = true → (s.dev.mc.at m).wake ≤ s.now →
    (Tx.start s).mcNext m = some e → (Tx.start s).reqLoc e.req = some l → e.kind = .port → e.req.data = none →
    (Tx.start s).poisoned e.req.pa.toNat = false →
    let line := e.req.pa.toNat / 64 * 64
    Completes (.controllerIssue m [] .clean) s fun t => (t.dev.mc.at m).queue = (s.dev.mc.at m).queue.erase e ∧ SameMem s t ∧ SameRegs s t [HD_MC_QAUD m] ∧
      t.dev.out = s.dev.out ++ [⟨"MC", "READ", [m.val, e.req.port.val, e.req.pa.toNat, 0] ++ (List.range 64).map fun i => (s.byte (line + i)).toNat⟩]) ∧
  (∀ (s : State) (m : Fin 9) (e : McEnt) (i : Instr) (k : EntKind), (i, k) ∈ [(Instr.correctedWriteback m .clean, EntKind.fixed), (.poisonWriteback m .clean, .poison)] →
    (Tx.start s).mcRuns m = true → (s.dev.mc.at m).wake ≤ s.now → (Tx.start s).mcNext m = some e → e.kind = k →
    Completes i s fun t => (t.dev.mc.at m).queue = (s.dev.mc.at m).queue.erase e ∧ t.dev.poison = s.dev.poison ∧ SameMem s t ∧ SameRegs s t [HD_MC_QAUD m]) ∧
  (∀ (s : State) (q : Fin 64) (u : BitVec 19) (line : Fin 64) (l : DLoc) (m k : Nat) (found : LineCheck),
    let pa := dramAddr (s.rd HD_DMAP_CFG_LOCSZ) q u.toNat line
    u.toNat < 491520 → dramLocate (s.rd HD_DMAP_CFG_LOCSZ) pa = some l → (Tx.start s).server l = (m, k) → m < 9 → (Tx.start s).mcRuns m = true →
    s.rd (HD_MC_CTL_SCRUBH m) ≠ 0 → (Tx.start s).poisoned pa = false →
    Completes (.dramScrub q u line found) s fun t => SameMem s t ∧ match found with
      | .clean => t = s
      | .corrected => t.rd (HD_MC_CECNT_COUNT m) = min (s.rd (HD_MC_CECNT_COUNT m) + 1) (2 ^ 32 - 1) ∧ t.rd (HD_MC_STAT_CE m) = 1 ∧ t.dev.poison = s.dev.poison ∧
          ∃ r, (t.dev.mc.at m).queue = (s.dev.mc.at m).queue ++ [⟨.fixed, r⟩] ∧ r.pa = BitVec.ofNat 48 pa
      | .uncorrectable => t.rd (HD_MC_UECNT_COUNT m) = min (s.rd (HD_MC_UECNT_COUNT m) + 1) (2 ^ 32 - 1) ∧ t.rd (HD_MC_STAT_UE m) = 1 ∧
          t.dev.poison = pa / 64 :: s.dev.poison ∧ t.rd (HD_MC_ELOG_TYPE m) = 1
      | .wrongAddress => t.rd (HD_MC_UECNT_COUNT m) = min (s.rd (HD_MC_UECNT_COUNT m) + 1) (2 ^ 32 - 1) ∧ t.rd (HD_MC_STAT_CMDERR m) = 1 ∧
          t.dev.poison = s.dev.poison ∧ t.rd (HD_MC_ELOG_TYPE m) = 2)

/-- Pages close after PGIDLE (R274); the refresh debt rises by one to at most 8, a full round of per-bank refreshes and a forced refresh pay
one interval each, and no other rank-channel's debt moves (R276); self-refresh is entered in two steps and left for a request (R277);
initialisation leaves a controller's memory at zero and READY (R269). -/
def Obligations.RefreshAndSelfRefresh : Prop :=
  (∀ (s : State) (m : Fin 9) (k : Fin 8) (b : Fin 16), ((s.dev.mc.at m).banks.at (16 * k.val + b)).row ≠ 0 →
    ((s.dev.mc.at m).banks.at (16 * k.val + b)).last + s.rd (HD_MC_CTL_PGIDLE m) * 10 ≤ s.now →
    Completes (.pageIdleClose m k b) s fun t => ((t.dev.mc.at m).banks.at (16 * k.val + b)).row = 0 ∧
      (∀ j, j ≠ 16 * k.val + b → (t.dev.mc.at m).banks.at j = (s.dev.mc.at m).banks.at j) ∧ SameRegs s t [] ∧ SameMem s t) ∧
  (∀ (s : State) (m : Fin 9) (k : Fin 8),
    let debt (x : State) (j : Nat) := bits (x.word (HD_MC_REFAUD m)) (4 * j + 3) (4 * j)
    let others (t : State) := (∀ j < 8, j ≠ k.val → debt t j = debt s j) ∧ SameMem s t
    (s.rd (HD_MC_STAT_READY m) = 1 →
      Completes (.refreshDebtTick m k) s fun t => debt t k = min 8 (debt s k + 1) ∧ others t ∧ SameRegs s t [HD_MC_REFAUD m]) ∧
    (∀ b, (Tx.start s).mcRuns m = true → debt s k ≠ 0 → (s.dev.mc.at m).owed.at k = false → (Tx.start s).refBank m k = some b →
      Completes (.refpb m k) s fun t => ((t.dev.mc.at m).banks.at (16 * k.val + b)).row = 0 ∧ others t ∧ SameRegs s t [HD_MC_REFAUD m] ∧
        if (s.dev.mc.at m).round.at k ||| 2 ^ b = 2 ^ 16 - 1 then debt t k = debt s k - 1 ∧ (t.dev.mc.at m).round.at k = 0
        else debt t k = debt s k ∧ (t.dev.mc.at m).round.at k = (s.dev.mc.at m).round.at k ||| 2 ^ b) ∧
    ((Tx.start s).mcRuns m = true → debt s k = 8 → (s.dev.mc.at m).owed.at k = false →
      Completes (.refab m k) s fun t => debt t k = 7 ∧ (t.dev.mc.at m).owed.at k = true ∧ others t ∧ SameRegs s t [HD_MC_REFAUD m, HD_MC_FREFCNT m] ∧
        (∀ b < 16, ((t.dev.mc.at m).banks.at (16 * k.val + b)).row = 0) ∧
        t.rd (HD_MC_FREFCNT_COUNT m) = min (s.rd (HD_MC_FREFCNT_COUNT m) + 1) (2 ^ 32 - 1)) ∧
    (∀ mult hot, (Tx.start s).mcRuns m = true →
      Completes (.mr4Read m mult hot) s fun t => t.rd (HD_MC_STAT_RMULT m) = mult.val ∧ (hot = true → t.rd (HD_MC_STAT_TEMPHI m) = 1) ∧
        SameRegs s t [HD_MC_STAT m] ∧ SameMem s t) ∧
    (s.rd (HD_MC_CTL_SRIDLE m) ≠ 0 → (Tx.start s).mcIdle m = true → (s.dev.mc.at m).since + s.rd (HD_MC_CTL_SRIDLE m) * 1000 ≤ s.now →
      (s.dev.mc.at m).entering = none →
      Completes (.selfRefreshEntry m false) s fun t => (t.dev.mc.at m).entering = some s.now ∧ t.rd (HD_MC_STAT_SR m) = 0 ∧
        (∀ j < 128, ((t.dev.mc.at m).banks.at j).row = 0) ∧ SameRegs s t [HD_MC_STAT m] ∧ SameMem s t) ∧
    (∀ t0, (s.dev.mc.at m).entering = some t0 → (Tx.start s).mcIdle m = true → t0 + 21 ≤ s.now →
      Completes (.selfRefreshEntry m true) s fun t => t.rd (HD_MC_STAT_SR m) = 1 ∧ (t.dev.mc.at m).entering = none ∧
        t.rd (HD_MC_SRCNT_COUNT m) = min (s.rd (HD_MC_SRCNT_COUNT m) + 1) (2 ^ 32 - 1) ∧ SameRegs s t [HD_MC_STAT m, HD_MC_SRCNT m] ∧ SameMem s t) ∧
    (∀ r, s.on (domMC m) = true → s.rd (HD_MC_STAT_RETAIN m) = 0 → s.rd (HD_MC_STAT_SR m) = 1 →
      Completes (.selfRefreshExit m r) s fun t => t.rd (HD_MC_STAT_SR m) = 0 ∧ (t.dev.mc.at m).wake = max s.now (s.dev.mc.at m).wake + 288 ∧
        (t.dev.mc.at m).entering = none ∧ SameRegs s t [HD_MC_STAT m, HD_MC_QAUD m] ∧ SameMem s t)) ∧
  (∀ (s : State) (m : Fin 9), s.on (domMC m) = true → s.rd (HD_MC_STAT_READY m) = 0 → s.dev.sec.boot ≠ 1 → s.dev.sec.boot ≠ 2 →
    Completes (.dramInitDone m) s fun t => t.rd (HD_MC_STAT_READY m) = 1 ∧ t.rd (HD_MC_STAT_TRAINED m) = 1 ∧ SameRegs s t [HD_MC_STAT m] ∧
      ∀ a, t.byte a = if a < dramEnd ∧ (Tx.start s).servedBy m a = true then 0 else s.byte a)

/-- Rank-channel sparing: MIGRATE starts a migration on the lowest free spare, or records it behind the one that runs, or is refused; each
chunk advances the pointer, copied or zeroed; the end routes the rank-channel to the spare (R283 to R287, R293). -/
def Obligations.MigrationMovesARankChannel : Prop :=
  (∀ (s : State) (mid : Mid) (q : Fin 64), s.reaches mid.toNat HD_DMAP_MCMD = true →
    let t0 := Tx.start s
    Completes (.migrate mid q) s fun t => SameMem s t ∧
      if bit (t0.rmap q) 3 ∨ t0.pendBit q ∨ t0.migrating q then t.rd HD_DMAP_MSTAT_CMDREF = 1 ∧ SameRegs s t [HD_DMAP_MSTAT] ∧ t.dev = s.dev
      else if s.rd HD_DMAP_MSTAT_STATE = 0 then
        match t0.freeSpare with
        | some sp => t.rd HD_DMAP_MSTAT_STATE = 1 ∧ t.rd HD_DMAP_MSTAT_SRC = q ∧ t.rd HD_DMAP_MSTAT_SPARE = sp ∧ t.rd HD_DMAP_MPTR_PTR = 0 ∧
            t.rd HD_DMAP_MSTAT_MSTART = 1
        | none => t.rd HD_DMAP_MSTAT_SPAREOUT = 1 ∧ t.rd HD_DMAP_MSTAT_STATE = 0
      else bit (t.pair HD_DMAP_PEND_LO) q = true ∧ t.dev.mig.order = s.dev.mig.order ++ [q.val] ∧ SameRegs s t [HD_DMAP_PEND_LO, HD_DMAP_PEND_HI]) ∧
  (∀ s : State, s.rd HD_DMAP_MSTAT_STATE = 1 ∨ s.rd HD_DMAP_MSTAT_STATE = 2 →
    let q := s.rd HD_DMAP_MSTAT_SRC
    let ptr := s.rd HD_DMAP_MPTR_PTR
    let first := dramAddr (s.rd HD_DMAP_CFG_LOCSZ) q ptr 0
    (Tx.start s).mcRuns (if s.dev.mig.second then 8 else q / 8) = true → (Tx.start s).mcRuns 8 = true → ptr < 491520 →
    Completes (.migrationChunk [] []) s fun t => t.rd HD_DMAP_MPTR_PTR = ptr + 1 ∧
      t.rd HD_DMAP_MSTAT_STATE = (if ptr + 1 = 491520 then 3 else s.rd HD_DMAP_MSTAT_STATE) ∧
      (∀ a, t.byte a = if s.rd HD_DMAP_MSTAT_STATE = 2 ∧ a < dramEnd ∧ first ≤ a ∧ a < first + 4096 then 0 else s.byte a)) ∧
  (∀ s : State, s.rd HD_DMAP_MSTAT_STATE = 3 → s.dev.mig.need ≤ s.dev.repair.done → s.dev.mig.order = [] →
    Completes .retireDone s fun t => t.rd HD_DMAP_MSTAT_STATE = 0 ∧ t.rd HD_DMAP_MSTAT_MDONE = 1 ∧ SameMem s t ∧
      (Tx.start t).rmap (s.rd HD_DMAP_MSTAT_SRC) = 8 + s.rd HD_DMAP_MSTAT_SPARE)

/-! Links. -/

/-- A module end's life: TRAIN and RETRAIN from the states that take them (R305, R307, R328), the end of training with the width that the weaker
direction allows (R297, R305), lanes that become marginal by three measurements in a row below EYEMIN or by loss of lock (R306), and the drain
before a retraining (R307). -/
def Obligations.LinkModulesTrainAndRepair : Prop :=
  (∀ (s : State) (mid : Mid) (e : Fin 5) (k : Fin 18) (i : Instr) (src dst : Nat), s.reaches mid.toNat (LNK_CMD (lnkBase e)) = true →
    (i, src, dst) ∈ [(Instr.train mid e k, 0, 1), (.retrain mid e k, 2, 3)] →
    Completes i s fun t => SameMem s t ∧
      if k.val < lnkCount e ∧ (Tx.start s).lnkState e k = src then
        (∀ p ∈ lnkEnds e k, t.rd (LNK_MST_STATE (lnkBase p.1) p.2) = dst ∧ (dst = 3 → (t.dev.link.at (lnkKey p.1 p.2)).weight = 0)) ∧
        SameRegs s t (IRQ_STAT :: (lnkEnds e k).map fun p => LNK_MST (lnkBase p.1) p.2)
      else t.rd (LNK_STAT_CMDREF (lnkBase e)) = 1 ∧ SameRegs s t [LNK_STAT (lnkBase e)] ∧ t.dev = s.dev) ∧
  (∀ (s : State) (e : Fin 5) (k : Fin 18) (margins far : List (BitVec 6)), k.val < lnkCount e → s.on (lnkDom e) = true →
    (Tx.start s).lnkState e k = 1 ∨ (Tx.start s).lnkState e k = 4 →
    Completes (.linkTrained e k margins far) s fun t =>
      let weak := (lnkEnds e k).foldl (fun m p => min m (18 - popcount 18 (t.rd (LNK_LMAP_BAD (lnkBase p.1) p.2)))) 18
      (∀ l < 18, bit (t.rd (LNK_LMAP_BAD (lnkBase e) k)) l = true ↔
        bit (s.rd (LNK_LMAP_BAD (lnkBase e) k)) l = true ∨ ((margins.map (·.toNat)).getD l 0 < s.rd (LNK_CTL_EYEMIN (lnkBase e)))) ∧
      (∀ p ∈ lnkEnds e k, t.rd (LNK_MST_STATE (lnkBase p.1) p.2) = (if weak < 8 then 0 else 2) ∧
        t.rd (LNK_MST_X8 (lnkBase p.1) p.2) = (if 8 ≤ weak ∧ weak < 16 then 1 else 0) ∧
        (8 ≤ weak → (t.dev.link.at (lnkKey p.1 p.2)).weight = if weak < 16 then 1 else 2)) ∧ SameMem s t) ∧
  (∀ (s : State) (e : Fin 5) (k : Fin 18) (margins : List (BitVec 6)), k.val < lnkCount e → (Tx.start s).lnkState e k = 2 →
    let b := lnkBase e
    let low (l : Nat) := if (margins.map (·.toNat)).getD l 0 < s.rd (LNK_CTL_EYEMIN b) then ((Tx.start s).linkOf e k).low.at l + 1 else 0
    let used (l : Nat) : Prop := l < 18 ∧ bit (s.rd (LNK_LMAP_BAD b k)) l = false
    Completes (.eyeMeasurement e k margins) s fun t => SameMem s t ∧
      (∀ l, used l → (t.dev.link.at (lnkKey e k)).low.at l = low l ∧ (3 ≤ low l → bit (t.rd (LNK_LMAP_BAD b k)) l = true ∧ t.rd (LNK_MST_MARG b k) = 1)) ∧
      ((∃ l, used l ∧ 3 ≤ low l) → t.rd (LNK_MST_STATE b k) = 3) ∧ ((∀ l, used l → low l < 3) → t.rd (LNK_MST_STATE b k) = 2)) ∧
  (∀ (s : State) (e : Fin 5) (k : Fin 18) (lane : Fin 18), k.val < lnkCount e → (Tx.start s).lnkState e k = 2 →
    bit (s.rd (LNK_LMAP_BAD (lnkBase e) k)) lane = false →
    Completes (.laneLockLoss e k lane) s fun t => t.rd (LNK_MST_MARG (lnkBase e) k) = 1 ∧ bit (t.rd (LNK_LMAP_BAD (lnkBase e) k)) lane = true ∧
      (∀ p ∈ lnkEnds e k, t.rd (LNK_MST_STATE (lnkBase p.1) p.2) = 3) ∧ SameMem s t) ∧
  (∀ (s : State) (e : Fin 5) (k : Fin 18), k.val < lnkCount e → (Tx.start s).lnkState e k = 3 →
    (∀ p ∈ lnkEnds e k, (s.dev.link.at (lnkKey p.1 p.2)).unacked = []) →
    Completes (.linkDrained e k) s fun t => (∀ p ∈ lnkEnds e k, t.rd (LNK_MST_STATE (lnkBase p.1) p.2) = 4) ∧ SameMem s t ∧
      SameRegs s t (IRQ_STAT :: (lnkEnds e k).map fun p => LNK_MST (lnkBase p.1) p.2))

/-- The guest site's requests pass the firewall or are refused, counted and logged (R325). -/
def Obligations.GuestRequestsPassTheFirewall : Prop :=
  (∀ (s : State) (mid : Mid) (pa : Addr) (rank : Fin 8) (len : Fin 4) (data : Option (List Byte)) (why : Nat), s.on domGS = true → (Tx.start s).fwFull = false →
    (Tx.start s).firewall mid.toNat pa.toNat ((data.map fun bs => max 1 bs.length).getD (64 * (len.val + 1))) data.isSome = .error why →
    Completes (.guestRequest mid pa rank len data) s fun t => t.rd FW_STAT_DENY = 1 ∧ SameMem s t ∧
      t.rd FW_DENYCNT_COUNT = min (s.rd FW_DENYCNT_COUNT + 1) (2 ^ 32 - 1) ∧ t.word FW_DLOG_LO = pa.toNat % 2 ^ 32 ∧
      SameRegs s t [FW_STAT, FW_DENYCNT, FW_DLOG_LO, FW_DLOG_HI, IRQ_STAT]) ∧
  (∀ (s : State) (mid : Mid) (pa : Addr) (rank : Fin 8) (len : Fin 4) (w : Nat) (bs : List Byte), s.on domGS = true → (Tx.start s).fwFull = false →
    (Tx.start s).firewall mid.toNat pa.toNat (64 * (len.val + 1)) false = .ok w → (Tx.start s).physRead mid.toNat pa.toNat (64 * (len.val + 1)) = .ok bs →
    Completes (.guestRequest mid pa rank len none) s fun t => SameMem s t ∧ SameRegs s t [] ∧ t.dev.fwUsed.at w = s.dev.fwUsed.at w + (len.val + 1) ∧
      t.dev.out = s.dev.out ++ [⟨"GUEST", "RSP", [mid.toNat, pa.toNat, 0, min rank.val (s.rd FW_CTL_GRANK)] ++ bs.map (·.toNat)⟩]) ∧
  (∀ (s : State) (mid : Mid) (pa : Addr) (n : Nat) (write : Bool) (w : Nat), (Tx.start s).firewall mid.toNat pa.toNat n write = .ok w →
    0xC00 ≤ mid.toNat ∧ mid.toNat < 0xD00 ∧ w < 8 ∧ s.rd (FW_WCFG_EN w) = 1 ∧ s.rd (if write then FW_WCFG_W w else FW_WCFG_R w) = 1 ∧
    s.pair (FW_WBASE_LO w) ≤ pa.toNat ∧ pa.toNat + n - 1 ≤ s.pair (FW_WLIM_LO w) / 4096 * 4096 + 4095)

/-- A receiver takes the sound entry that is next in sequence: it counts it, acknowledges it, and the entry takes its effect or waits for its
target (R300 to R303); a request of an identity that may not come that way is answered with an error (R322). -/
def Obligations.LinkEntriesAreTaken : Prop :=
  (∀ (s : State) (e : Fin 5) (k : Fin 18) (w : BitVec 128) (flits : List Byte) (i : Instr) (typ : Nat),
    (i, typ, flits.length) ∈ [(Instr.rd e k w, 1, 0), (.wr e k w flits, 2, flits.length), (.wrm e k w flits, 3, flits.length), (.atom e k w flits, 4, flits.length),
      (.rsp e k w flits, 5, flits.length), (.ack e k w, 6, 0)] →
    let x := LEntry.ofBits w.toNat
    let t1 := (Tx.start s).linkAccept e k w.toNat flits
    x.typ = typ → (Tx.start s).linkTakes e k w.toNat flits = true → ((Tx.start s).linkOf e k).stuck = [] →
    Completes i s fun t =>
      match t1.entryEffect e k x flits with
      | some u => (∀ a, t.byte a = u.rb a) ∧ (t.dev.link.at (lnkKey e k)).stuck = []
      | none => SameMem s t ∧ (t.dev.link.at (lnkKey e k)).stuck = [leBytes 16 w.toNat ++ flits] ∧ (t.dev.link.at (lnkKey e k)).rxSeq = (x.seq + 1) % 1024) ∧
  (∀ (s : State) (e : Fin 5) (k : Fin 18) (w : BitVec 128) (flits : List Byte) (i : Instr),
    let x := LEntry.ofBits w.toNat
    (x.typ = 1 ∧ i = .rd e k w ∧ flits = [] ∨ x.typ = 2 ∧ i = .wr e k w flits ∨ x.typ = 3 ∧ i = .wrm e k w flits ∨ x.typ = 4 ∧ i = .atom e k w flits) →
    (Tx.start s).linkTakes e k w.toNat flits = true → ((Tx.start s).linkOf e k).stuck = [] →
    ((Tx.start s).linkAccept e k w.toNat flits).midOk e k x.mid x.addr = false → lnkFar e k ≠ 5 →
    Completes i s fun t => t.rd (LNK_STAT_MIDERR (lnkBase e)) = 1 ∧ SameMem s t) ∧
  (∀ (s : State) (e : Fin 5) (k : Fin 18) (w : BitVec 128) (flits : List Byte) (i : Instr),
    let x := LEntry.ofBits w.toNat
    (x.typ = 5 ∧ i = .rsp e k w flits ∨ x.typ = 6 ∧ i = .ack e k w ∧ flits = []) → homeOf x.mid = e →
    (Tx.start s).linkTakes e k w.toNat flits = true → ((Tx.start s).linkOf e k).stuck = [] →
    Completes i s fun t => SameMem s t ∧ ∃ o ∈ t.dev.out, o = ⟨"LINK", "ANSWER", [x.mid, x.tag, x.status] ++ flits.map (·.toNat)⟩)

/-- A bad entry starts a discard until SYNC, with NAK (R303); link acknowledgements release the replay buffer, NAK sends it again, CREDIT
returns slots, SYNC sets them and ends a discard, BUNDLE takes the weights (R298 to R303). -/
def Obligations.LinkControlEntries : Prop :=
  (∀ (s : State) (e : Fin 5) (k : Fin 18) (w : BitVec 128) (flits : List Byte) (lanes : List (Fin 18)) (um : Bool), (Tx.start s).receives e k = true →
    ((Tx.start s).linkOf e k).drop = false → entryOk w.toNat flits = false →
    Completes (.crcFailure e k w flits lanes um) s fun t => (t.dev.link.at (lnkKey e k)).drop = true ∧
      (t.dev.link.at (lnkKey e k)).rxSeq = ((Tx.start s).linkOf e k).rxSeq ∧ SameMem s t) ∧
  (∀ (s : State) (e : Fin 5) (k : Fin 18) (w : BitVec 128),
    let x := LEntry.ofBits w.toNat
    let l := (Tx.start s).linkOf e k
    let ok (sub : Nat) : Prop := x.typ = 8 ∧ bits x.xf 13 10 = sub ∧ (Tx.start s).receives e k = true ∧ entryOk w.toNat [] = true ∧ (l.drop = false ∨ sub = 3) ∧
      (s.dev.bundle.at (lnkKey e (lnkBundle e k).1)).waiting = []
    let after (t : State) := t.dev.link.at (lnkKey e k)
    (∀ i, ok 0 → l.unacked.findIdx? (fun u => u.1 == x.seq) = some i →
      Completes (.lctlAck e k w) s fun t => (after t).unacked = l.unacked.drop (i + 1) ∧ SameRegs s t [] ∧ SameMem s t) ∧
    (∀ i, ok 1 → l.unacked.findIdx? (fun u => u.1 == x.seq) = some i →
      Completes (.nak e k w) s fun t => (after t).unacked = l.unacked.drop i ∧
        t.rd (LNK_RETRY_COUNT (lnkBase e) k) = min (s.rd (LNK_RETRY_COUNT (lnkBase e) k) + 1) (2 ^ 32 - 1) ∧ SameRegs s t [LNK_RETRY (lnkBase e) k] ∧ SameMem s t ∧
        ∃ sync, t.dev.out = s.dev.out ++ sync :: (l.unacked.drop i).map fun u => ⟨"LINK", "ENTRY", [e.val, k.val] ++ u.2.map (·.toNat)⟩) ∧
    (ok 2 → Completes (.credit e k w) s fun t => SameRegs s t [LNK_CRAUD0 (lnkBase e) k] ∧ SameMem s t ∧
      ∀ vc < 4, vcByte (t.word (LNK_CRAUD0 (lnkBase e) k)) vc =
        min 64 (vcByte (s.word (LNK_CRAUD0 (lnkBase e) k)) vc + bits x.addr (7 * vc + 6) (7 * vc))) ∧
    (ok 3 → Completes (.lctlSync e k w) s fun t => (after t).drop = false ∧ SameRegs s t [LNK_CRAUD0 (lnkBase e) k] ∧ SameMem s t ∧
      ∀ vc < 4, vcByte (t.word (LNK_CRAUD0 (lnkBase e) k)) vc = min 64 (bits x.addr (7 * vc + 6) (7 * vc))) ∧
    (ok 4 → Completes (.bundle e k w) s fun t => SameRegs s t [] ∧ SameMem s t ∧ ∀ i < (lnkBundle e k).2,
      (t.dev.link.at (lnkKey e ((lnkBundle e k).1 + i))).rxWeight = bits x.addr (2 * i + 1) (2 * i)))

/-! Ingest and ego-motion. -/

/-- EN reads and checks the stream table, and clearing it stops the streams (R337); a take is delivered once its records are there, or with
fewer at its flush time (R345); RCONS releases slots, within what was taken (R343). -/
def Obligations.IngestRings : Prop :=
  (∀ (s : State) (mid : Mid) (v : Word), s.reaches mid.toNat ING_CTL = true →
    let tableOf (bs : List Byte) := (List.range 64).map fun k => (bs.drop (64 * k)).take 64
    Completes (.ingEnable mid v) s fun t => SameMem s t ∧ t.rd ING_CTL_EN = bits v.toNat 0 0 ∧ SameRegs s t [ING_CTL, ING_STAT, IRQ_STAT] ∧
      (bit v.toNat 0 = false → t.rd ING_STAT_RUN = 0 ∧ t.dev.ing.table = []) ∧
      (bit v.toNat 0 = true → s.rd ING_CTL_EN = 0 → ∀ bs, (Tx.start s).physRead ingMid (s.pair ING_STBASE_LO) 4096 = .ok bs →
        if tableOk (tableOf bs) then t.rd ING_STAT_RUN = 1 ∧ t.dev.ing.table = tableOf bs
        else t.rd ING_STAT_CFGERR = 1 ∧ t.rd ING_STAT_RUN = s.rd ING_STAT_RUN)) ∧
  (∀ (s : State) (mid : Mid) (r : Fin 64) (v : Word), s.reaches mid.toNat (ING_TAKE r) = true →
    let b := bits v.toNat 15 0
    let fill := (Tx.start s).ringFill r
    let delivered (t : State) (n : Nat) : Prop := t.rd (ING_TAKEFIRST_FIRST r) = s.rd (ING_RPTR_TK r) ∧ t.rd (ING_TAKEST_N r) = n ∧ t.rd (ING_TAKEST_DONE r) = 1 ∧
      t.rd (ING_TAKEST_PEND r) = 0 ∧ t.rd (ING_RPTR_TK r) = (s.rd (ING_RPTR_TK r) + n) % 65536 ∧ t.rd (ING_RPTR_WR r) = s.rd (ING_RPTR_WR r) ∧
      SameRegs s t [ING_TAKEFIRST r, ING_TAKEST r, ING_RPTR r, IRQ_STAT]
    Completes (.ingTake mid r v) s fun t => SameMem s t ∧
      if (s.dev.ing.take.at r).isSome ∨ b = 0 ∨ 32768 < b then t.rd ING_STAT_CMDREF = 1 ∧ SameRegs s t [ING_STAT] ∧ t.dev = s.dev
      else if b ≤ fill then delivered t b
      else if s.rd (ING_RCFG_FLUSH r) = 0 then delivered t fill
      else t.rd (ING_TAKEST_PEND r) = 1 ∧ t.dev.ing.take.at r = some (b, s.now) ∧ SameRegs s t [ING_TAKEST r]) ∧
  (∀ (s : State) (r : Fin 64) (b at_ : Nat), s.dev.ing.take.at r = some (b, at_) → at_ + s.rd (ING_RCFG_FLUSH r) * 1000 ≤ s.now →
    let n := min b ((Tx.start s).ringFill r)
    Completes (.takeFlush r) s fun t => t.rd (ING_TAKEST_N r) = n ∧ t.rd (ING_TAKEST_DONE r) = 1 ∧ t.rd (ING_TAKEST_PEND r) = 0 ∧
      t.rd (ING_RPTR_TK r) = (s.rd (ING_RPTR_TK r) + n) % 65536 ∧ t.dev.ing.take.at r = none ∧
      SameRegs s t [ING_TAKEFIRST r, ING_TAKEST r, ING_RPTR r, IRQ_STAT] ∧ SameMem s t) ∧
  (∀ (s : State) (mid : Mid) (r : Fin 64) (v : Word), s.reaches mid.toNat (ING_RCONS r) = true →
    let ahead (x : Nat) := (x + 65536 - s.rd (ING_RCONS_RD r)) % 65536
    Completes (.rconsWrite mid r v) s fun t => SameMem s t ∧
      if ahead (bits v.toNat 15 0) ≤ ahead (s.rd (ING_RPTR_TK r)) then
        t.rd (ING_RCONS_RD r) = bits v.toNat 15 0 ∧ SameRegs s t [ING_RCONS r, ING_WM r, ING_WMCNT r, IRQ_STAT]
      else t.rd ING_STAT_CMDREF = 1 ∧ SameRegs s t [ING_STAT])

/-- Frames of each kind of port become records of their stream, one for each line group, UDP frame, IMU sample and CAN frame, or are discarded
and counted where no stream matches (R338 to R341, R639). -/
def Obligations.IngestPortsRecord : Prop :=
  (∀ (s : State) (port : Fin 16) (vc : Fin 4) (dt : BitVec 8) (data : List Byte) (h : Ecc) (crcOk : Bool), s.rd ING_STAT_RUN = 1 →
    let found := (Tx.start s).streams 1 fun d => fld d 1 1 == port.val && fld d 8 1 == vc.val && fld d 9 1 == dt.toNat
    Completes (.csi2LongPacket port vc dt data h crcOk) s fun t => match found with
      | [] => t.dev.ing.discard.at port = s.dev.ing.discard.at port + 1 ∧ SameRegs s t [] ∧ SameMem s t
      | k :: _ =>
        let d := s.dev.ing.table.getD k []
        let g := s.dev.ing.group.at k
        if h = .uncorrectable then (t.dev.ing.group.at k).short = true ∧ (t.dev.ing.group.at k).lines = g.lines ∧ SameRegs s t [] ∧ SameMem s t
        else if g.count + 1 < fld d 10 1 then
          (t.dev.ing.group.at k).lines = g.lines ++ data.take (fld d 12 4) ∧ (t.dev.ing.group.at k).count = g.count + 1 ∧
          (t.dev.ing.group.at k).crcerr = (g.crcerr || !crcOk) ∧ SameRegs s t [] ∧ SameMem s t
        else t.dev.ing.group.at k = {} ∧ Recorded s t k) ∧
  (∀ (s : State) (port : Fin 16) (vc : Fin 4), s.rd ING_STAT_RUN = 1 →
    Completes (.frameStart port vc) s fun t => SameRegs s t [] ∧ SameMem s t ∧
      ∀ k ∈ (Tx.start s).csiStreams port vc, t.dev.ing.start.at (64 * k + (port.val * 4 + vc.val)) = some (s.now - fld (s.dev.ing.table.getD k []) 4 4)) ∧
  (∀ (s : State) (port : Fin 16) (vc : Fin 4) (k : Nat), s.rd ING_STAT_RUN = 1 → (Tx.start s).csiStreams port vc = [k] → 0 < (s.dev.ing.group.at k).count →
    Completes (.frameEnd port vc) s fun t => t.dev.ing.group.at k = {} ∧ Recorded s t k) ∧
  (∀ (s : State) (port : EthPort) (v6 : Bool) (udp : BitVec 16) (payload : List Byte), s.rd (ETH_PSTAT_CFG port) = 1 → s.rd ING_STAT_RUN = 1 →
    Completes (.lidarFrame port v6 udp true false payload) s fun t =>
      match (Tx.start s).streams 2 fun d => fld d 1 1 == port.val && fld d 10 2 == udp.toNat && bit (fld d 9 1) 0 == v6 with
      | [] => t.rd (ETH_PCNT_RXDROP port) = min (s.rd (ETH_PCNT_RXDROP port) + 1) 65535 ∧ SameRegs s t [ETH_PCNT port] ∧ SameMem s t ∧ t.dev = s.dev
      | k :: _ => Recorded s t k) ∧
  (∀ (s : State) (port : Fin 2) (k : Nat) (ks : List Nat), s.rd ING_STAT_RUN = 1 → (Tx.start s).streams 3 (fun d => fld d 1 1 == port.val) = k :: ks →
    let p := s.dev.ing.imu.at port
    Completes (.imuDataReady port) s fun t => SameMem s t ∧ (t.dev.ing.imu.at port).edge = s.now + 1 ∧
      if p.reading.isSome ∨ (p.edge ≠ 0 ∧ s.now < p.edge - 1 + 400000) then
        t.rd ING_OVERRUN_COUNT = min (s.rd ING_OVERRUN_COUNT + 1) (2 ^ 32 - 1) ∧ SameRegs s t [ING_OVERRUN] ∧ (t.dev.ing.imu.at port).reading = p.reading
      else (t.dev.ing.imu.at port).reading = some (s.now - fld (s.dev.ing.table.getD k []) 4 4) ∧ SameRegs s t []) ∧
  (∀ (s : State) (port : Fin 2) (data : List Byte) (k stamp : Nat) (ks : List Nat), (Tx.start s).streams 3 (fun d => fld d 1 1 == port.val) = k :: ks →
    (s.dev.ing.imu.at port).reading = some stamp →
    Completes (.spiReadDone port data) s fun t => (t.dev.ing.imu.at port).reading = none ∧ Recorded s t k) ∧
  (∀ (s : State) (port : CanPort) (id : BitVec 29) (ide : Bool) (dlc : Fin 16) (data : List Byte) (k : Nat) (ks : List Nat), s.rd ING_STAT_RUN = 1 → s.rd (CAN_CTL_EN port) = 1 →
    (Tx.start s).streams 4 (fun d => fld d 1 1 == port.val && bit (fld d 8 4) 31 == ide && ((id.toNat ^^^ fld d 8 4) &&& fld d 12 4 &&& 0x1FFFFFFF) == 0) = k :: ks →
    Completes (.canFdFrame port id ide dlc data) s fun t => Recorded s t k)

/-- EN zeroes the integrator's state (R348); each tick makes one pose, which enters the buffer and shows in the status, INVALID with no sensor at
all (R347, R350, R351); the bias record is read at APPLY, and applied when its CRC holds (R352). -/
def Obligations.EgoMotionTicks : Prop :=
  (∀ (s : State) (mid : Mid) (v : Word), s.reaches mid.toNat EGO_CTL = true →
    Completes (.egoEnable mid v) s fun t => t.rd EGO_CTL_EN = bits v.toNat 0 0 ∧ SameRegs s t [EGO_CTL] ∧ SameMem s t ∧
      if bit v.toNat 0 = true ∧ s.rd EGO_CTL_EN = 0 then
        t.dev.ego.cur = {} ∧ t.dev.ego.poses = [] ∧ t.dev.ego.samples = [] ∧ t.dev.ego.invalid = false ∧ t.dev.ego.bias = s.dev.ego.bias
      else t.dev = s.dev) ∧
  (∀ (s : State) (mid : Mid), s.reaches mid.toNat EGO_BIASCMD = true →
    Completes (.biasApply mid) s fun t => t.dev.ego.biasRead = true ∧ SameMem s t ∧
      if s.dev.ego.biasRead then t.rd EGO_STAT_CMDREF = 1 ∧ SameRegs s t [EGO_STAT] else SameRegs s t []) ∧
  (∀ (s : State) (bs : List Byte), s.dev.ego.biasRead = true → (Tx.start s).physRead 0x122 (s.pair EGO_BIAS_LO / 128 * 128) 128 = .ok bs →
    Completes .biasRecordRead s fun t => t.dev.ego.biasRead = false ∧ SameMem s t ∧
      if crc32c (bs.take 0x7C) = fld bs 0x7C 4 then t.word EGO_BIASSEQ = fld bs 0 4 % 2 ^ 32 ∧ SameRegs s t [EGO_BIASSEQ] ∧
        t.dev.ego.wc = (List.range 12).map fun i => fld bs (0x38 + 4 * i) 4
      else t.rd EGO_STAT_BIASERR = 1 ∧ SameRegs s t [EGO_STAT, IRQ_STAT] ∧ t.dev.ego.bias = s.dev.ego.bias) ∧
  (∀ s : State, s.rd EGO_CTL_EN = 1 → s.dev.ego.next * 1000000 + 2000000 ≤ s.now →
    let k := s.dev.ego.next
    Completes .egoTick s fun t => t.dev.ego.next = k + 1 ∧ t.pair EGO_TICK_LO = k % 2 ^ 64 ∧
      (∃ p, t.dev.ego.poses = (p :: s.dev.ego.poses).take 1024 ∧ p.t = k * 1000000 ∧ p.k = k ∧ t.dev.ego.cur = p) ∧
      (s.dev.ego.samples = [] → s.dev.ego.sigs = [] → t.rd EGO_STAT_IMU0 = 0 ∧ t.rd EGO_STAT_IMU1 = 0 ∧ t.rd EGO_STAT_WHL = 0 ∧ t.rd EGO_STAT_DR = 1 ∧
        t.rd EGO_STAT_INVALID = 1) ∧ (s.rd ING_STAT_RUN = 0 → SameMem s t))

/-! Alignment. -/

/-- The job ring: EN reads the calibration table (R359), doorbell, RESUME and ABORT (R353, R357, R632); the job at HEAD runs by its operation,
POINTS, CAMXF, GRID or CALSET, and its completion record moves HEAD on, or halts the ring when it failed (R357).  A GRID
job's ray marks the cells between origin and point (R363). -/
def Obligations.AlignmentJobs : Prop :=
  (∀ (s : State) (mid : Mid) (v : Word), s.reaches mid.toNat ALN_CTL = true →
    let tableOf (bs : List Byte) := (List.range 64).map fun e => calEntry ((bs.drop (32 * e)).take 32)
    Completes (.alnEnable mid v) s fun t => t.rd ALN_CTL_EN = bits v.toNat 0 0 ∧ SameMem s t ∧ SameRegs s t [ALN_CTL, ALN_STAT, IRQ_STAT] ∧
      (bit v.toNat 0 = false → t.dev.aln.cal = s.dev.aln.cal ∧ t.dev.aln.failed = false) ∧
      (bit v.toNat 0 = true → s.rd ALN_CTL_EN = 0 → s.dev.aln.cal = [] → ∀ bs, (Tx.start s).physRead alnMid (s.pair ALN_CALBASE_LO / 2048 * 2048) 2048 = .ok bs →
        if ∃ c ∈ tableOf bs, 5000000 < c.lrot ∨ 100000 < c.ltrn then t.rd ALN_STAT_CFGERR = 1 ∧ t.dev.aln.cal = [] ∧ t.dev.aln.failed = true
        else t.dev.aln.cal = tableOf bs ∧ t.dev.aln.failed = false)) ∧
  (∀ (s : State) (mid : Mid) (v : Word), s.reaches mid.toNat ALN_DB = true →
    let n := 2 ^ (Tx.start s).alnLog
    let tail := bits v.toNat 11 0
    let pend (x : Nat) := (x + n - s.rd ALN_PTR_HEAD) % n
    Completes (.alnDoorbell mid v) s fun t => SameMem s t ∧ t.dev = s.dev ∧
      if tail < n ∧ pend (s.rd ALN_PTR_DBTAIL) ≤ pend tail then t.rd ALN_PTR_DBTAIL = tail ∧ t.rd ALN_PTR_HEAD = s.rd ALN_PTR_HEAD ∧ SameRegs s t [ALN_PTR]
      else t.rd ALN_STAT_CMDREF = 1 ∧ SameRegs s t [ALN_STAT]) ∧
  (∀ (s : State) (mid : Mid), s.reaches mid.toNat ALN_CMD = true →
    (Completes (.alnResume mid) s fun t => SameMem s t ∧
      if s.dev.aln.halted then t.dev.aln = { s.dev.aln with halted := false } ∧ SameRegs s t [] else t.rd ALN_STAT_CMDREF = 1 ∧ SameRegs s t [ALN_STAT]) ∧
    (Completes (.alnAbort mid) s fun t => t.dev.aln = { s.dev.aln with halted := false } ∧ t.rd ALN_PTR_HEAD = s.rd ALN_PTR_DBTAIL ∧
      t.rd ALN_PTR_DBTAIL = s.rd ALN_PTR_DBTAIL ∧ SameRegs s t [ALN_PTR] ∧ SameMem s t)) ∧
  (∀ (s : State) (i : Instr) (op : Nat) (f : Tx → Job → Tx × JobEnd) (u v w : Tx) (j : Job) (e : JobEnd),
    (i, op, f) ∈ [(Instr.points, 1, Tx.jobPoints), (.camxf, 2, Tx.jobCamxf), (.grid, 3, Tx.jobGrid), (.calset, 4, Tx.jobCalset)] →
    let head := s.rd ALN_PTR_HEAD
    (Tx.start s).jobAtHead = true →
    (Tx.start s).vRead 4 (s.rd ALN_CFG_DEVCTX) alnMid (sext48 (s.pair ALN_RBASE_LO / 64 * 64 + head * 64)) 64 = (u, .ok j) → jobOk j = true → fld j 0 1 = op →
    f u j = (v, e) → e.held = false →
    v.vWrite 4 (s.rd ALN_CFG_DEVCTX) alnMid (sext48 (s.pair ALN_CBASE_LO / 64 * 64 + head * 16))
      (leBytes 1 e.status ++ leBytes 1 0 ++ leBytes 2 (min e.nstale 65535) ++ leBytes 4 e.nout ++ leBytes 8 e.told) = (w, .ok ()) →
    Completes i s fun t => (∀ a, t.byte a = w.rb a) ∧
      if e.status = 0 then t.rd ALN_PTR_HEAD = (head + 1) % 2 ^ (Tx.start s).alnLog ∧ t.dev.aln.halted = false
      else t.dev.aln.halted = true ∧ t.rd ALN_STAT_HALT = 1 ∧ t.rd ALN_PTR_HEAD = head) ∧
  (∀ i0 j0 i1 j1 : Int,
    let di := i1 - i0
    let dj := j1 - j0
    let n : Int := max |di| |dj|
    ∀ x : Nat, x ∈ rayCells i0 j0 i1 j1 ↔ ∃ m i j : Int, 1 ≤ m ∧ m ≤ min n 256 - 1 ∧ i = i0 + Int.fdiv (2 * di * m + n) (2 * n) ∧
      j = j0 + Int.fdiv (2 * dj * m + n) (2 * n) ∧ 0 ≤ i ∧ i < 512 ∧ 0 ≤ j ∧ j < 512 ∧ x = (i * 512 + j).toNat)

/-- Calibration stays near its nominal set: a target is clamped into N ± L, and at each step every applied angle moves by at most 50 units and
every translation by at most 1 toward its target, within N ± L (R360); GSEQ counts the grid records (R364). -/
def Obligations.CalibrationMovesSlowly : Prop :=
  (∀ s : State, s.rd ALN_CTL_EN = 1 → s.dev.aln.cal ≠ [] → s.now % 1000000 = 0 → s.dev.aln.stepped ≠ s.now + 1 →
    Completes .calStep s fun t => SameRegs s t [] ∧ SameMem s t ∧ t.dev.aln.cal.length = s.dev.aln.cal.length ∧
      (t.dev.aln.calseq = if t.dev.aln.cal = s.dev.aln.cal then s.dev.aln.calseq else s.dev.aln.calseq + 1) ∧
      ∀ e < 64, ∀ x < 6,
        let c := s.dev.aln.cal.getD e {}
        let c' := t.dev.aln.cal.getD e {}
        let lo := c.n.getD x 0 - c.lim x
        let hi := c.n.getD x 0 + c.lim x
        e < s.dev.aln.cal.length → lo ≤ c'.a.getD x 0 ∧ c'.a.getD x 0 ≤ hi ∧ c'.n = c.n ∧ c'.tgt = c.tgt ∧
          (lo ≤ c.a.getD x 0 → c.a.getD x 0 ≤ hi → (c'.a.getD x 0 - c.a.getD x 0).natAbs ≤ if x < 3 then 50 else 1)) ∧
  (∀ (t u : Tx) (j : Job) (e : JobEnd), t.jobCalset j = (u, e) → e.status = 0 → e.held = false → fld j 2 2 < t.d.aln.cal.length →
    let c := u.d.aln.cal.getD (fld j 2 2) {}
    e.nout = 0 ∧ ∀ x < 6, c.n.getD x 0 - c.lim x ≤ c.tgt.getD x 0 ∧ c.tgt.getD x 0 ≤ c.n.getD x 0 + c.lim x) ∧
  (∀ (t u v : Tx) (j : Job) (bufs : List (List Byte)) (e : JobEnd), t.gridBuffers (fld j 0x20 8) (fld j 8 8) (fld j 0x18 4) = (u, .ok bufs) →
    t.jobGrid j = (v, e) → v.rd ALN_GSEQ_SEQ = (u.rd ALN_GSEQ_SEQ + 1) % 2 ^ 32 ∧ (e.status = 0 → e.held = false → e.nout = 1))

/-! Trajectories. -/

/-- Commands of the trajectory engine: EN restarts SEQ (R397), START reads the descriptor and begins a cycle, or is refused (R374, R394), ABORT
stops a cycle (R394), the delta doorbell moves its tail or is refused (R387, R398). -/
def Obligations.TrajectoryCommands : Prop :=
  (∀ (s : State) (mid : Mid) (v : Word), s.reaches mid.toNat TRJ_CTL = true →
    Completes (.trjEnable mid v) s fun t => t.rd TRJ_CTL_EN = bits v.toNat 0 0 ∧ t.rd TRJ_CTL_EGREN = bits v.toNat 1 1 ∧ t.rd TRJ_CTL_EPORT = bits v.toNat 6 4 ∧
      t.rd TRJ_CTL_RELTO = bits v.toNat 31 24 ∧ t.rd TRJ_SEQ_SEQ = (if bit v.toNat 0 = true ∧ s.rd TRJ_CTL_EN = 0 then 0 else s.rd TRJ_SEQ_SEQ) ∧
      SameRegs s t [TRJ_CTL, TRJ_SEQ] ∧ SameMem s t ∧ t.dev = s.dev) ∧
  (∀ (s : State) (mid : Mid) (i : Instr), s.reaches mid.toNat TRJ_CMD = true →
    (i = .start mid ∧ (s.rd TRJ_CTL_EN = 0 ∨ s.dev.trj.cycle.isSome = true) ∨ i = .trjAbort mid ∧ s.dev.trj.cycle = none) →
    Completes i s fun t => t.rd TRJ_STAT_CMDREF = 1 ∧ SameRegs s t [TRJ_STAT] ∧ SameMem s t ∧ t.dev = s.dev) ∧
  (∀ (s : State) (mid : Mid) (u : Tx) (d : List Byte), s.reaches mid.toNat TRJ_CMD = true → s.rd TRJ_CTL_EN = 1 → s.dev.trj.cycle = none →
    (Tx.start s).trjRead (sext48 (s.pair TRJ_PLAN_LO / 64 * 64)) 384 = (u, .ok d) →
    Completes (.start mid) s fun t => SameMem s t ∧
      ∃ c, t.dev.trj.cycle = some c ∧ c.start = s.now ∧ c.desc = some d ∧ c.told = fld d 0x10 8 ∧
        if planOk d then c.act = .load ∧ t.rd TRJ_STAT_STATE = 1 else (∃ r, c.act = .publish r) ∧ t.rd TRJ_STAT_STATE = 3 ∧ t.rd TRJ_FLT_CODE = 1) ∧
  (∀ (s : State) (mid : Mid) (c : Cycle), s.reaches mid.toNat TRJ_CMD = true → s.dev.trj.cycle = some c → (∀ r, c.act ≠ .publish r) → c.act ≠ .reduce →
    Completes (.trjAbort mid) s fun t => t.rd TRJ_STAT_STATE = 2 ∧ SameRegs s t [TRJ_STAT, TRJ_PROG] ∧ SameMem s t ∧
      ∃ c', t.dev.trj.cycle = some c' ∧ c'.aborted = true ∧ c'.act = .reduce ∧ c'.results = c.results) ∧
  (∀ (s : State) (mid : Mid) (v : Word), s.reaches mid.toNat TRJ_DDB = true →
    let n := 2 ^ (Tx.start s).deltaLog
    let tail := bits v.toNat 9 0
    let pend (x : Nat) := (x + n - s.rd TRJ_DPTR_HEAD) % n
    Completes (.deltaDoorbell mid v) s fun t => SameMem s t ∧ t.dev = s.dev ∧
      if tail < n ∧ pend (s.rd TRJ_DPTR_DBTAIL) ≤ pend tail then t.rd TRJ_DPTR_DBTAIL = tail ∧ t.rd TRJ_DPTR_HEAD = s.rd TRJ_DPTR_HEAD ∧ SameRegs s t [TRJ_DPTR]
      else t.rd TRJ_STAT_CMDREF = 1 ∧ SameRegs s t [TRJ_STAT])

/-- A cycle's course: the tables load and the distance field starts (R374, R380), a wave's end completes its candidates (R386), a batch's end
applies its cells and marks the candidates it touches (R388), STOP and the reduction end the evaluation (R385, R389); each only at its due
instant. -/
def Obligations.TrajectoryCycleAdvances : Prop :=
  (∀ (s : State) (c c' : Cycle) (u : Tx), s.dev.trj.cycle = some c → c.act = .load → c.desc.isSome = true → planOk c.d = true →
    (Tx.start s).loadTables c = (u, .ok c') →
    Completes .planLoadDone s fun t => t.dev.trj.cycle = some { c' with act := .field, due := 6 * s.now + 5 * 65536 } ∧ t.rd TRJ_STAT_STATE = 2 ∧ SameMem s t) ∧
  (∀ (s : State) (c : Cycle), s.dev.trj.cycle = some c → c.act = .field → c.due ≤ 6 * s.now → s.rd TRJ_DPTR_HEAD = s.rd TRJ_DPTR_DBTAIL →
    Completes .distanceFieldDone s fun t => t.dev.trj.cycle = some (c.proceed c.due) ∧ SameRegs s t [TRJ_STAT, TRJ_PROG] ∧ SameMem s t) ∧
  (∀ (s : State) (c : Cycle) (cands : List Nat), s.dev.trj.cycle = some c → c.act = .wave cands true → c.due ≤ 6 * s.now → cands.Nodup →
    s.rd TRJ_DPTR_HEAD = s.rd TRJ_DPTR_DBTAIL →
    Completes .waveEnd s fun t => SameMem s t ∧ ∃ c', t.dev.trj.cycle = some c' ∧ c'.dirty = c.dirty.drop cands.length ∧ c'.next = c.next ∧
      ∀ k, c'.results.at k = if k ∈ cands then some (c.eval (occupied c.unk c.grid) k) else c.results.at k) ∧
  (∀ (s : State) (c : Cycle) (b : Delta) (u : Tx) (maps : List (List Byte)), s.dev.trj.cycle = some c → c.act = .delta b → c.due ≤ 6 * s.now →
    (Tx.start s).trjReads (((b.changed.map cellTile).dedup).map fun n => (fld c.d 0x40 8 + n * 2048, 2048)) = (u, .ok maps) →
    b.upto = s.rd TRJ_DPTR_DBTAIL →
    Completes .deltaApplyDone s fun t => t.rd TRJ_DPTR_HEAD = b.upto ∧ SameMem s t ∧ ∃ c', t.dev.trj.cycle = some c' ∧ c'.grid = b.grid ∧ c'.told = b.told ∧
      c'.ndelta = c.ndelta + b.applied ∧ (∀ k ∈ c.dirty, k ∈ c'.dirty) ∧
      ∀ p ∈ c.results, p.2.isSome = true → (p.1 ∈ c'.dirty ↔ p.1 ∈ c.dirty ∨ ∃ m ∈ maps, bit (m.getD (p.1 / 8) 0#8).toNat (p.1 % 8) = true) ∧
        (p.1 ∈ c'.dirty → c'.results.at p.1 = none)) ∧
  (∀ (s : State) (c : Cycle), s.dev.trj.cycle = some c → (∀ r, c.act ≠ .publish r) → c.act ≠ .reduce → c.desc.isSome = true → c.stop ≤ 6 * s.now →
    Completes .trjStop s fun t => t.dev.trj.cycle = some { c with act := .reduce, due := max c.stop (6 * c.start) + 5 * 2048 } ∧ t.rd TRJ_STAT_STATE = 2 ∧
      SameRegs s t [TRJ_STAT, TRJ_PROG] ∧ SameMem s t) ∧
  (∀ (s : State) (c : Cycle), s.dev.trj.cycle = some c → c.act = .reduce → c.due ≤ 6 * s.now →
    Completes .reductionDone s fun t => t.dev.trj.cycle = some { c with act := .publish ((Tx.start s).trjRecord c) } ∧ t.rd TRJ_STAT_STATE = 3 ∧
      SameRegs s t [TRJ_STAT, TRJ_PROG] ∧ SameMem s t)

/-- The best candidate is the feasible, clean and completed one of least cost, the lower index among equals, none only where none qualifies,
and the reduction takes 2,048 cycles, in sixths of a nanosecond (R385).  A result stands exactly for a completed and clean candidate:
TrajectoryCycleAdvances says that a dirty candidate's result is gone. -/
def Obligations.BestCandidateWins : Prop := ∀ c : Cycle, (c.results.map (·.1)).Pairwise (· < ·) → (∀ k ∈ c.dirty, c.results.at k = none) →
  let qualifies (k : Nat) (r : CandRes) : Prop := (k, some r) ∈ c.results ∧ k ∉ c.dirty ∧ r.ok = true
  (∀ k r, c.best = some (k, r) → qualifies k r ∧ ∀ j q, qualifies j q → r.cost < q.cost ∨ (r.cost = q.cost ∧ k ≤ j)) ∧
  (c.best = none → ∀ j q, ¬ qualifies j q) ∧
  (∀ at_, c.dirty = [] → c.ncand ≤ 64 * c.next → c.proceed at_ = { c with act := .reduce, due := at_ + 5 * 2048 })

/-- A published record is in its slot and raises what its flags say (R390, R392, R397); a record leaves only with both releases and both gates
open, and one unsent for RELTO is discarded and counted (R30, R392). -/
def Obligations.RecordsGoOut : Prop :=
  (∀ (s : State) (c : Cycle) (r : List Byte) (u : Tx), s.dev.trj.cycle = some c → c.act = .publish r →
    (Tx.start s).trjWrite (sext48 (s.pair TRJ_RES_LO / 2048 * 2048 + fld r 4 4 % 8 * 2048)) r = (u, .ok ()) →
    Completes .publicationComplete s fun t => (∀ a, t.byte a = u.rb a) ∧ t.dev.trj.cycle = none ∧ t.rd TRJ_STAT_STATE = 0 ∧ t.rd TRJ_STAT_PUB = 1 ∧
      t.rd TRJ_SEQ_SEQ = fld r 4 4 % 2 ^ 32 ∧ (bit (fld r 0x28 2) 0 = true → t.rd TRJ_STAT_NOVAL = 1) ∧ (bit (fld r 0x28 2) 1 = true → t.rd TRJ_STAT_CUT = 1) ∧
      t.dev.trj.egress = if s.rd TRJ_CTL_EGREN = 1 then s.dev.trj.egress ++ [{ seq := fld r 4 4, pub := fld r 0x10 8, bytes := r }] else s.dev.trj.egress) ∧
  (∀ (s : State) (e : Egress) (rest : List Egress), s.dev.trj.egress = e :: rest →
    Completes .egressSend s fun t => SameRegs s t [] ∧ SameMem s t ∧
      if e.relA = true ∧ e.relB = true ∧ s.rd CLP_STAT_GATEA = 1 ∧ s.rd CLP_STAT_GATEB = 1 then
        t.dev.trj.egress = rest ∧ ∃ head, t.dev.out = s.dev.out ++ [⟨"ETH", "FRAME", head ++ e.bytes.map (·.toNat)⟩]
      else t = s) ∧
  (∀ s : State,
    let gone := s.dev.trj.egress.filter fun e => decide (e.pub + max 1 (s.rd TRJ_CTL_RELTO) * 100000 ≤ s.now)
    Completes .releaseTimeout s fun t => SameMem s t ∧
      t.dev.trj.egress = (s.dev.trj.egress.filter fun e => !decide (e.pub + max 1 (s.rd TRJ_CTL_RELTO) * 100000 ≤ s.now)) ∧
      (gone ≠ [] → t.rd TRJ_STAT_RELDROP = 1 ∧ t.rd TRJ_CNT0_RELDROPCNT = min (s.rd TRJ_CNT0_RELDROPCNT + gone.length) 65535 ∧
        SameRegs s t [TRJ_STAT, TRJ_CNT0, IRQ_STAT]) ∧ (gone = [] → t = s))

/-! The hub's side of the Cleats, and their request ring. -/

/-- A Cleat's frame at the hub marks its port live and has its effect: a release opens the egress for its record (R392), a refusal none, a
status rewrites every field of the mirror (R431, R433), votes of both Cleats against one compute die expel it (R426) and one of 20 ms sets
RTFENCE (R426, R191), an event enters the log (R404), a relay goes on to its destination (R427); a discarded frame is counted (R403). -/
def Obligations.HubTakesCleatFrames : Prop :=
  (∀ (s : State) (c : Cleat2) (ct : Nat), s.on domAON = true →
    Completes (.serialFrameDiscarded true c ct) s fun t => t.rd (clpLink c) = 0 ∧
      t.rd (clpDrop c) = min (s.rd (clpDrop c) + 1) (2 ^ (clpDrop c).width - 1) ∧ SameRegs s t [CLP_STAT, (clpDrop c).addr] ∧ SameMem s t ∧ t.dev = s.dev) ∧
  (∀ (s : State) (c : Cleat2) (ct : Nat), s.cleatRuns c = true → (s.dev.cleat.at c).linkLost = true →
    Completes (.serialFrameDiscarded false c ct) s fun t => (t.dev.cleat.at c).badfrm = (s.dev.cleat.at c).badfrm + 1 ∧ SameRegs s t [] ∧ SameMem s t) ∧
  (∀ (s : State) (c : Cleat2) (seq : Word) (code sample : BitVec 8), s.on domAON = true →
    (Completes (.release c seq) s fun t => t.rd (clpLink c) = 1 ∧ SameRegs s t [CLP_STAT] ∧ SameMem s t ∧
      t.dev.trj.egress = s.dev.trj.egress.map fun e => if e.seq = seq.toNat then { e with relA := e.relA || c == 0, relB := e.relB || c == 1 } else e) ∧
    (Completes (.refuse c seq code sample) s fun t => t.rd (clpLink c) = 1 ∧ SameRegs s t [CLP_STAT] ∧ SameMem s t ∧ t.dev = s.dev)) ∧
  (∀ (s : State) (c : Cleat2) (image : List Byte), s.on domAON = true → image.length = 4096 →
    Completes (.status c image) s fun t => SameMem s t ∧ t.dev = s.dev ∧ t.rd (clpLink c) = 1 ∧
      (∀ b, blockAt (mirBase c) = some b → ∀ r ∈ b.rows, ∀ a ∈ b.addrs r, ∀ f ∈ r.flds, t.rd ⟨a, f.hi, f.lo⟩ = bits (fld image (a - mirBase c) 4) f.hi f.lo) ∧
      ∀ a, (a < mirBase c ∨ mirBase c + 4096 ≤ a) → a ∉ [CLP_STAT, ID_CLA, ID_CLB, ID_VALID] → t.reg a = s.reg a) ∧
  (∀ (s : State) (c : Cleat2) (d : Die) (code : BitVec 8), s.on domAON = true →
    (Completes (.vote c 0 (BitVec.ofNat 8 d.val) 1 code) s fun t => t.rd (clpDie c d) = 1 ∧
      (bit t.dev.expelled d = true ↔ bit s.dev.expelled d = true ∨ s.rd (clpDie (1 - c.val) d) = 1) ∧
      (s.rd (clpDie (1 - c.val) d) = 0 → (∀ n < 4, s.rd (clpDie 0 n) = 0 ∨ s.rd (clpDie 1 n) = 0) → SameRegs s t [CLP_VOTE, CLP_STAT] ∧ SameMem s t)) ∧
    (bit s.dev.expelled d = false → Completes (.vote c 0 (BitVec.ofNat 8 d.val) 0 code) s fun t => t.rd (clpDie c d) = 0 ∧
      t.dev.expelled = s.dev.expelled ∧ SameRegs s t [CLP_VOTE, CLP_STAT] ∧ SameMem s t) ∧
    (bit s.dev.expelled d = true → Completes (.vote c 0 (BitVec.ofNat 8 d.val) 0 code) s fun t => t.dev = s.dev ∧ SameRegs s t [CLP_STAT] ∧ SameMem s t)) ∧
  (∀ (s : State) (c : Cleat2) (d : Die), s.rd (clpDie c d) = 1 → s.rd (clpDie (1 - c.val) d) = 0 → (Tx.start s).dieOn d = true →
    s.dev.clp.voteAt.at (8 * c.val + d.val) ≠ 0 → s.dev.clp.voteAt.at (8 * c.val + d.val) + 20000000 ≤ s.now + 1 → s.rd (CD_SCH_CTL_RTFENCE d) = 0 →
    Completes (.rtfenceSet d) s fun t => t.rd (CD_SCH_CTL_RTFENCE d) = 1 ∧ SameMem s t ∧
      ∀ k < 8, s.rd (CD_SCH_RCFG_RT d k) = 1 → (t.ctx d k).st ≠ .running ∧ (t.ctx d k).st ≠ .gated) ∧
  (∀ (s : State) (c : Cleat2) (entry : List Byte), s.on domAON = true → entry.length = 32 →
    Completes (.event c entry) s fun t => t.dev.log = s.dev.log.takes s.now entry ∧ SameRegs s t [CLP_STAT] ∧ SameMem s t) ∧
  (∀ (s : State) (src dest : Fin 4) (msg : List Byte), s.on domAON = true → msg.length ≤ 512 → src.val / 2 = modid ∨ dest.val / 2 = modid →
    Completes (.relay src dest msg) s fun t => SameRegs s t [CLP_STAT] ∧ SameMem s t ∧
      (dest.val / 2 = modid → t.dev.out = s.dev.out ++ [⟨if dest.val % 2 = 0 then "CLEAT-A" else "CLEAT-B", "RELAY",
        s.dev.clp.txSeq.at (dest.val % 2) :: msg.map (·.toNat)⟩]) ∧
      (dest.val / 2 ≠ modid → t.dev.out = if (Tx.start s).hawserUp then s.dev.out ++ [⟨"HAWSER", "RELAY", dest.val :: msg.map (·.toNat)⟩] else s.dev.out))

/-- SUMMARY goes to both Cleats once at every millisecond with the gates and the notice counts (R405); the request ring moves by its doorbell
and its commands (R432, R632), an admission streams its certificate between REQUEST and CERTEND, a revocation carries none (R417), and a
heartbeat goes to both (R432). -/
def Obligations.ClpServesTheCleats : Prop :=
  let both (s : State) (kind : String) (p : List Byte) : List Out :=
    [⟨"CLEAT-A", kind, s.dev.clp.txSeq.at 0 :: p.map (·.toNat)⟩, ⟨"CLEAT-B", kind, s.dev.clp.txSeq.at 1 :: p.map (·.toNat)⟩]
  (∀ s : State, s.on domAON = true → s.now % 1000000 = 0 → s.dev.clp.summary ≠ s.now + 1 →
    Completes .summarySend s fun t => SameRegs s t [] ∧ SameMem s t ∧ t.dev.clp.summary = s.now + 1 ∧
      t.dev.out = s.dev.out ++ both s "SUMMARY" (leBytes 8 s.now ++ leBytes 8 (s.rd CLP_STAT_GATEA + 2 * s.rd CLP_STAT_GATEB) ++
        (List.range 64).flatMap fun k => leBytes 4 (s.dev.clp.ncount.at k))) ∧
  (∀ (s : State) (mid : Mid) (v : Word), s.reaches mid.toNat CLP_DB = true →
    let n := 2 ^ (Tx.start s).clpLog
    let tail := bits v.toNat 11 0
    let pend (x : Nat) := (x + n - s.rd CLP_PTR_HEAD) % n
    Completes (.clpDoorbell mid v) s fun t => SameMem s t ∧ t.dev = s.dev ∧
      if tail < n ∧ pend (s.rd CLP_PTR_DBTAIL) ≤ pend tail then t.rd CLP_PTR_DBTAIL = tail ∧ t.rd CLP_PTR_HEAD = s.rd CLP_PTR_HEAD ∧ SameRegs s t [CLP_PTR]
      else t.rd CLP_STAT_CMDREF = 1 ∧ SameRegs s t [CLP_STAT]) ∧
  (∀ (s : State) (mid : Mid), s.reaches mid.toNat CLP_CMD = true →
    (Completes (.clpResume mid) s fun t => SameMem s t ∧
      if s.dev.clp.halted then t.dev.clp = { s.dev.clp with halted := false } ∧ SameRegs s t [] else t.rd CLP_STAT_CMDREF = 1 ∧ SameRegs s t [CLP_STAT]) ∧
    (Completes (.clpAbort mid) s fun t => t.dev.clp = { s.dev.clp with halted := false } ∧ t.rd CLP_PTR_HEAD = s.rd CLP_PTR_DBTAIL ∧
      SameRegs s t [CLP_PTR] ∧ SameMem s t)) ∧
  (∀ (s : State) (mid : Mid) (v : Word), s.reaches mid.toNat CLP_HB = true →
    Completes (.clpHb mid v) s fun t => SameRegs s t [] ∧ SameMem s t ∧
      ∃ p, p.length = 8 ∧ fld p 0 1 = bits v.toNat 6 0 ∧ t.dev.out = s.dev.out ++ both s "HB" p) ∧
  (∀ (s : State) (u : Tx) (e : List Byte), s.rd CLP_CTL_EN = 1 → s.dev.clp.halted = false → s.rd CLP_PTR_HEAD ≠ s.rd CLP_PTR_DBTAIL → s.on domFAB = true →
    (Tx.start s).vRead 4 (s.rd CLP_CTL_DEVCTX) clpMid (sext48 (s.pair CLP_RBASE_LO / 64 * 64 + 64 * s.rd CLP_PTR_HEAD)) 64 = (u, .ok e) →
    (fld e 0 1 ≠ 1 → Completes .revoke s fun t => t.rd CLP_PTR_HEAD = (s.rd CLP_PTR_HEAD + 1) % 2 ^ u.clpLog ∧
      t.dev.out = u.d.out ++ [⟨"CLEAT-A", "REQUEST", u.d.clp.txSeq.at 0 :: e.map (·.toNat)⟩, ⟨"CLEAT-B", "REQUEST", u.d.clp.txSeq.at 1 :: e.map (·.toNat)⟩,
        ⟨"CLEAT-A", "CERTEND", (u.d.clp.txSeq.at 0 + 1) % 2 ^ 32 :: (leBytes 2 (fld e 2 2) ++ leBytes 6 0).map (·.toNat)⟩,
        ⟨"CLEAT-B", "CERTEND", (u.d.clp.txSeq.at 1 + 1) % 2 ^ 32 :: (leBytes 2 (fld e 2 2) ++ leBytes 6 0).map (·.toNat)⟩] ∧ SameMem s t) ∧
    (fld e 0 1 = 1 → ∀ v bs, (u.cleatFrames "REQUEST" e).vRead 4 (s.rd CLP_CTL_DEVCTX) clpMid (fld e 8 8) (fld e 4 4) = (v, .ok bs) →
      Completes .admitTask s fun t => t.rd CLP_PTR_HEAD = (s.rd CLP_PTR_HEAD + 1) % 2 ^ v.clpLog ∧ t.dev.clp.halted = false ∧ SameMem s t ∧
        ((t.dev.out.drop v.d.out.length).filter fun o => o.port == "CLEAT-A" && o.kind == "CERT").flatMap (·.data.drop 1) = bs.map (·.toNat) ∧
        ∃ n m, t.dev.out.getLast? = some ⟨"CLEAT-B", "CERTEND", n :: m⟩))

/-! The Cleats. -/

/-- What the hub sends a running Cleat, in sequence: a summary gives the time basis, the notice counts and the gates (R405, R407, R420), a result
record is released or refused by the first check it fails (R409, R410), a grid record replaces the accepted one where it passes (R412), a
notice counts and acts by its KIND (R418), a heartbeat meets its task's window or violates it (R414, R415), and a request, its certificate and
its end give the admission's answer (R417). -/
def Obligations.CleatTakesHubFrames : Prop :=
  (∀ (s : State) (c : Cleat2) (ct : Nat) (l : Word) (dt : Nat) (gates : BitVec 8) (counts : List Word), s.cleatRuns c = true → s.inSeq c l.toNat = true →
    let x := s.cleatHears c ct l.toNat
    Completes (.summary c ct l dt gates counts) s fun t => CleatOnly s t c ∧
      let y := t.dev.cleat.at c
      y.basis = (if x.timeOk dt then some (dt, x.ct) else x.basis) ∧ y.sums.head? = some (dt, x.ct) ∧ y.gates = gates.toNat ∧
      (∀ k < 64, y.ncount.at k = (counts.getD k 0).toNat) ∧
      (x.timeOk dt = true → bit gates.toNat c = (x.st == .engaged) → bit gates.toNat (1 - c.val) = true → (∀ k < 64, x.ncount.at k = (counts.getD k 0).toNat) →
        y.gateBad = 0 ∧ y.reason = x.reason ∧ (x.st ≠ .boot → y.st = x.st) ∧
        (x.st = .boot → y.st = if x.spb.isSome ∧ y.linkLost = false ∧ x.vehicleOk = true then (if x.qualified then .ready else .restricted) else .boot))) ∧
  (∀ (s : State) (c : Cleat2) (ct : Nat) (l : Word) (bytes : List Byte), s.cleatRuns c = true → s.inSeq c l.toNat = true → bytes.length = 1152 →
    let x := s.cleatHears c ct l.toNat
    let seq := fld bytes 4 4
    x.st ≠ .boot → x.pair.view = .solo → x.skipSeq = false → ∀ u res,
    (Tx.start s).firstRefusal (x.recordChecks bytes x.conv (x.lastSeq.at modid) ++ x.gridChecks bytes x.conv) = (u, res) →
    (x.pair.swap = none → Completes (.resultFrame c ct l bytes) s fun t => CleatOnly s t c ∧
      let y := t.dev.cleat.at c
      match res with
      | none => y.run = x.run + 1 ∧ y.seqref = seq ∧ y.lastSeq.at modid = some seq ∧ (y.tasks.at 0).viol = false ∧
          ⟨"HUB-" ++ cleatName c, "RELEASE", (leBytes 4 seq ++ leBytes 4 0).map (·.toNat)⟩ ∈ t.dev.out.drop s.dev.out.length
      | some (code, smp) => y.run = 0 ∧ y.seqref = x.seqref ∧ y.refuse = min (x.refuse % 2 ^ 16 + 1) 0xFFFF + smp * 2 ^ 16 + code * 2 ^ 24 ∧
          ⟨"HUB-" ++ cleatName c, "REFUSE", (leBytes 4 seq ++ leBytes 1 code ++ leBytes 1 smp ++ leBytes 2 0).map (·.toNat)⟩ ∈ t.dev.out.drop s.dev.out.length ∧
          y.reason = code ∧ (x.st = .engaged → y.st = .stopping ∧ y.stopReason = code))) ∧
  (∀ (s : State) (c : Cleat2) (ct : Nat) (l : Word) (bytes : List Byte), s.cleatRuns c = true → s.inSeq c l.toNat = true → bytes.length = 67648 →
    let x := s.cleatHears c ct l.toNat
    x.st ≠ .boot → Completes (.gridFrame c ct l bytes) s fun t => CleatOnly s t c ∧
      let y := t.dev.cleat.at c
      if x.gridCode bytes = 0 then y.grid = some bytes ∧ y.refuse = x.refuse ∧ (y.tasks.at 1).viol = false
      else y.grid = x.grid ∧ y.refuse = min (x.refuse % 2 ^ 16 + 1) 0xFFFF + 0xFF0000 + x.gridCode bytes * 2 ^ 24) ∧
  (∀ (s : State) (c : Cleat2) (ct : Nat) (l : Word) (kind unit : BitVec 16) (n : Word) (ts a0 a1 : Nat), s.cleatRuns c = true → s.inSeq c l.toNat = true →
    let x := s.cleatHears c ct l.toNat
    Completes (.notice c ct l kind unit n ts a0 a1) s fun t => CleatOnly s t c ∧
      let y := t.dev.cleat.at c
      y.ncount.at kind.toNat = (x.ncount.at kind.toNat + 1) % 2 ^ 32 ∧
      (kind = 0x01 → x.st ≠ .boot → unit.toNat < 4 → bit x.gone unit.toNat = false → bit y.vote unit.toNat = true) ∧
      (kind = 0x0A ∨ kind = 0x0D → y.degraded = true) ∧ (kind = 0x0F → y.poseBad = true) ∧ (kind = 0x10 → y.poseBad = false) ∧
      (kind = 0x0B → unit.toNat < 4 → bit y.gone unit.toNat = true) ∧
      (kind = 0x13 → (x.paired = false → y.envelope = true ∧ (x.st = .engaged → y.st = .stopping)) ∧ (x.paired = true → y.degraded = true)) ∧
      (∀ i, kind = 0x05 → x.rtTask a0 = some i → (y.tasks.at i).run = some (a1, x.ct) ∧ (y.tasks.at i).die = unit.toNat) ∧
      (∀ i, kind = 0x06 → x.rtTask a0 = some i → (y.tasks.at i).run = none ∧ (y.tasks.at i).commit = some x.est) ∧
      (∀ i, kind = 0x04 → x.rtTask a0 = some i → x.st ≠ .boot → (y.tasks.at i).viol = true)) ∧
  (∀ (s : State) (c : Cleat2) (ct : Nat) (l : Word) (task : BitVec 8) (n : Word), s.cleatRuns c = true → s.inSeq c l.toNat = true →
    let x := s.cleatHears c ct l.toNat
    let i := task.toNat
    let p := x.taskF i 8 4 * 1000
    let tol := x.taskF i 12 4 * 1000
    let d := x.ct + 1 - (x.tasks.at i).last
    i < 128 → x.taskF i 0 1 = 1 → x.st ≠ .boot → Completes (.hb c ct l task n) s fun t => CleatOnly s t c ∧
      let y := t.dev.cleat.at c
      (y.tasks.at i).last = x.ct + 1 ∧ (y.tasks.at i).due = some (x.ct + p + tol) ∧
      ((y.tasks.at i).viol = true ↔ (x.tasks.at i).last ≠ 0 ∧ (d + tol < p ∨ p + tol < d))) ∧
  (∀ (s : State) (c : Cleat2) (ct : Nat) (l : Word) (entry : List Byte), s.cleatRuns c = true → s.inSeq c l.toNat = true → entry.length = 64 →
    let x := s.cleatHears c ct l.toNat
    let task := fld entry 1 1
    let tag := fld entry 2 2
    Completes (.request c ct l entry) s fun t => CleatOnly s t c ∧
      let y := t.dev.cleat.at c
      (fld entry 0 1 = 1 → y.req = some (1, task, tag, fld entry 4 4) ∧ y.cert = [] ∧ y.tasks = x.tasks) ∧
      (fld entry 0 1 = 2 → y.rsp.at (tag % 64) = tag * 2 ^ 16 + (if task < 128 ∧ x.taskF task 0 1 = 2 then 0x07 else 0x05) ∧
        (task < 128 → x.taskF task 0 1 = 2 → if (x.tasks.at task).run.isSome then (y.tasks.at task).revoke = true else (y.tasks.at task).budget = none))) ∧
  (∀ (s : State) (c : Cleat2) (ct : Nat) (l : Word) (bytes : List Byte), s.cleatRuns c = true → s.inSeq c l.toNat = true → bytes.length ≤ 4096 →
    Completes (.cert c ct l bytes) s fun t => CleatOnly s t c ∧ t.dev.out = s.dev.out ∧
      (t.dev.cleat.at c).cert = (s.dev.cleat.at c).cert ++ if (s.dev.cleat.at c).req.isSome then bytes else []) ∧
  (∀ (s : State) (c : Cleat2) (ct : Nat) (l : Word) (tag : BitVec 16) (status : BitVec 8) (op task len : Nat), s.cleatRuns c = true → s.inSeq c l.toNat = true →
    let x := s.cleatHears c ct l.toNat
    let r := x.admission task len x.cert status.toNat
    x.req = some (op, task, tag.toNat, len) → Completes (.certend c ct l tag status) s fun t => CleatOnly s t c ∧
      let y := t.dev.cleat.at c
      y.req = none ∧ y.cert = [] ∧ y.rsp.at (tag.toNat % 64) = tag.toNat * 2 ^ 16 + r ∧
      (r = 1 → (y.tasks.at task).budget = some (fld x.cert 0x10 8) ∧ fld x.cert 0x10 8 ≤ x.taskF task 0x10 4 * 1000) ∧ (r ≠ 1 → y.tasks = x.tasks))

/-- What a Cleat does of itself: the hub link is lost after 3 ms (R406) and the vehicle state when a needed signal stays out (R408), each a fault
that stops an engaged Cleat alone (R420, R422); a task's due instant passes (R415); a valid frame gives its signal (R408); it engages only as
R420 allows and disengages when told; it publishes its stop (R423, R424) and rests at a standstill (R420); SAFE, the thermal trip, the reset pin
and a restored supply boot it anew (R401, R559), its CAN transceivers in standby meanwhile (R598); its latent test runs in its hour (R429) and its vote is withdrawn (R426).  A Cleat without power
does none of it. -/
def Obligations.CleatActsByItself : Prop :=
  (∀ (s : State) (c : Cleat2) (ct : Nat), s.cleatRuns c = true →
    let x := s.cleatAt c ct
    let alone := x.st ≠ .boot ∧ x.pair.view = .solo
    (x.linkLost = false → (∀ m ∈ x.sums.head?, m.2 + 3000000 ≤ x.ct) → (x.sums = [] → 3000000 ≤ x.ct) → alone →
      Completes (.hubLinkLost c ct) s fun t => CleatOnly s t c ∧ (t.dev.cleat.at c).linkLost = true ∧ (t.dev.cleat.at c).reason = 0x33 ∧
        (t.dev.cleat.at c).st = if x.st = .engaged then .stopping else x.st) ∧
    (x.spb.isSome = true → x.vehLost = false → x.vehicleOk = false → alone →
      Completes (.vehicleStateLost c ct) s fun t => CleatOnly s t c ∧ (t.dev.cleat.at c).vehLost = true ∧ (t.dev.cleat.at c).reason = 0x32 ∧
        (t.dev.cleat.at c).st = if x.st = .engaged then .stopping else x.st)) ∧
  (∀ (s : State) (c : Cleat2) (ct : Nat) (i : Fin 128), s.cleatRuns c = true →
    let x := s.cleatAt c ct
    let a : Int := (x.taskF i 0x18 4 * 1000 + (x.tasks.at i).act * (x.taskF i 8 4 * 1000) : Nat)
    x.st ≠ .boot → Completes (.taskDue c ct i) s fun t => CleatOnly s t c ∧
      let y := t.dev.cleat.at c
      (∀ d, x.taskF i 0 1 = 1 ∨ x.taskF i 0 1 = 3 → (x.tasks.at i).due = some d → d ≤ x.ct → (y.tasks.at i).viol = true ∧ (y.tasks.at i).due = none) ∧
      (x.taskF i 0 1 = 2 → x.taskF i 8 4 ≠ 0 → a + (x.taskF i 0x14 4 * 1000 + (x.tasks.at i).grace : Nat) ≤ x.est →
        (y.tasks.at i).act = (x.tasks.at i).act + 1 ∧ ((y.tasks.at i).viol = false ↔ ∃ e, (x.tasks.at i).commit = some e ∧ a ≤ e))) ∧
  (∀ (s : State) (c : Cleat2) (ct : Nat) (port : Fin 2) (ide : Bool) (id : BitVec 29) (data : List Byte), s.cleatRuns c = true →
    let x := s.cleatAt c ct
    (x.pair.view = .solo → x.pair.aside = false → Completes (.cleatCanFrame c ct port ide id data) s fun t => CleatOnly s t c ∧
      ∀ i < 32, ∀ raw ctr, 1 ≤ x.canF i 5 1 → x.canF i 5 1 ≤ 4 → x.canValid i port ide id.toNat data = some (raw, ctr) →
        (t.dev.cleat.at c).canin.at i = ⟨some ctr, x.ct + 1⟩ ∧
        ((∀ j < 32, i < j → x.canF j 5 1 ≠ x.canF i 5 1) →
          ((t.dev.cleat.at c).hist.at (x.canF i 5 1)).head? = some (x.est, raw * sint 32 (x.canF i 12 4) + sint 32 (x.canF i 16 4)))) ∧
    ((∀ i < 32, ∀ raw ctr, x.canF i 5 1 = 5 → x.canValid i port ide id.toNat data = some (raw, ctr) → x.commands i raw = true → x.mayEngage = false) →
      Completes (.engage c ct port ide id data) s fun t => CleatOnly s t c ∧ (t.dev.cleat.at c).st = x.st ∧ t.dev.out = s.dev.out) ∧
    ((∃ i < 32, ∃ raw ctr, x.canF i 5 1 = 5 ∧ x.canValid i port ide id.toNat data = some (raw, ctr) ∧ x.commands i raw = true) → x.mayEngage = true →
      Completes (.engage c ct port ide id data) s fun t => CleatOnly s t c ∧ (t.dev.cleat.at c).st = .engaged ∧
        ⟨"GATE-" ++ cleatName c, "WAVE", []⟩ ∈ t.dev.out.drop s.dev.out.length) ∧
    ((∃ i < 32, ∃ raw ctr, x.canF i 5 1 = 6 ∧ x.canValid i port ide id.toNat data = some (raw, ctr) ∧ x.commands i raw = true) →
      Completes (.disengage c ct port ide id data) s fun t => CleatOnly s t c ∧
        (t.dev.cleat.at c).st = if x.st = .engaged ∨ x.st = .stopping then .ready else x.st)) ∧
  (∀ (s : State) (c : Cleat2) (ct : Nat), s.cleatRuns c = true →
    let x := s.cleatAt c ct
    (x.st.publishes = true → (x.st = .stopping → x.published + 10000000 ≤ x.ct + 1) →
      Completes (.stopRecordPublish c ct) s fun t => CleatOnly s t c ∧
        let y := t.dev.cleat.at c
        y.counter = (x.counter + 1) % 65536 ∧ y.published = x.ct + 1 ∧ (x.st = .stopping → y.stop = x.stop) ∧
        let r := (y.record c).map (·.toNat)
        t.dev.out = s.dev.out ++ [⟨"CAN-" ++ cleatName c ++ "0", "STOP", (x.spbF 0x1DD8 4 + 0x10 * modid) :: r⟩,
          ⟨"CAN-" ++ cleatName c ++ "1", "STOP", (x.spbF 0x1DDC 4 + 0x10 * modid) :: r⟩,
          ⟨"SGMII-" ++ cleatName c, "STOP", ((((x.spb.getD []).drop 0x1DE0).take 6).map (·.toNat)) ++ [x.spbF 0x1DE6 2, 0x88B6] ++ r⟩]) ∧
    (Completes (.standstill c ct) s fun t => CleatOnly s t c ∧
      (t.dev.cleat.at c).st = if x.st = .stopping ∧ x.slow ≠ 0 ∧ x.slow + 1000000000 ≤ x.ct + 1 then .ready else x.st)) ∧
  (∀ (s : State) (c : Cleat2) (ct : Nat) (lost pass : Bool), s.cleatRuns c = true →
    let x := s.cleatAt c ct
    let fresh : Cleat := { ct := x.ct, tested := x.ct, outside := x.ct, otp := x.otp }
    (Completes (.cleatSafe c ct lost) s fun t => CleatOnly s t c ∧ t.dev.cleat.at c = { fresh with dark := lost } ∧ t.canStandby c = true ∧
      (x.st = .engaged → t.dev.out = s.dev.out ++ [⟨"GATE-" ++ cleatName c, "STATIC", []⟩])) ∧
    (Completes (.cleatThermalTrip c ct) s fun t => CleatOnly s t c ∧ t.dev.cleat.at c = { fresh with st := .tripped } ∧ t.canStandby c = true) ∧
    (Completes (.cleatResetPin c ct) s fun t => CleatOnly s t c ∧ t.dev.cleat.at c = fresh) ∧
    (Completes (.cleatSramScrub c ct) s fun t => CleatOnly s t c ∧ t.dev.cleat.at c = x ∧ t.dev.out = s.dev.out) ∧
    (x.st ≠ .engaged → x.st ≠ .stopping → x.tested + 3600000000000 < x.ct → x.outside + 1000000000 ≤ x.ct →
      Completes (.latentTest c ct pass) s fun t => CleatOnly s t c ∧
        if pass then (t.dev.cleat.at c).tested = x.ct ∧ (t.dev.cleat.at c).latent = false ∧ (t.dev.cleat.at c).st = x.st else t.dev.cleat.at c = fresh) ∧
    (x.tested + 36000000000000 < x.ct → Completes (.latentOverdue c ct) s fun t => CleatOnly s t c ∧
      (t.dev.cleat.at c).latent = true ∧ (t.dev.cleat.at c).st = x.st)) ∧
  (∀ (s : State) (c : Cleat2) (ct : Nat),
    let x := s.cleatAt c ct
    let fresh : Cleat := { ct := x.ct, tested := x.ct, outside := x.ct, otp := x.otp }
    (x.st = .tripped → Completes (.cleatCooled c ct) s fun t => CleatOnly s t c ∧ t.dev.cleat.at c = fresh) ∧
    (x.dark = true → Completes (.cleatPowerUp c ct) s fun t => CleatOnly s t c ∧ t.dev.cleat.at c = fresh) ∧
    (x.alive = false → ∀ i ∈ [Instr.hubLinkLost c ct, .vehicleStateLost c ct, .stopRecordPublish c ct, .standstill c ct, .cleatSafe c ct true,
      .cleatThermalTrip c ct, .cleatResetPin c ct, .latentTest c ct true, .latentOverdue c ct], Completes i s fun t => t = s)) ∧
  (∀ (s : State) (c : Cleat2) (ct : Nat) (d : Die), s.cleatRuns c = true →
    let x := s.cleatAt c ct
    bit x.vote d = true → bit x.gone d = false → (∀ e ∈ x.evidence, e.2 = d.val → e.1 + 1000000000 ≤ x.ct) →
    Completes (.voteWithdraw c ct d) s fun t => CleatOnly s t c ∧ bit (t.dev.cleat.at c).vote d = false ∧
      t.dev.out = s.dev.out ++ [⟨"HUB-" ++ cleatName c, "VOTE", (leBytes 2 (256 * d.val) ++ leBytes 6 0).map (·.toNat)⟩])

/-! The pair. -/

/-- The pair at a running Cleat: a message of the Cleat's own ORIGIN is a link fault (R596), a partner's relayed message marks it heard and has its effect (R481), time exchanges bound θ and a stale one stands
a follower aside (R482, R488), STATE gives the partner's report and makes a follower (R479), silence of the partner ends the pair (R487), records
are compared by PLANID (R483, R484) and checked by a follower without release (R479), digests open and close disputes (R485, R486), the votes
of three expel a module (R490), and a handover swaps the view once four have acknowledged its key (R492). -/
def Obligations.CleatsKeepThePair : Prop :=
  let sends (s : State) (c kind : Nat) (dest : List Nat) (body : List Byte) : List Out :=
    dest.map fun d => ⟨"HUB-" ++ cleatName c, "RELAY", (leBytes 1 d ++ relayMessage c kind (s.dev.cleat.at c).pair.ctr body).map (·.toNat)⟩
  (∀ (s : State) (c : Cleat2) (ct : Nat) (l : Word) (msg b : List Byte) (kind : Nat), s.cleatRuns c = true → s.inSeq c l.toNat = true →
    let x := s.cleatHears c ct l.toNat
    let o := fld msg 0 1
    let far := o / 2 = 1 - modid
    (relayOwn c msg = true → (x.faults.filter fun f => decide (x.ct < f + 100000000)).length < 2 →
      Completes (.state c ct l msg) s fun t => CleatOnly s t c ∧ t.dev.out = s.dev.out ∧ (t.dev.cleat.at c).badfrm = x.badfrm + 1 ∧
        (t.dev.cleat.at c).pair = x.pair) ∧
    (x.st ≠ .boot → relayBody msg kind = some b → o ≠ origin c →
    (kind = 1 → b.length = 8 → fld b 0 1 = 1 → fld b 1 1 < 2 → fld b 2 1 = 1 → Completes (.relayedVote c ct l msg) s fun t => CleatOnly s t c ∧
      let y := t.dev.cleat.at c
      y.pair.mvotes.at (fld b 1 1) = x.pair.mvotes.at (fld b 1 1) ||| 2 ^ o ∧ (far → (y.pair.partner.at (o % 2)).relay = x.ct + 1) ∧
      (3 ≤ popcount 4 (y.pair.mvotes.at modid) → y.st = .expelled) ∧
      (popcount 4 (y.pair.mvotes.at modid) < 3 → 3 ≤ popcount 4 (y.pair.mvotes.at (1 - modid)) → y.pair.view = .solo ∧ y.st = x.st)) ∧
    (kind = 2 → b.length = 8 → Completes (.timereq c ct l msg) s fun t => CleatOnly s t c ∧
      let e := leBytes 8 (scode 64 x.est)
      t.dev.out = s.dev.out ++ sends s c 3 [o] (b ++ e ++ e ++ leBytes 1 o)) ∧
    (kind = 3 → Completes (.timersp c ct l msg) s fun t => CleatOnly s t c ∧ t.dev.out = s.dev.out ∧
      let v (k : Nat) : Int := sint 64 (fld b (8 * k) 8)
      (t.dev.cleat.at c).pair.theta =
        if b.length = 25 ∧ fld b 24 1 = origin c ∧ o = 2 * (1 - modid) + c.val ∧ x.pair.t1 = some (v 0) ∧ (x.est - v 0) - (v 2 - v 1) ≤ 1000000 then
          some (v 2 - x.est - 8000, v 1 - v 0 + 8000, x.ct) else x.pair.theta) ∧
    (kind = 4 → b.length = 8 → far → Completes (.state c ct l msg) s fun t => CleatOnly s t c ∧
      let y := t.dev.cleat.at c
      let p := y.pair.partner.at (o % 2)
      p.relay = x.ct + 1 ∧ p.state = fld b 0 1 ∧ p.view = fld b 1 1 ∧ p.aside = bit (fld b 2 1) 0 ∧ p.synced = bit (fld b 2 1) 1 ∧ p.reason = fld b 3 1 ∧
      (fld b 0 1 = 3 → bit (fld b 2 1) 0 = false → x.st = .ready ∨ x.st = .restricted → popcount 4 (x.pair.mvotes.at (1 - modid)) < 3 →
        y.pair.view = .follower)) ∧
    (kind = 5 → b.length = 4 → ∀ key at_ m, x.pair.hand = some (key, at_, m) → fld b 0 4 = key → Completes (.handack c ct l msg) s fun t => CleatOnly s t c ∧
      let y := t.dev.cleat.at c
      if m ||| 2 ^ o = 15 then y.pair.hand = none ∧ y.pair.swap = some key else y.pair.hand = some (key, at_, m ||| 2 ^ o) ∧ y.pair.swap = x.pair.swap) ∧
    (kind = 6 → b.length = 4 → Completes (.handnak c ct l msg) s fun t => CleatOnly s t c ∧ t.dev.out = s.dev.out ∧
      (t.dev.cleat.at c).pair.hand = x.pair.hand.filter fun h => h.1 != fld b 0 4))) ∧
  (∀ (s : State) (c : Cleat2) (ct : Nat), s.cleatRuns c = true →
    let x := s.cleatAt c ct
    x.st ≠ .boot →
    (Completes (.timeExchange c ct) s fun t => CleatOnly s t c ∧ (t.dev.cleat.at c).pair.t1 = some x.est ∧
      t.dev.out = s.dev.out ++ sends s c 2 [2 * (1 - modid) + c.val] (leBytes 8 (scode 64 x.est))) ∧
    (Completes (.stateSend c ct) s fun t => CleatOnly s t c ∧ t.dev.out = s.dev.out ++ sends s c 4 (otherOrigins c) x.stateBody ∧
      (t.dev.cleat.at c).pair.ctr = (x.pair.ctr + 1) % 65536) ∧
    (x.pair.view = .follower → (∀ h ∈ x.pair.theta, h.2.2 + 100000000 ≤ x.ct) → (x.pair.theta = none → 100000000 ≤ x.ct) →
      (x.pair.asides.filter fun e => e.2 == modid).length < 2 → Completes (.pairTimeStale c ct) s fun t => CleatOnly s t c ∧
        let y := t.dev.cleat.at c
        y.reason = 0x50 ∧ (x.st ≠ .engaged → y.st = x.st) ∧
        (x.st = .engaged → if x.pair.synced then y.pair.aside = true ∧ y.st = .ready ∧ y.pair.synced = false else y.st = .stopping)) ∧
    (x.paired = true → x.pair.aside = false → x.silent = true → Completes (.partnerSilent c ct) s fun t => CleatOnly s t c ∧
      let y := t.dev.cleat.at c
      y.pair.view = .solo ∧ y.pair.synced = false ∧ y.st = x.st) ∧
    (x.pair.disputes.length ≤ 1 → Completes (.disputeClose c ct) s fun t => CleatOnly s t c ∧
      let y := t.dev.cleat.at c
      y.pair.disputes = (x.pair.disputes.filter fun d => (d.outcome (decide (d.close ≤ x.ct))).isNone) ∧
      (∀ d ∈ x.pair.disputes, d.outcome (decide (d.close ≤ x.ct)) = some none → y.reason = 0x51 ∧ (x.st = .engaged → y.st = .stopping)) ∧
      (∀ d ∈ x.pair.disputes, ∀ m die, d.outcome (decide (d.close ≤ x.ct)) = some (some (m, die)) → y.pair.resolved.head? = some (x.ct, m))) ∧
    (let n := (x.pair.recs.filter fun e => decide (e.2.2.2 ≤ x.ct)).length + (x.pair.digs.filter fun e => decide (e.2 ≤ x.ct)).length
     Completes (.recordUnmatched c ct) s fun t => CleatOnly s t c ∧
      let y := t.dev.cleat.at c
      y.pair.recs = (x.pair.recs.filter fun e => decide (x.ct < e.2.2.2)) ∧ y.pair.digs = (x.pair.digs.filter fun e => decide (x.ct < e.2)) ∧
      (n = 0 → y.pair.unmatched = x.pair.unmatched ∧ y.reason = x.reason) ∧
      (n ≠ 0 → x.pair.unmatched + n < 3 → y.pair.unmatched = x.pair.unmatched + n ∧ y.pair.equalRun = 0 ∧ y.reason = x.reason) ∧
      (n ≠ 0 → 3 ≤ x.pair.unmatched + n → y.pair.unmatched = 0 ∧ y.reason = 0x52)) ∧
    (Completes (.handoverTimeout c ct) s fun t => CleatOnly s t c ∧ t.dev.out = s.dev.out ∧
      (t.dev.cleat.at c).pair.hand = x.pair.hand.filter fun h => decide (x.ct < h.2.1 + 100000000))) ∧
  (∀ (s : State) (c : Cleat2) (ct : Nat) (l key : Word) (bytes : List Byte), s.cleatRuns c = true → s.inSeq c l.toNat = true →
    let x := s.cleatHears c ct l.toNat
    let plan := fld bytes 0x2C 4
    let ready := x.paired = true ∧ x.pair.synced = true ∧ x.pair.disputes = [] ∧ x.st = .engaged ∧ x.pair.sib.state = 3 ∧ x.partnersDrive = true ∧
      x.pair.maxPlan + 1 ≤ key.toNat
    x.st ≠ .boot →
    (x.pair.hand = none → ready → Completes (.handreq c ct l key) s fun t => CleatOnly s t c ∧ (t.dev.cleat.at c).pair.hand = some (key.toNat, x.ct, 2 ^ origin c) ∧
      t.dev.out = s.dev.out ++ sends s c 5 (otherOrigins c) (leBytes 4 key.toNat)) ∧
    (¬ ready → Completes (.handreq c ct l key) s fun t => CleatOnly s t c ∧ (t.dev.cleat.at c).pair.hand = none ∧
      t.dev.out = s.dev.out ++ sends s c 6 (otherOrigins c) (leBytes 4 key.toNat)) ∧
    (x.st = .engaged → x.pair.view = .follower → Completes (.asidereq c ct l) s fun t => CleatOnly s t c ∧
      let y := t.dev.cleat.at c
      let reports := x.pair.asides.filter fun e => decide (x.ct < e.1 + 600000000000) && e.2 == modid
      y.pair.aside = true ∧ y.pair.asideAt = x.ct + 1 ∧ y.pair.synced = false ∧ y.pair.equalRun = 0 ∧
      (reports.length < 2 → y.st = .ready ∧ y.pair.cast = x.pair.cast) ∧ (2 ≤ reports.length → bit y.pair.cast modid = true)) ∧
    (bytes.length = 1152 → x.pair.view = .source → x.pair.swap = none → Completes (.partnerRecord c ct l bytes) s fun t => CleatOnly s t c ∧
      let y := t.dev.cleat.at c
      y.run = x.run ∧ y.seqref = x.seqref ∧
      match x.pair.recs.find? fun e => e.1 == modid && e.2.1 == plan with
      | none => ∃ due, y.pair.recs = x.pair.recs ++ [(1 - modid, plan, bytes, due)]
      | some e => y.pair.recs = (x.pair.recs.filter fun r => !(r.1 == modid && r.2.1 == plan)) ∧ y.pair.unmatched = 0 ∧
          (comparable bytes e.2.2.1 = true → comparedBytes bytes = comparedBytes e.2.2.1 → y.pair.matched = (x.pair.matched + 1) % 2 ^ 32 ∧
            y.pair.equalRun = x.pair.equalRun + 1 ∧ y.pair.synced = (x.pair.synced || decide (20 ≤ x.pair.equalRun + 1))) ∧
          (comparable bytes e.2.2.1 = true → comparedBytes bytes ≠ comparedBytes e.2.2.1 → x.pair.resolved = [] →
            y.pair.equalRun = 0 ∧ y.pair.mism = [x.ct + 200000000])) ∧
    (bytes.length = 1152 → x.pair.view = .follower → x.pair.swap = none → x.skipSeq = false → ∀ u,
      (Tx.start s).firstRefusal (x.recordChecks bytes x.conv (x.lastSeq.at (1 - modid)) ++ x.gridChecks bytes x.conv) = (u, none) →
      Completes (.partnerRecord c ct l bytes) s fun t => CleatOnly s t c ∧
        let y := t.dev.cleat.at c
        y.run = x.run + 1 ∧ y.seqref = fld bytes 4 4 ∧ ∀ o ∈ t.dev.out.drop s.dev.out.length, o.kind ≠ "RELEASE") ∧
    (∀ k, bytes.length = 1152 → x.pair.view = .source → x.pair.swap = some k → k ≤ plan → Completes (.resultFrame c ct l bytes) s fun t => CleatOnly s t c ∧
      (t.dev.cleat.at c).pair.view = .follower ∧ (t.dev.cleat.at c).pair.swap = none ∧ (t.dev.cleat.at c).run = x.run) ∧
    (bytes.length = 80 → x.paired = true → fld bytes 0 4 = 0x44475331 → crc32c (bytes.take 0x4C) = fld bytes 0x4C 4 → fld bytes 5 1 < 2 → fld bytes 4 1 < 8 →
      x.est - (fld bytes 0x10 8 : Nat) + x.conv.age + 4000 ≤ (x.age (fld bytes 4 1) : Int) → fld bytes 7 1 = 0 → Completes (.digestRecord c ct l bytes) s fun t => SameMem s t ∧
      let y := t.dev.cleat.at c
      let d : Dig := ⟨fld bytes 4 1, fld bytes 5 1, fld bytes 6 1, fld bytes 8 4, false, (bytes.drop 0x28).take 32, fld bytes 0x10 8⟩
      match x.pair.digs.find? fun e => e.1.cls == d.cls && e.1.key == d.key && e.1.modid != d.modid with
      | none => (∃ due, y.pair.digs = x.pair.digs ++ [(d, due)]) ∧ y.pair.disputes = x.pair.disputes
      | some e => y.pair.digs = (x.pair.digs.filter fun g => !(g.1 == e.1)) ∧ y.pair.unmatched = 0 ∧
          (e.1.hash = d.hash → y.pair.disputes = x.pair.disputes) ∧
          (e.1.hash ≠ d.hash → x.pair.disputes.length < 8 → ∃ q, y.pair.disputes = x.pair.disputes ++ [q] ∧ q.cls = d.cls ∧ q.key = d.key ∧
            q.close = x.ct + 200000000 ∧ q.a1 = none ∧ q.b1 = none ∧ if d.modid = 0 then q.a0 = d ∧ q.b0 = e.1 else q.a0 = e.1 ∧ q.b0 = d)))

/-! The Hawser. -/

/-- The ports come up once trained and keyed and go down, with both down the stream breaks (R470, R477); the oldest mirror entry leaves with the
next packet number and an arriving one is written in order (R475, R476), an acknowledgement releases, silence sends again (R470), a discarded frame
is counted (R470), and remote writes land in their context and are answered (R472, R494). -/
def Obligations.HawserCarries : Prop :=
  (∀ (s : State) (p : Fin 2), s.on domFAB = true → s.rd HWS_CTL_EN = 1 → bit (s.rd HWS_CTL_PORTEN) p = true → s.rd (hwsUpBit p) = 0 →
    Completes (.hawserLinkUp p) s fun t => SameMem s t ∧ if (Tx.start s).pairKey = true then
        t.rd (hwsUpBit p) = 1 ∧ t.rd HWS_STAT_LINKCHG = 1 ∧ t.dev.hws.retries.at p = 0 ∧
          t.rd HWS_MAUD_MIRCAP = (if s.rd (hwsUpBit (1 - p.val)) = 1 then 312 else 156) ∧ SameRegs s t [HWS_STAT, HWS_MAUD, IRQ_STAT]
      else SameRegs s t [] ∧ t.dev = s.dev) ∧
  (∀ (s : State) (p : Fin 2), s.rd (hwsUpBit p) = 1 → Completes (.hawserLinkDown p) s fun t => t.rd (hwsUpBit p) = 0 ∧ t.rd HWS_STAT_LINKCHG = 1 ∧ SameMem s t ∧
      if s.rd (hwsUpBit (1 - p.val)) = 1 then t.rd HWS_MAUD_MIRCAP = 156 ∧ t.dev.hws = s.dev.hws
      else t.rd HWS_MAUD_MIRCAP = 0 ∧ t.rd HWS_STAT_MIRBRK = 1 ∧ t.rd HWS_STAT_MIRON = 0 ∧ t.rd HWS_STAT_RESYNC = 0 ∧ t.dev.hws.queue = [] ∧ t.dev.hws.early = [] ∧
        t.dev.hws.rxSeq = 0 ∧ t.rd HWS_CNT1_BREAKS = min (s.rd HWS_CNT1_BREAKS + 1) (2 ^ HWS_CNT1_BREAKS.width - 1)) ∧
  (∀ (s : State) (e : MirEnt) (rest : List MirEnt), s.dev.hws.queue = e :: rest → s.dev.hws.resync = [] → s.rd HWS_CTL_EN = 1 →
    let tokens := ceilDiv (16 + e.bytes.length) 64
    let used := if s.dev.hws.window = s.now / 1000 then s.dev.hws.used else 0
    let p := if s.rd (hwsUpBit (s.dev.hws.port % 2)) = 1 then s.dev.hws.port % 2 else 1 - s.dev.hws.port % 2
    s.rd (hwsUpBit p) = 1 → used + tokens ≤ s.rd HWS_MAUD_MIRCAP →
    Completes .mirrorEntrySend s fun t => SameMem s t ∧ t.dev.hws.queue = rest ∧ t.dev.hws.used = used + tokens ∧ t.dev.hws.port = 1 - p ∧
      t.pair HWS_MTOK_LO = min (s.pair HWS_MTOK_LO + tokens) (2 ^ 64 - 1) ∧ t.dev.hws.psn.at p = (s.dev.hws.psn.at p + 1) % 2 ^ 24 ∧
      let body := leBytes 6 e.seq ++ leBytes 2 e.bytes.length ++ leBytes 8 e.pa ++ e.bytes
      t.dev.hws.sent.at p = s.dev.hws.sent.at p ++ [⟨s.dev.hws.psn.at p, s.now, "MIRROR", body, e.seq + 1⟩] ∧
      t.dev.out = s.dev.out ++ [⟨"HAWSER", "MIRROR", p :: s.dev.hws.psn.at p :: body.map (·.toNat)⟩]) ∧
  (∀ (s : State) (p : Fin 2) (pa : Addr) (bytes : List Byte) (u : Tx), s.on domFAB = true → s.rd HWS_CTL_EN = 1 → s.rd (hwsUpBit p) = 1 → s.dev.hws.early = [] →
    let seq := s.dev.hws.rxSeq
    (Tx.start s).mirWrite ⟨seq, pa.toNat, bytes⟩ = (u, .ok ()) →
    Completes (.mirrorEntry p seq pa bytes) s fun t => (∀ a, t.byte a = u.rb a) ∧ t.dev.hws.rxSeq = (seq + 1) % 2 ^ 48 ∧ t.dev.hws.early = []) ∧
  (∀ (s : State) (p : Fin 2) (psn i : Nat), (s.dev.hws.sent.at p).findIdx? (fun k => k.psn == psn) = some i →
    Completes (.roceAck p psn) s fun t => SameMem s t ∧ t.dev.hws.sent.at p = (s.dev.hws.sent.at p).drop (i + 1) ∧ t.dev.hws.retries.at p = 0 ∧
      SameRegs s t [HWS_STAT, IRQ_STAT] ∧ (s.dev.hws.last = 0 → SameRegs s t [])) ∧
  (∀ (s : State) (p : Fin 2) (k : HwsPkt) (ks : List HwsPkt), s.dev.hws.sent.at p = k :: ks → k.sent + 16000 ≤ s.now →
    Completes (.roceRetransmit p) s fun t => SameMem s t ∧
      (s.dev.hws.retries.at p < 7 → t.dev.hws.retries.at p = s.dev.hws.retries.at p + 1 ∧ t.dev.hws.sent.at p = ((k :: ks).map fun x => { x with sent := s.now }) ∧
        t.rd HWS_CNT0_RETRY = min (s.rd HWS_CNT0_RETRY + 1) (2 ^ HWS_CNT0_RETRY.width - 1) ∧ SameRegs s t [HWS_CNT0] ∧
        t.dev.out = s.dev.out ++ (k :: ks).map fun x => ⟨"HAWSER", x.kind, p.val :: x.psn :: x.bytes.map (·.toNat)⟩) ∧
      (7 ≤ s.dev.hws.retries.at p → t.rd (hwsUpBit p) = 0)) ∧
  (∀ (s : State) (p : Fin 2), s.on domFAB = true → s.rd HWS_CTL_EN = 1 → s.rd (hwsUpBit p) = 1 →
    Completes (.macsecDiscard p) s fun t => t.rd HWS_CNT0_MACDROP = min (s.rd HWS_CNT0_MACDROP + 1) (2 ^ HWS_CNT0_MACDROP.width - 1) ∧
      SameRegs s t [HWS_CNT0] ∧ SameMem s t ∧ t.dev = s.dev) ∧
  (∀ (s : State) (p : Fin 2) (q : Fin 64) (va : Nat) (bs : List Byte) (imm : Word), s.on domFAB = true → s.rd HWS_CTL_EN = 1 → s.rd (hwsUpBit p) = 1 →
    ∀ x ∈ [(Instr.rdmaWrite p q va bs, []), (.rdmaWriteImmediate p q va bs imm, [(⟨q.val, va, bs.length, imm.toNat + 1⟩ : QpMsg)]), (.send p q va bs, [⟨q.val, va, bs.length, 0⟩])],
      Completes x.1 s fun t => match (Tx.start s).vWrite 4 (Config.qpCtx q % 65536) (0x840 + q.val) va bs with
        | (u, .ok ()) => (∀ a, t.byte a = u.rb a) ∧ t.dev.hws.qp = u.d.hws.qp ++ x.2 ∧ t.dev.out = u.d.out ++ [⟨"HAWSER", "ROCE_ACK", [p.val, q.val]⟩]
        | (u, .held) => (∀ a, t.byte a = u.rb a) ∧ t.dev.hws.qp = u.d.hws.qp ∧ t.dev.out = u.d.out
        | (u, _) => (∀ a, t.byte a = u.rb a) ∧ t.dev.hws.qp = u.d.hws.qp ∧ t.dev.out = u.d.out ++ [⟨"HAWSER", "ROCE_NAK", [p.val, q.val]⟩])

/-- Commands of HD_HWS: REARM starts copying again and RESYNC sends the TX windows (R477), HANDOVER and ASIDE tell the Cleats (R492), DRESUME and
DABORT end a halt (R632); the digest ring moves by its doorbell (R499) and its job at HEAD ends with a record over its regions' bytes, halting
the ring when it failed (R485). -/
def Obligations.HawserCommandsAndDigests : Prop :=
  (∀ (s : State) (mid : Mid), s.reaches mid.toNat HWS_CMD = true →
    (Completes (.rearm mid) s fun t => SameRegs s t [HWS_STAT] ∧ SameMem s t ∧ t.dev = s.dev ∧ t.rd HWS_STAT_MIRON = (if s.rd HWS_CTL_EN = 1 then 1 else s.rd HWS_STAT_MIRON) ∧
      t.rd HWS_STAT_CMDREF = if s.rd HWS_CTL_EN = 1 then s.rd HWS_STAT_CMDREF else 1) ∧
    (s.rd HWS_STAT_MIRON = 0 ∨ s.rd HWS_STAT_RESYNC = 1 → Completes (.resync mid) s fun t => t.rd HWS_STAT_CMDREF = 1 ∧ SameRegs s t [HWS_STAT] ∧ SameMem s t ∧ t.dev = s.dev) ∧
    (s.rd HWS_STAT_MIRON = 1 → s.rd HWS_STAT_RESYNC = 0 → (∀ w < 16, s.rd (HWS_WCFG_EN w) = 0 ∨ s.rd (HWS_WCFG_TX w) = 0) →
      Completes (.resync mid) s fun t => t.rd HWS_STAT_RSDONE = 1 ∧ t.rd HWS_STAT_RESYNC = 0 ∧ SameRegs s t [HWS_STAT, IRQ_STAT] ∧ SameMem s t ∧ t.dev.hws = s.dev.hws) ∧
    (∀ w < 16, s.rd HWS_STAT_MIRON = 1 → s.rd HWS_STAT_RESYNC = 0 → s.rd (HWS_WCFG_EN w) = 1 → s.rd (HWS_WCFG_TX w) = 1 → s.rd (HWS_WBASE_ADDR w) ≤ s.rd (HWS_WLIM_ADDR w) →
      Completes (.resync mid) s fun t => t.rd HWS_STAT_RESYNC = 1 ∧ SameMem s t ∧ (t.dev.hws.resync ≠ [] ∨ t.dev.hws.queue.length = s.dev.hws.queue.length + 1)) ∧
    (Completes (.handover mid) s fun t => SameRegs s t [] ∧ SameMem s t ∧
      let body := (pairPayload 2 modid (leBytes 4 (s.rd HWS_HKEY_KEY) ++ leBytes 4 0)).map (·.toNat)
      t.dev.out = s.dev.out ++ [⟨"CLEAT-A", "PAIR", s.dev.clp.txSeq.at 0 :: body⟩, ⟨"CLEAT-B", "PAIR", s.dev.clp.txSeq.at 1 :: body⟩] ++
        if (Tx.start s).hawserUp then [⟨"HAWSER", "PAIR", body⟩] else []) ∧
    (Completes (.aside mid) s fun t => SameRegs s t [] ∧ SameMem s t ∧
      let body := (pairPayload 3 modid (leBytes 8 0)).map (·.toNat)
      t.dev.out = s.dev.out ++ [⟨"CLEAT-A", "PAIR", s.dev.clp.txSeq.at 0 :: body⟩, ⟨"CLEAT-B", "PAIR", s.dev.clp.txSeq.at 1 :: body⟩]) ∧
    (Completes (.dresume mid) s fun t => SameMem s t ∧
      if s.dev.hws.halted then t.dev.hws = { s.dev.hws with halted := false } ∧ SameRegs s t [] else t.rd HWS_STAT_CMDREF = 1 ∧ SameRegs s t [HWS_STAT]) ∧
    (Completes (.dabort mid) s fun t => t.dev.hws = { s.dev.hws with halted := false } ∧ t.rd HWS_DPTR_HEAD = s.rd HWS_DPTR_DBTAIL ∧
      SameRegs s t [HWS_DPTR] ∧ SameMem s t)) ∧
  (∀ (s : State) (mid : Mid) (v : Word), s.reaches mid.toNat HWS_DDB = true →
    let n := 2 ^ (Tx.start s).digLog
    let tail := bits v.toNat 11 0
    let pend (x : Nat) := (x + n - s.rd HWS_DPTR_HEAD) % n
    Completes (.digestDoorbell mid v) s fun t => SameMem s t ∧ t.dev = s.dev ∧
      if tail < n ∧ pend (s.rd HWS_DPTR_DBTAIL) ≤ pend tail then t.rd HWS_DPTR_DBTAIL = tail ∧ t.rd HWS_DPTR_HEAD = s.rd HWS_DPTR_HEAD ∧ SameRegs s t [HWS_DPTR]
      else t.rd HWS_STAT_CMDREF = 1 ∧ SameRegs s t [HWS_STAT]) ∧
  (∀ (s : State) (u v w x : Tx) (j l bs : List Byte), s.on domFAB = true → s.rd HWS_CTL_EN = 1 → s.dev.hws.halted = false → s.rd HWS_DPTR_HEAD ≠ s.rd HWS_DPTR_DBTAIL →
    let head := s.rd HWS_DPTR_HEAD
    let ctx := s.rd HWS_DCFG_DEVCTX
    (Tx.start s).vRead 4 ctx digMid (sext48 ((s.pair HWS_DRBASE_LO / 64 * 64 + 64 * head) % 2 ^ 48)) 64 = (u, .ok j) → digJobOk j = true →
    u.vRead 4 ctx digMid (fld j 0x10 8) (16 * fld j 3 1) = (v, .ok l) →
    v.digRegions ctx [] ((List.range (fld j 3 1)).map fun i => (fld l (16 * i) 8, fld l (16 * i + 8) 8)) = (w, some (bs, 0)) →
    let r := digRecord j (sha256 bs) s.now bs.length 0
    w.vWrite 4 ctx digMid (sext48 ((w.pair HWS_DCBASE_LO / 128 * 128 + 128 * head) % 2 ^ 48)) r = (x, .ok ()) →
    Completes .digestJob s fun t => (∀ a, t.byte a = x.rb a) ∧ t.rd HWS_DPTR_HEAD = (head + 1) % 2 ^ x.digLog ∧ t.dev.hws.halted = x.d.hws.halted ∧
      ⟨"CLEAT-A", "PAIR", x.d.clp.txSeq.at 0 :: (pairPayload 1 modid r).map (·.toNat)⟩ ∈ t.dev.out)

/-! Power. -/

/-- Requests of the power budget arbiter: one that may not run is answered with its code, a second one and a test's from any but the steward are
refused with CMDREF; ON powers a domain and what it needs at their floors, OFF releases it, GRANT moves a compute domain's grant, BIST and
BISTEND set and lift the test's grant (R506, R508, R512, R513, R531); one that does not fit waits and is answered when it does (R513). -/
def Obligations.PowerRequests : Prop :=
  let asks (mid : Mid) (dom : BitVec 7) (tok : BitVec 13) : List (Instr × PbaReq) :=
    [(.pbaOn mid dom, ⟨1, dom.toNat, 0⟩), (.pbaOff mid dom, ⟨2, dom.toNat, 0⟩), (.pbaGrant mid dom tok, ⟨3, dom.toNat, tok.toNat⟩),
     (.pbaBist mid dom, ⟨4, dom.toNat, 0⟩), (.pbaBistend mid dom, ⟨5, dom.toNat, 0⟩)]
  let rsp (r : PbaReq) (code : Nat) : Nat := r.op * 2 ^ 28 + r.dom * 2 ^ 16 + code
  (∀ (s : State) (mid : Mid) (dom : BitVec 7) (tok : BitVec 13) (i : Instr) (r : PbaReq), s.reaches mid.toNat PBA_REQ = true → (i, r) ∈ asks mid dom tok →
    let u := Tx.start s
    let d := dom.toNat
    let may := s.dev.pba.pending = none ∧ (4 ≤ r.op → mid.toNat = steward)
    (¬ may → Completes i s fun t => t.rd PBA_STAT_CMDREF = 1 ∧ t.dev.pba = s.dev.pba ∧ SameMem s t ∧ t.word PBA_RSP = s.word PBA_RSP) ∧
    (may → ∀ c, u.refusal r = some c → Completes i s fun t => t.word PBA_RSP = rsp r c ∧ SameRegs s t [PBA_RSP] ∧ SameMem s t ∧ t.dev = s.dev) ∧
    (may → u.refusal r = none → u.applyReq r = none → Completes i s fun t => t.word PBA_RSP = rsp r 1 ∧ SameRegs s t [PBA_RSP] ∧ SameMem s t ∧
      t.dev.pba = { s.dev.pba with pending := some r }) ∧
    (may → u.refusal r = none → r.op = 1 →
      let ds := (onPlan d).filter u.canPower
      (ds.map fun e => u.floorOf e - u.grantOf e).sum ≤ u.roomTokens → u.changeOk (ds.map fun e => (e, u.floorOf e)) = true →
      Completes i s fun t => t.word PBA_RSP = rsp r 0 ∧ SameRegs s t (PBA_RSP :: PBA_AUD0 :: ds.map PBA_DOM) ∧ SameMem s t ∧
        ∀ e ∈ ds, t.rd (PBA_DOM_STATE e) = 1 ∧ t.rd (PBA_DOM_GRANT e) = u.floorOf e % 2 ^ 13 ∧ t.dev.pwr.at e = .powering) ∧
    (may → u.refusal r = none → r.op = 2 →
      let ds := (offPlan d).filter fun e => u.domState e == 1 || u.domState e == 2
      u.changeOk (ds.map fun e => (e, 0)) = true →
      Completes i s fun t => t.word PBA_RSP = rsp r 0 ∧ SameRegs s t (PBA_RSP :: PBA_AUD0 :: ds.map PBA_DOM) ∧ SameMem s t ∧
        ∀ e ∈ ds, t.rd (PBA_DOM_STATE e) = 3 ∧ t.rd (PBA_DOM_GRANT e) = s.rd (PBA_DOM_GRANT e)) ∧
    (may → u.refusal r = none → 3 ≤ r.op →
      let g := if r.op = 3 then max (u.floorOf d) (min tok.toNat (pboost d)) else if r.op = 4 then (pmax d * 15 + 9) / 10 else max (u.floorOf d) (s.dev.pba.want.at d)
      (r.op ≠ 5 → g - u.grantOf d ≤ u.roomTokens) → u.changeOk [(d, g)] = true →
      Completes i s fun t => t.word PBA_RSP = rsp r 0 ∧ t.rd (PBA_DOM_GRANT d) = g % 2 ^ 13 ∧ SameRegs s t [PBA_RSP, PBA_AUD0, PBA_DOM d] ∧ SameMem s t ∧
        (r.op = 3 → t.dev.pba.want.at d = g ∧ t.rd (PBA_DOM_BIST d) = s.rd (PBA_DOM_BIST d)) ∧ (r.op = 4 → t.rd (PBA_DOM_BIST d) = 1) ∧
        (r.op = 5 → t.rd (PBA_DOM_BIST d) = 0))) ∧
  (∀ (s : State) (r : PbaReq), s.dev.pba.pending = some r →
    (∀ c, (Tx.start s).refusal r = some c → Completes .requestComplete s fun t => t.rd PBA_RSP_CODE = c % 16 ∧ SameRegs s t [PBA_RSP] ∧ SameMem s t ∧
      t.dev.pba = { s.dev.pba with pending := none }) ∧
    ((Tx.start s).refusal r = none → (Tx.start s).applyReq r = none → Completes .requestComplete s fun t => t = s) ∧
    (∀ u, (Tx.start s).refusal r = none → (Tx.start s).applyReq r = some u → Completes .requestComplete s fun t => t.rd PBA_RSP_CODE = 0 ∧ t.rd PBA_STAT_DONE = 1 ∧
      t.dev.pba = { u.d.pba with pending := none } ∧ SameMem s t ∧ ∀ e < 74, t.reg (PBA_DOM e) = BitVec.ofNat 32 (u.word (PBA_DOM e))))

/-- The survival envelope is entered by SHED, by an input below 16 V for 1 ms and by a dropout of 2 ms, and left when every cause has cleared
(R500, R501, R523, R524, R526), with SURV_N low meanwhile (R600); budgets lie in range (R507); the tick counts energy and reads the sensors (R503, R516), a trip opens its die's
switches (R518), a released domain goes off (R512), held dies go when their floors cannot stand (R509); the input, the store and its
capacitance are measured, and the store's end shuts the module down (R500, R525, R528). -/
def Obligations.PowerEventsActOnTheDomains : Prop :=
  (∀ (s : State) (mid : Mid) (v : Word),
    (s.reaches mid.toNat PBA_CMD = true → mid.toNat = steward →
      (Completes (.shed mid) s fun t => t.dev.pba.shed = true ∧ t.rd PBA_STAT_MODE = 2 ∧ t.survLow = true ∧ (s.rd PBA_STAT_MODE = 2 → SameRegs s t [] ∧ SameMem s t) ∧
        (s.rd PBA_STAT_MODE ≠ 2 → t.rd PBA_STAT_CAUSE = 3 ∧ t.rd PBA_STAT_SURVIN = 1 ∧ t.rd PBA_AUD1_BEFF = 600 ∧ t.dev.pba.pending = none ∧
          ∀ d, stackDom d = true → s.rd (PBA_DOM_STATE d) ≠ 5 → t.rd (PBA_DOM_STATE d) = 0 ∧ (s.rd (PBA_DOM_STATE d) ≠ 0 → t.rd (PBA_DOM_GRANT d) = 0))) ∧
      (Completes (.unshed mid) s fun t => t.dev = { s.dev with pba := { s.dev.pba with shed := false } } ∧ SameRegs s t [] ∧ SameMem s t)) ∧
    (s.reaches mid.toNat PBA_CMD = true → mid.toNat ≠ steward → ∀ i ∈ [Instr.shed mid, .unshed mid], Completes i s fun t => t.dev.pba = s.dev.pba ∧ SameMem s t ∧
      t.rd PBA_STAT_MODE = s.rd PBA_STAT_MODE) ∧
    (s.reaches mid.toNat PBA_CTL = true → Completes (.budgetWrite mid v) s fun t => SameMem s t ∧
      if 600 ≤ bits v.toNat 12 0 ∧ bits v.toNat 12 0 ≤ 4500 then t.rd PBA_CTL_BUDGET = bits v.toNat 12 0 ∧ SameRegs s t [PBA_CTL] ∧ t.dev = s.dev
      else t.rd PBA_STAT_CMDREF = 1 ∧ t.rd PBA_CTL_BUDGET = s.rd PBA_CTL_BUDGET)) ∧
  (∀ s : State, s.rd PBA_STAT_MODE = 2 → s.dev.pba.coolant = false → s.dev.pba.input = false → s.dev.pba.shed = false → bit (s.rd THM_TRIP_TRIPPED) 0 = false →
    Completes .survivalExit s fun t => t.rd PBA_STAT_MODE = 0 ∧ t.rd PBA_STAT_CAUSE = 0 ∧ t.rd PBA_STAT_SURVOUT = 1 ∧ t.dev.pba = s.dev.pba ∧ t.survLow = s.dev.pba.dark ∧ SameMem s t ∧
      ∀ m ∈ [1, 2, 3], t.rd (HD_MC_STAT_RETAIN m) = 0) ∧
  (∀ (s : State) (x : Fin 9), s.dev.pba.dark = false → Completes (.hardTrip x) s fun t => bit (t.rd THM_TRIP_TRIPPED) x = true ∧ t.rd THM_STAT_TRIP = 1 ∧
    ∀ d ∈ tripDoms x, s.rd (PBA_DOM_STATE d) ≠ 0 → t.rd (PBA_DOM_STATE d) = 5 ∧ t.rd (PBA_DOM_GRANT d) = 0 ∧ t.dev.pwr.at d = .off) ∧
  (∀ (s : State) (d : Fin 74), s.rd (PBA_DOM_STATE d) = 3 → Completes (.domainOff d) s fun t => t.dev.pwr.at d = .off ∧
    if (d.val = 10 ∨ d.val = 11) ∧ (mcsOf d).any (fun m => s.rd (HD_MC_STAT_READY m) == 1) then t.rd (PBA_DOM_STATE d) = 4 ∧ t.rd (PBA_DOM_GRANT d) = survival d ∧
      ∀ m ∈ mcsOf d, s.rd (HD_MC_STAT_READY m) = 1 → t.rd (HD_MC_STAT_RETAIN m) = 1
    else t.rd (PBA_DOM_STATE d) = 0 ∧ t.rd (PBA_DOM_GRANT d) = 0) ∧
  (∀ (s : State) (f : Nat), s.dev.pba.floorAt = some f → f + 100000000 ≤ s.now →
    let (l3, l4, _, avail) := (Tx.start s).levels
    Completes .floorCut s fun t => t.dev.pba.floorAt = none ∧ (l3 + l4 ≤ avail → SameRegs s t [] ∧ SameMem s t) ∧
      (avail < l3 + l4 → s.rd (RTM_CTL_HOLD (cdRtm 3)) = 1 → s.rd (PBA_DOM_STATE (domCD 3)) ≠ 5 → t.rd PBA_STAT_FLOORCUT = 1 ∧ t.rd (PBA_DOM_STATE (domCD 3)) = 0)) ∧
  (∀ (s : State) (es : List Nat) (sensors : List (List Int)) (tin tout : Int), s.dev.pba.dark = false → s.now % 1000000 = 0 → s.dev.pba.last ≠ s.now + 1 →
    Completes (.pbaTick es sensors tin tout) s fun t => t.dev.pba.last = s.now + 1 ∧ t.dev.pba.used = es ∧ t.dev.pba.tin = tin ∧
      (∀ d < 74, t.pair (PBA_E_LO d) = min (s.pair (PBA_E_LO d) + es.getD d 0) (2 ^ 64 - 1)) ∧
      (∀ x < 9, ∀ a rest, sensors[x]? = some (a :: rest) → t.rd (THM_DIE_A_MAX x) = scode 16 (rest.foldl max a) ∧
        t.rd (THM_DIE_B_MEAN x) = scode 16 (((a :: rest).foldl (· + ·) 0) / (rest.length + 1 : Nat))) ∧
      t.rd PBA_AUD0_GRANTED = (Tx.start t).granted % 2 ^ 16 ∧ t.rd PBA_AUD0_RELEASING = (Tx.start t).releasing % 2 ^ 16) ∧
  (∀ (s : State) (vin vhold pin : Nat), s.dev.pba.dark = false → s.rd HUP_STAT_INSTATE ≠ 3 → Completes (.vinSample vin vhold pin) s fun t => SameMem s t ∧
    t.rd HUP_V_VIN = min vin 65535 ∧ t.rd HUP_V_VHOLD = min vhold 65535 ∧ t.rd HUP_E_EAVAIL = min (storeEnergy (s.rd HUP_E_CAP) (min vhold 65535)) 65535 ∧
    t.pair HUP_EIN_LO = min (s.pair HUP_EIN_LO + pin / 100) (2 ^ 64 - 1) ∧ t.dev.pba.pins = (pin :: s.dev.pba.pins).take 100 ∧
    (33000 < vin ∨ vin < 9500 → t.rd HUP_STAT_INSTATE = 2 ∧ t.rd HUP_STAT_DROP = (if s.dev.pba.dropAt = 0 then 1 else s.rd HUP_STAT_DROP)) ∧
    (10000 ≤ vin → vin ≤ 32000 → t.rd HUP_STAT_INSTATE = (if s.dev.pba.input then 1 else 0) ∧ t.dev.pba.dropAt = 0)) ∧
  (∀ s : State, s.dev.pba.dark = false →
    let p := s.dev.pba
    (p.input = false → p.below ≠ 0 → p.below - 1 + 1000000 ≤ s.now → Completes .survivalModeEntry s fun t => t.dev.pba.input = true ∧ t.rd PBA_STAT_MODE = 2 ∧
      t.rd HUP_STAT_UV = 1 ∧ (s.rd PBA_STAT_MODE ≠ 2 → t.rd PBA_STAT_CAUSE = 2) ∧ t.rd HUP_STAT_INSTATE = if s.rd HUP_STAT_INSTATE = 0 then 1 else s.rd HUP_STAT_INSTATE) ∧
    (p.input = true → p.above ≠ 0 → p.above - 1 + 100000000 ≤ s.now → Completes .survivalModeExit s fun t => t.dev.pba = { p with input := false } ∧
      t.rd HUP_STAT_INSTATE = (if s.rd HUP_STAT_INSTATE = 1 then 0 else s.rd HUP_STAT_INSTATE) ∧ SameRegs s t [HUP_STAT] ∧ SameMem s t) ∧
    (p.dropAt ≠ 0 → p.dropAt - 1 + 2000000 ≤ s.now → Completes .holdupSurvival s fun t => t.dev.pba.input = true ∧ t.rd PBA_STAT_MODE = 2) ∧
    (s.rd HUP_STAT_INSTATE = 2 → s.rd HUP_E_EAVAIL ≤ 3000 → Completes .shutdown s fun t => t.rd HUP_STAT_INSTATE = 3 ∧ t.dev.pba.dark = true ∧
      t.dev.pba.slot = (p.slot + 1) % 16 ∧ t.dev.pba.shut = some (s.rd HUP_E_EAVAIL) ∧ ∀ d, 3 ≤ d → d < 74 → t.dev.pwr.at d = .off) ∧
    (∀ cap, Completes (.capMeasure cap) s fun t => t.rd HUP_E_CAP = cap.toNat ∧ SameMem s t ∧
      t.rd HUP_E_EAVAIL = min (storeEnergy cap.toNat (s.rd HUP_V_VHOLD)) 65535 ∧ (storeEnergy cap.toNat (s.rd HUP_V_VHOLD) < 4000 → t.rd HUP_STAT_LOWE = 1)))

/-! Tests, monitors, the log and the MRAM. -/

/-- A field test starts where its unit and its grant allow and is refused otherwise (R538, R558), ends with its record, counts and repairs (R536,
R542) or aborted (R543); leases are granted, denied and revoked (R539), a due test is set going (R540); every second counts wear (R549), and the
log is flushed, read and fed (R555, R556); the health report leaves (R556); MRAM batches start under the energy check and land (R527, R546). -/
def Obligations.TestsLogsAndBatches : Prop :=
  (∀ (s : State) (mid : Mid) (test : Fin 16) (unit : BitVec 12), s.reaches mid.toNat TST_CMD = true →
    let may := s.dev.tst.cur = none ∧ test.val ≠ 0 ∧ test.val ≠ 5 ∧ test.val ≤ 7 ∧ testUnitOk test unit.toNat = true ∧
      (∀ d, testDom test unit.toNat = some d → s.rd (PBA_DOM_BIST d) = 1)
    (may → Completes (.testStart mid test unit) s fun t => t.dev.tst.cur = some (test.val, unit.toNat, s.now) ∧ t.rd TST_STAT_BUSY = 1 ∧ t.rd TST_STAT_TEST = test.val ∧
      SameRegs s t [TST_STAT] ∧ SameMem s t) ∧
    (¬ may → Completes (.testStart mid test unit) s fun t => t.rd TST_STAT_CMDREF = 1 ∧ SameRegs s t [TST_STAT] ∧ SameMem s t ∧ t.dev = s.dev) ∧
    (s.rd TST_STAT_BUSY = 0 → Completes (.testAbort mid) s fun t => t.rd TST_STAT_CMDREF = 1 ∧ SameRegs s t [TST_STAT] ∧ SameMem s t ∧ t.dev = s.dev) ∧
    (∀ k u began, s.rd TST_STAT_BUSY = 1 → s.dev.tst.cur = some (k, u, began) → k ∈ [2, 3, 6, 7] → s.dev.tst.lease = none →
      Completes (.testAbort mid) s fun t => t.rd TST_STAT_BUSY = 0 ∧ t.rd TST_STAT_DONE = 1 ∧ t.dev.tst.cur = none ∧ SameMem s t ∧
        (∀ i < 8, t.word (TST_RES i) = fld (testRecord k 3 u 0 0 0 0 0 ((s.now - began) / 1000) s.now) (4 * i) 4) ∧
        SameRegs s t (TST_STAT :: (List.range 8).map TST_RES))) ∧
  (∀ (s : State) (k u began : Nat) (x : Nat × Nat) (xs : List (Nat × Nat)) (e o : Word), s.dev.tst.cur = some (k, u, began) → k ∈ [2, 3, 6, 7] → (Tx.start s).testCut k u = false →
    s.dev.tst.lease = none →
    (Completes (.testDone [] e o) s fun t => t.dev.tst.cur = none ∧ t.rd TST_STAT_BUSY = 0 ∧ t.rd TST_STAT_DONE = 1 ∧ t.rd TST_STAT_FAIL = s.rd TST_STAT_FAIL ∧
      t.dev.tst.ran.at (64 * k + u) = s.now + 1 ∧ t.rd TST_CNT_PASSES = min (s.rd TST_CNT_PASSES + 1) (2 ^ TST_CNT_PASSES.width - 1) ∧ t.dev.repair = s.dev.repair ∧
      (∀ i < 8, t.word (TST_RES i) = fld (testRecord k 0 u 0 0 0 0 0 ((s.now - began) / 1000) s.now) (4 * i) 4) ∧
      SameRegs s t (TST_STAT :: TST_CNT :: (List.range 8).map TST_RES) ∧ SameMem s t) ∧
    (k = 6 → Completes (.testDone (x :: xs) e o) s fun t => t.dev.tst.cur = none ∧ t.rd TST_STAT_BUSY = 0 ∧ t.rd TST_STAT_DONE = 1 ∧ t.rd TST_STAT_FAIL = 1 ∧
      t.rd TST_CNT_FAILS = min (s.rd TST_CNT_FAILS + 1) (2 ^ TST_CNT_FAILS.width - 1) ∧ bit t.dev.repair.spbad u = true ∧
      (∀ i < 8, t.word (TST_RES i) = fld (testRecord 6 1 u x.1 x.2 (xs.length + 1) e.toNat o.toNat ((s.now - began) / 1000) s.now) (4 * i) 4))) ∧
  (∀ (s : State) (l : Lease) (u : Tx),
    ((Tx.start s).leaseReply 3 = some (l, u) → u.leaseReady l = true → Completes .leaseGrant s fun t => t.dev.tst.lease = some { l with granted := true }) ∧
    ((Tx.start s).leaseReply 3 = some (l, u) → u.leaseReady l = false → Completes .leaseGrant s fun t => t.dev.tst.lease = none) ∧
    ((Tx.start s).leaseReply 4 = some (l, u) → Completes .leaseDeny s fun t => t.dev.tst = { u.d.tst with lease := none } ∧ SameMem s t) ∧
    ((Tx.start s).leaseReply 5 = some (l, u) → s.dev.tst.cur = none → s.dev.tst.lease = some l → Completes .leaseRevoke s fun t => t.dev.tst.lease = none)) ∧
  (∀ (s : State) (unit : Fin 64), s.on domSTW = true → unit.val < 8 → s.dev.tst.cur = none → s.dev.tst.ran.at (384 + unit.val) - 1 + testInterval 6 ≤ s.now →
    bit s.dev.repair.spbad unit = false → (Tx.start s).testCut 6 unit = false →
    Completes (.fieldTestDue 6 unit) s fun t => t.dev.tst.cur = some (6, unit.val, s.now) ∧ t.rd TST_STAT_BUSY = 1 ∧ t.rd TST_STAT_TEST = 6 ∧ SameMem s t ∧
      SameRegs s t [TST_STAT] ∧ (s.dev.tst.ran.at (384 + unit.val) - 1 + 2 * testInterval 6 ≤ s.now → s.dev.tst.told.at (384 + unit.val) = 0 →
        t.dev.tst.told.at (384 + unit.val) = s.now + 1)) ∧
  (∀ (s : State) (bumps : List (BitVec 16)), s.on domSTW = true → s.now % 1000000000 = 0 → s.dev.tst.wearAt ≠ s.now + 1 →
    Completes (.wearSample bumps) s fun t => t.dev.tst.wearAt = s.now + 1 ∧ SameMem s t ∧
      ∀ x < 9, (∀ h, (s.dev.wear.at x).peak = some h → (t.dev.wear.at x).eq = (s.dev.wear.at x).eq + wearWeight h ∧ (t.dev.wear.at x).peak = none) ∧
        ((s.dev.wear.at x).peak = none → t.dev.wear.at x = s.dev.wear.at x)) ∧
  (∀ s : State, s.on domSTW = true → s.dev.log.buf ≠ [] → (128 ≤ s.dev.log.buf.length ∨ s.dev.log.since + 1000000000 ≤ s.now) → s.dev.log.lost = 0 →
    let es := s.dev.log.buf.take 128
    Completes .logFlush s fun t => SameRegs s t [] ∧ SameMem s t ∧ t.dev.log.buf = s.dev.log.buf.drop 128 ∧ t.dev.log.head = (s.dev.log.head + es.length) % logRing ∧
      t.dev.log.stored = min logRing (s.dev.log.stored + es.length) ∧
      (s.dev.log.head + es.length ≤ logRing → t.dev.batches = s.dev.batches ++ [⟨3, 0x100000 + 32 * s.dev.log.head, es.flatten⟩])) ∧
  (∀ (s : State) (seq : Word) (count : BitVec 13) (buffer : Addr) (p : Nat) (u v : Tx), (Tx.start s).stewardTake 0x1A = some (p, u) →
    s.dev.log.buf = [] → (∀ b ∈ s.dev.batches, b.cls ≠ 3) → s.dev.batch = none → 
    let l := s.dev.log
    let back := min l.stored ((l.seq + 2 ^ 32 + 2 ^ 32 - seq.toNat) % 2 ^ 32)
    let n := min back (min count.toNat 4096)
    let bs := (List.range n).flatMap fun i => u.rdBytes (mramBase + 0x100000 + 32 * ((l.head + 2 * logRing - back + i) % logRing)) 32
    u.physWrite steward buffer.toNat bs = (v, .ok ()) →
    Completes (.logRead seq count buffer) s fun t => (∀ a, t.byte a = v.rb a) ∧
      t.dev.out = v.d.out ++ [⟨"STEWARD", "LOG_REPLY", [(l.seq + 2 ^ 32 - back) % 2 ^ 32, n]⟩]) ∧
  (∀ (s : State) (p : Nat) (u : Tx) (e : List Byte), (Tx.start s).stewardTake 0x1B = some (p, u) → p + 32 ≤ dramEnd → u.physRead steward p 32 = .ok e →
    let sec := s.now / 1000000000
    let soft := if s.dev.log.second = sec then s.dev.log.soft else 0
    Completes .softwareLogEntry s fun t => SameMem s t ∧
      t.dev.log = if fld e 14 1 = 0x20 ∧ soft < 100 then { u.d.log with second := sec, soft := soft + 1 }.takes s.now e else { u.d.log with lost := u.d.log.lost + 1 }) ∧
  (∀ s : State, s.on domSTW = true → s.now % 1000000000 = 0 → s.dev.log.health ≠ s.now + 1 → s.dev.sec.cfg.isSome = true → (Tx.start s).cfgFld 0x15 1 < 8 →
    Completes .healthReport s fun t => SameRegs s t [] ∧ SameMem s t ∧ t.dev.log = { s.dev.log with health := s.now + 1, sev := 0 } ∧
      t.dev.out = s.dev.out ++ [⟨"ETH", "HEALTH", (Tx.start s).cfgFld 0x15 1 :: (Tx.start s).cfgFld 0x16 2 :: 0x88B7 :: (Tx.start s).healthReport.map (·.toNat)⟩]) ∧
  (∀ (s : State) (b : Batch),
    (s.dev.batch = none → nextBatch s.dev.batches = some b → Completes .mramBatch s fun t => SameMem s t ∧
      if energyOk (s.rd HUP_E_EAVAIL) (s.rd HUP_P_PMAX1) b.bytes.length then
        t.dev.batch = some b ∧ t.dev.batches = s.dev.batches.erase b ∧ SameRegs s t []
      else t.dev.batch = none ∧ t.dev.batches = s.dev.batches ∧ t.rd HUP_STAT_DEFER = 1 ∧
        t.rd HUP_CNT_DEFERS = min (s.rd HUP_CNT_DEFERS + 1) (2 ^ HUP_CNT_DEFERS.width - 1) ∧
        t.rd HD_DMAP_JDEF_JDEF = if b.cls = 1 then min (s.rd HD_DMAP_JDEF_JDEF + 1) (2 ^ HD_DMAP_JDEF_JDEF.width - 1) else s.rd HD_DMAP_JDEF_JDEF) ∧
    (s.dev.batch = some b → Completes .mramBatchDone s fun t => t.dev.batch = none ∧ SameMemBut s t (mramBase + b.off) b.bytes.length ∧
      (∀ i < b.bytes.length, t.byte (mramBase + b.off + i) = b.bytes.getD i 0#8) ∧ SameRegs s t [HD_DMAP_JSEQ] ∧
      (b.cls = 1 → t.rd HD_DMAP_JSEQ_SEQ = leNat ((b.bytes.drop 12).take 4)) ∧
      (b.cls = 0 → b.off % 0x40000 = 0 → t.dev.repair.seq = s.dev.repair.seq + 1 ∧ t.dev.repair.copy = b.off / 0x40000)))

/-! Resets, boot, updates and debug. -/

/-- The entry of a reset holds its domains for 10 µs and names its cause (R559, R560), a second joins it, and a command that may not reset is
refused (R588); the release restarts their logic (R560, R626); power-on leaves what survives without power alone (R559); a domain powers on
(R504, R505), and a Cleat in BOOT is sent its stream and takes its parameters from one that verifies (R573). -/
def Obligations.ResetsAndBoot : Prop :=
  (∀ (s : State) (mid : Mid) (i : Instr) (kind tgt cause : Nat), s.reaches mid.toNat RST_CMD = true →
    (i, kind, tgt, cause) ∈ [(Instr.rstWarm mid, 3, 0, 6), (.rstModule mid, 2, 0, 3)] ++ (List.finRange 4).map (fun k => (.rstCluster mid k, 4, k.val, 0)) ++
      (List.finRange 4).map (fun d => (.rstDie mid d, 5, d.val, 0)) →
    let may := (kind = 2 ∨ kind = 5 → mid.toNat = steward) ∧ (kind = 4 → tgt < 3)
    (¬ may → Completes i s fun t => t.rd RST_STAT_CMDREF = 1 ∧ SameRegs s t [RST_STAT] ∧ SameMem s t ∧ t.dev = s.dev) ∧
    (may → s.dev.sec.rst = none → Completes i s fun t => t.dev.sec.rst = some ⟨kind, rstDoms kind tgt, s.now + 10000⟩ ∧
      t.rd RST_STAT_CAUSE = (if kind < 4 then cause else s.rd RST_STAT_CAUSE) ∧ (kind < 4 → t.rd HD_SC_STAT_SCRACT = 0 ∧ ∀ a, scrBase ≤ a → a < scrEnd → t.byte a = 0#8) ∧
      (kind = 2 → t.rd DBG_STAT_SESS = 0 ∧ t.rd DBG_STAT_LEVEL = 0 ∧ t.dev.pwrgood = false)) ∧
    (∀ r, may → s.dev.sec.rst = some r → Completes i s fun t => t.dev.sec.rst = some ⟨min r.kind kind, (r.doms ++ rstDoms kind tgt).dedup, r.release⟩ ∧
      t.rd RST_STAT_CAUSE = s.rd RST_STAT_CAUSE)) ∧
  (∀ s : State, s.dev.sec.rst = none →
    (s.dev.pba.dark = false → Completes .modRstN s fun t => t.dev.sec.rst = some ⟨2, rstDoms 2 0, s.now + 10000⟩ ∧ t.rd RST_STAT_CAUSE = 2 ∧ t.rd DBG_STAT_LEVEL = 0) ∧
    (s.on domSTW = true → Completes .stewardWatchdog s fun t => t.dev.sec.rst = some ⟨2, rstDoms 2 0, s.now + 10000⟩ ∧ t.rd RST_STAT_CAUSE = 4 ∧ t.rd DBG_STAT_LEVEL = 0)) ∧
  (∀ (s : State) (r : Rst), s.dev.sec.rst = some r → (∀ d ∈ r.doms, 3 ≤ d ∧ d < 74) →
    (s.now < r.release → Completes .resetRelease s fun t => t = s) ∧
    (r.release ≤ s.now → r.kind ≠ 2 → Completes .resetRelease s fun t => t.dev.sec.rst = none ∧
      t.rd RST_CNT_WARMS = (if r.kind = 3 then min (s.rd RST_CNT_WARMS + 1) (2 ^ RST_CNT_WARMS.width - 1) else s.rd RST_CNT_WARMS) ∧
      (14 ∈ r.doms → s.dev.pwr.at 14 = .on → t.dev.trj = {}) ∧ (13 ∈ r.doms → s.dev.pwr.at 13 = .on → t.dev.ing = {} ∧ t.dev.ego = {} ∧ t.dev.aln = {})) ∧
    (r.release ≤ s.now → r.kind = 2 → Completes .resetRelease s fun t => t.rd RST_CNT_MODULES = min (s.rd RST_CNT_MODULES + 1) (2 ^ RST_CNT_MODULES.width - 1))) ∧
  (∀ s : State, Completes .powerOnReset s fun t => t.now = 0 ∧ t.pending = s.pending ∧ (∀ a, t.reg a = resetWord a) ∧ t.dev.cleat = s.dev.cleat ∧
    (∀ a, (a < mramBase ∨ norEnd ≤ a) → t.byte a = emptyByte a) ∧ t.dev.log.boot = (s.dev.log.boot + 1) % 65536 ∧ t.dev.log.buf = [] ∧
    t.dev.sec.ctr = s.dev.sec.ctr ∧ t.dev.sec.lcBits = s.dev.sec.lcBits ∧ t.dev.sec.bcr = s.dev.sec.bcr ∧ t.dev.pwr = [] ∧
    (s.dev.pba.dark = true → t.dev.log.seq = s.dev.log.seq ∧ t.dev.out = s.dev.out ∧ ∀ a, mramBase ≤ a → a < norEnd → t.byte a = s.byte a)) ∧
  (∀ (s : State) (d : Fin 74), (Tx.start s).comingUp d = true → (Tx.start s).mayRun d = true → (Tx.start s).inReset d = false →
    Completes (.domainPowered d) s fun t => t.rd (PBA_DOM_STATE d) = 2 ∧ t.dev.pwr.at d = .on) ∧
  (∀ (s : State) (c : Cleat2), s.on domSTW = true → s.dev.sec.boot ≠ 0 → s.dev.tst.hubBad = false → s.rd (clpLink c) = 1 → s.rd (MIR_STATE_STATE c) = 0 →
    Completes (.bootStream c) s fun t => SameRegs s t [] ∧ SameMem s t ∧
      match (Tx.start s).bootStream with
      | none => t = s
      | some bs => (t.dev.out.drop s.dev.out.length).flatMap (·.data.drop 1) = bs.map (·.toNat) ∧
        ∀ o ∈ t.dev.out.drop s.dev.out.length, o.port = (if c = 0 then "CLEAT-A" else "CLEAT-B") ∧ o.kind = "SPB") ∧
  (∀ (s : State) (c : Cleat2) (ct : Nat) (l : Word) (bytes : List Byte), s.cleatRuns c = true → s.inSeq c l.toNat = true →
    let x := s.cleatHears c ct l.toNat
    let bs := x.stream ++ bytes
    let n1 := 0x1000 + objLength bs
    let total := n1 + 0x1000 + objLength (bs.drop n1) + 0x2000 + 64
    x.st = .boot → x.spb = none →
    (bs.length < 0x1000 → Completes (.spb c ct l bytes) s fun t => CleatOnly s t c ∧ t.dev.cleat.at c = { x with stream := bs }) ∧
    (0x1000 ≤ bs.length → fld bs 0 4 = 0x5A534F31 → n1 + 0x1000 ≤ bs.length → total ≤ bs.length →
      Completes (.spb c ct l bytes) s fun t => CleatOnly s t c ∧
        let y := t.dev.cleat.at c
        y.stream = [] ∧
        match (Tx.start s).clVerify c (bs.take total) with
        | some (p, q) => y.spb = some p ∧ y.qualified = q
        | none => y = { x with stream := [] }))

/-- Update commands stage, activate, commit and revert and answer in UPDSTAT (R575, R576, R577), one that comes while a stage runs is refused
(R588), and a staged object lands with its trial (R575); a token moves the lifecycle or revokes a key (R565, R578, R579); debug sessions open by an
answered challenge, end and lock out (R583), halts and resumes act as the session permits (R586), and an opened gate ends deep debug (R584). -/
def Obligations.UpdatesTokensAndDebug : Prop :=
  (∀ (s : State) (mid : Mid), s.reaches mid.toNat SEC_UPDCMD = true →
    let u := Tx.start s
    let done (t : State) : Prop := t.rd SEC_UPDSTAT_STATE = 2 ∧ t.rd SEC_UPDSTAT_CODE = 0 ∧ t.rd SEC_STAT_UPDDONE = 1
    let no (t : State) (code : Nat) : Prop := t.rd SEC_UPDSTAT_STATE = 3 ∧ t.rd SEC_UPDSTAT_CODE = code ∧ t.dev = s.dev ∧ SameMem s t
    (s.dev.sec.upd = 1 → ∀ i ∈ [Instr.stage mid, .activate mid, .commit mid, .revert mid], Completes i s fun t => no t 3 ∧ t.rd SEC_STAT_CMDREF = 1 ∧
      SameRegs s t [SEC_STAT, SEC_UPDSTAT]) ∧
    (s.dev.sec.upd ≠ 1 →
      (u.stagedObject = none → Completes (.stage mid) s fun t => no t 1 ∧ SameRegs s t [SEC_UPDSTAT]) ∧
      (∀ h p, u.stagedObject = some (h, p) → Completes (.stage mid) s fun t => SameRegs s t [SEC_UPDSTAT] ∧ SameMem s t ∧
          if objType h ∉ copyTypes ∨ u.verifier.header (objType h) h = false ∨ payloadOk h p = false ∨ 64 < objSvn h then no t 1
          else if objSvn h < s.dev.sec.ctr.at (objCtr h) then no t 2 else t.rd SEC_UPDSTAT_STATE = 1 ∧ t.dev.sec.upd = 1 ∧ t.dev.sec.stage = some (objType h, h ++ p)) ∧
      (u.trials = [] → (Completes (.activate mid) s fun t => no t 4) ∧ (Completes (.commit mid) s fun t => no t 4) ∧
        (Completes (.revert mid) s fun t => done t ∧ t.dev = s.dev ∧ SameMem s t)) ∧
      (u.trials ≠ [] →
        (Completes (.activate mid) s fun t => done t ∧ t.rd SEC_UPDSTAT_PEND = 1 ∧ t.dev = { s.dev with sec := { s.dev.sec with pend := true } } ∧
          SameRegs s t [SEC_UPDSTAT, SEC_STAT] ∧ SameMem s t) ∧
        (Completes (.commit mid) s fun t => done t ∧ (∀ k, s.dev.sec.ctr.at k ≤ t.dev.sec.ctr.at k) ∧
          ∀ ty ∈ u.trials, (u.runsPreferred ty = false → t.dev.sec.bcr.at (ty - 1) = s.dev.sec.bcr.at (ty - 1)) ∧
            (∀ h p, u.runsPreferred ty = true → u.running ty = some (h, p) → t.dev.sec.bcr.at (ty - 1) = s.dev.sec.bcr.at (ty - 1) % 2 ∧
              min 64 (objSvn h) ≤ t.dev.sec.ctr.at (objCtr h))) ∧
        (Completes (.revert mid) s fun t => done t ∧ (∀ ty ∈ u.trials, t.dev.sec.bcr.at (ty - 1) = 1 - s.dev.sec.bcr.at (ty - 1) % 2) ∧
          (u.trials.any u.runsPreferred = true → t.dev.sec.pend = true ∧ t.rd SEC_UPDSTAT_PEND = 1))))) ∧
  (∀ (s : State) (ty : Nat) (bs : List Byte), s.dev.sec.stage = some (ty, bs) → s.dev.sec.upd = 1 → s.on domSTW = true → s.on domSEC = true →
    let c := if s.dev.sec.sel.at ty = 1 then 1 else 0
    Completes .stageDone s fun t => t.dev.sec.stage = none ∧ t.dev.sec.upd = 0 ∧ t.dev.sec.bcr.at (ty - 1) = c + 14 ∧ t.rd SEC_UPDSTAT_STATE = 2 ∧ t.rd SEC_STAT_UPDDONE = 1 ∧
      ∀ i < bs.length, (∀ k ∈ [norBase, norBase + 0x4000000], norAt ty c + i < k ∨ k + 64 ≤ norAt ty c + i) → t.byte (norAt ty c + i) = bs.getD i 0#8) ∧
  (∀ (s : State) (bytes : List Byte) (n : Fin 33), s.on domSTW = true → s.on domSEC = true →
    let h := bytes.take 0x1000
    let p := bytes.drop 0x1000
    let names := Config.tokenNames (p.map (·.toNat))
    let lc := s.dev.sec.lifecycle
    Completes (.lifecycleToken bytes n) s fun t => SameRegs s t [SEC_LC] ∧ SameMem s t ∧
      if (Tx.start s).verifier.object 8 h p = false then t = s
      else if names < 4 then
        if mayMove lc names (objSigner h) = true ∧ fld h 0x18 8 = serialNo then
          t.dev.sec.lcBits = programmedBits lc names n s.dev.sec.lcBits ∧ t.rd SEC_LC_LC = t.dev.sec.lifecycle % 2 ^ SEC_LC_LC.width
        else t = s
      else if 8 ≤ names ∧ names < 15 ∧ objSigner h = 0 then
        bit t.dev.sec.revoked (names - 8) = true ∧ t.dev.sec.lcBits = s.dev.sec.lcBits ∧ SameRegs s t []
      else t = s) ∧
  (∀ (s : State) (level : Fin 4) (r : List Byte), s.rd DBG_STAT_LOCKOUT = 0 → s.on domSEC = true →
    let nonce := ((Tx.start s).fresh 256).1
    let ok := level.val ≠ 0 ∧ (Tx.start s).answers nonce level r = true ∧ (level.val = 1 ∨ s.rd CLP_STAT_GATEA = 0 ∧ s.rd CLP_STAT_GATEB = 0)
    Completes (.dbgauth level r) s fun t => SameRegs s t [DBG_STAT, DBG_AUTHCNT] ∧ SameMem s t ∧
    (ok → t.rd DBG_STAT_SESS = 1 ∧ t.rd DBG_STAT_LEVEL = level.val ∧ t.dev.dbg.opened = s.now ∧ t.dev.dbg.fails = 0 ∧ SameRegs s t [DBG_STAT]) ∧
    (¬ ok → t.rd DBG_STAT_AUTHFAIL = 1 ∧ t.rd DBG_STAT_SESS = s.rd DBG_STAT_SESS ∧ t.rd DBG_STAT_LEVEL = s.rd DBG_STAT_LEVEL ∧
      t.rd DBG_AUTHCNT_COUNT = min (s.rd DBG_AUTHCNT_COUNT + 1) (2 ^ DBG_AUTHCNT_COUNT.width - 1) ∧
      (s.dev.dbg.fails < 7 → t.dev.dbg.fails = s.dev.dbg.fails + 1 ∧ t.rd DBG_STAT_LOCKOUT = 0) ∧
      (7 ≤ s.dev.dbg.fails → t.dev.dbg.fails = 0 ∧ t.rd DBG_STAT_LOCKOUT = 1 ∧ t.dev.dbg.lockEnd = s.now + 60000000000))) ∧
  (∀ s : State,
    (s.rd DBG_STAT_SESS = 1 → Completes .sessionClose s fun t => t.rd DBG_STAT_SESS = 0 ∧ t.rd DBG_STAT_LEVEL = 0 ∧ SameRegs s t [DBG_STAT] ∧ SameMem s t ∧ t.dev = s.dev) ∧
    (s.rd DBG_STAT_SESS = 1 → Completes .sessionExpire s fun t => SameMem s t ∧ t.dev = s.dev ∧ SameRegs s t [DBG_STAT] ∧
      if s.dev.dbg.opened + 14400000000000 ≤ s.now then t.rd DBG_STAT_SESS = 0 ∧ t.rd DBG_STAT_LEVEL = 0 else t = s) ∧
    (s.rd DBG_STAT_LOCKOUT = 1 → s.dev.dbg.lockEnd ≤ s.now → Completes .lockoutEnd s fun t => t.rd DBG_STAT_LOCKOUT = 0 ∧ SameRegs s t [DBG_STAT] ∧ SameMem s t ∧ t.dev = s.dev)) ∧
  (∀ (s : State) (k : Fin 25) (hitch : Nat),
    let u := Tx.start s
    (u.mayHalt k = false → ∀ i ∈ [Instr.haltRequest k hitch, .resumeRequest k], Completes i s fun t => t = s) ∧
    (u.mayHalt k = true → (u.target k).halted = false → s.on (targetDom k) = true → Completes (.haltRequest k hitch) s fun t => SameMem s t ∧
      if hitch = 0 then ((Tx.start t).target k).halted = true ∧ SameRegs s t []
      else ((Tx.start t).target k).haltAt = s.now + min hitch 1000 + 1 ∧ t.rd (haltBit k) = 1 ∧ SameRegs s t [DBG_HSTAT]) ∧
    (u.mayHalt k = true → Completes (.resumeRequest k) s fun t => SameMem s t ∧
      if s.rd (haltBit k) = 1 then ((Tx.start t).target k).haltAt = 0 ∧ t.rd (haltBit k) = 0 ∧ SameRegs s t [DBG_HSTAT]
      else ((Tx.start t).target k).halted = false ∧ SameRegs s t [])) ∧
  (∀ (s : State) (c : Cleat2) (o : Bool), s.on domFAB = true → s.rd (clpGate c) = (if o then 0 else 1) →
    Completes (.gateChange c o) s fun t => t.rd (clpGate c) = (if o then 1 else 0) ∧ t.rd (if c = 0 then CLP_STAT_GXA else CLP_STAT_GXB) = 1 ∧ SameMem s t ∧
      if o ∧ 2 ≤ s.rd DBG_STAT_LEVEL then t.rd DBG_STAT_LEVEL = 1 ∧ t.rd DBG_STAT_DROP = 1 ∧ ∀ k < 24, (t.dev.harts.at k).halted = false ∧ (t.dev.harts.at k).haltAt = 0
      else t.dev.harts = s.dev.harts ∧ SameRegs s t [CLP_STAT, IRQ_STAT])

/-! Mailboxes and interrupts. -/

/-- A post enters the next free slot, a post to a full channel is held, a pop takes the head and lets a held post in (R448, R451), any other
identity is refused and logged (R449), and posts less pops equal the occupied slots on every channel (R450). -/
def Obligations.MailboxSlotsAreConserved : Prop :=
  let books (s : State) (ch : Nat) : Prop := (s.rd (MBX_CNT_POSTS ch) + 2 ^ 16 - s.rd (MBX_CNT_POPS ch)) % 2 ^ 16 = s.rd (MBX_CST_OCC ch) ∧
    s.rd (MBX_CST_OCC ch) = (s.dev.mbx.at ch).slots.length ∧ s.rd (MBX_CST_OCC ch) ≤ 4
  let chan (ch : Nat) : List Nat := [MBX_CST ch, MBX_RPTR_LO ch, MBX_RPTR_HI ch, MBX_RTAG ch, MBX_CNT ch]
  let refused (s t : State) (mid : Mid) (ch ofs : Nat) : Prop := t.rd MBX_STAT_IDERR = 1 ∧ t.rd MBX_ELOG_MID = mid.toNat ∧ t.rd MBX_ELOG_CH = ch ∧ t.rd MBX_ELOG_OFS = ofs ∧
    t.rd MBX_IDERRCNT_COUNT = min (s.rd MBX_IDERRCNT_COUNT + 1) (2 ^ 32 - 1) ∧ SameRegs s t [MBX_STAT, MBX_ELOG, MBX_IDERRCNT, IRQ_STAT] ∧ SameMem s t ∧ t.dev.mbx = s.dev.mbx
  (∀ (s : State) (mid : Mid) (ch : Chan) (tag : Word), s.reaches mid.toNat (MBX_STAG ch) = true →
    let sends := s.rd (MBX_CHTAB0_EN ch) = 1 ∧ s.rd (MBX_CHTAB0_SMID ch) = mid.toNat
    let c := s.dev.mbx.at ch
    (¬ sends → Completes (.mbxStag mid ch tag) s fun t => refused s t mid ch 2) ∧
    (sends → c.slots.length < 4 → Completes (.mbxStag mid ch tag) s fun t => SameMem s t ∧ SameRegs s t (chan ch) ∧
      t.dev.mbx.at ch = { c with slots := c.slots ++ [(s.pair (MBX_SPTR_LO ch), tag.toNat)] } ∧ t.rd (MBX_CST_OCC ch) = c.slots.length + 1 ∧
      t.rd (MBX_CNT_POSTS ch) = (s.rd (MBX_CNT_POSTS ch) + 1) % 2 ^ 16 ∧
      (c.slots = [] → t.pair (MBX_RPTR_LO ch) = s.pair (MBX_SPTR_LO ch) ∧ t.word (MBX_RTAG ch) = tag.toNat)) ∧
    (sends → 4 ≤ c.slots.length → Completes (.mbxStag mid ch tag) s fun t => SameMem s t ∧ SameRegs s t (chan ch) ∧ t.rd (MBX_CST_HELD ch) = 1 ∧
      (t.dev.mbx.at ch).slots = c.slots ∧ (c.held = none → (t.dev.mbx.at ch).held = some tag.toNat) ∧ t.word (MBX_CNT ch) = s.word (MBX_CNT ch))) ∧
  (∀ (s : State) (mid : Mid) (ch : Chan) (v : Word), s.reaches mid.toNat (MBX_RPOP ch) = true →
    let takes := s.rd (MBX_CHTAB0_EN ch) = 1 ∧ s.rd (MBX_CHTAB0_RMID ch) = mid.toNat
    let c := s.dev.mbx.at ch
    (¬ takes → Completes (.mbxRpop mid ch v) s fun t => refused s t mid ch 7) ∧
    (takes → bit v.toNat 0 = false → Completes (.mbxRpop mid ch v) s fun t => t = s) ∧
    (takes → bit v.toNat 0 = true → c.slots = [] → Completes (.mbxRpop mid ch v) s fun t => t.rd MBX_STAT_CMDREF = 1 ∧ SameRegs s t [MBX_STAT] ∧ SameMem s t ∧ t.dev = s.dev) ∧
    (takes → bit v.toNat 0 = true → ∀ m rest, c.slots = m :: rest → Completes (.mbxRpop mid ch v) s fun t => SameMem s t ∧ SameRegs s t (chan ch) ∧
      t.rd (MBX_CNT_POPS ch) = (s.rd (MBX_CNT_POPS ch) + 1) % 2 ^ 16 ∧ t.rd (MBX_CST_HELD ch) = 0 ∧ (t.dev.mbx.at ch).held = none ∧
      (c.held = none → (t.dev.mbx.at ch).slots = rest ∧ t.rd (MBX_CNT_POSTS ch) = s.rd (MBX_CNT_POSTS ch)) ∧
      (∀ tag, c.held = some tag → (t.dev.mbx.at ch).slots = rest ++ [(s.pair (MBX_SPTR_LO ch), tag)] ∧
        t.rd (MBX_CNT_POSTS ch) = (s.rd (MBX_CNT_POSTS ch) + 1) % 2 ^ 16))) ∧
  (∀ (s : State) (mid : Mid) (ch : Chan) (v : Word) (i : Instr), i = .mbxStag mid ch v ∨ i = .mbxRpop mid ch v → (∀ k < 256, books s k) →
    Completes i s fun t => ∀ k < 256, books t k)

/-- A source's level follows its line and, where it is enabled, its message makes its identity pending in the file of its hart (R453, R455, R456);
seteipnum, genmsi and a captured PCIe write set an identity (R454, R453, R459), a claim takes the top one (R454), a source's mode is written
(R453), the timers follow device time (R436) and a hart takes what is pending, enabled and not masked (R462).  Pending bits, identities and cause codes
follow the architectures that the spec names (log entries 60 and 61). -/
def Obligations.InterruptsReachTheHarts : Prop :=
  let hartOf (x : Nat) := bits x 31 18
  let idOf (x : Nat) := bits x 10 0
  (∀ (s : State) (i : BitVec 8) (b : Bool), s.on domFAB = true → sourceOk i.toNat = true → i.toNat ≠ 53 →
    let q := s.dev.irq
    let (sl, mode) := q.mode i.toNat
    let a := q.dom sl
    Completes (.interruptLevel i b) s fun t => t.dev.irq.level.at i.toNat = b ∧ SameRegs s t [IRQ_STAT] ∧ SameMem s t ∧
      (b = true → q.level.at i.toNat = false → mode = 4 ∨ mode = 6 → a.ie = true → a.en.at i.toNat = true → hartOf (a.target.at i.toNat) < 24 →
        1 ≤ idOf (a.target.at i.toNat) → idOf (a.target.at i.toNat) ≤ 255 →
        idOf (a.target.at i.toNat) ∈ t.dev.irq.files.at (fileKey sl (hartOf (a.target.at i.toNat))) ∧ (t.dev.irq.dom sl).ip.at i.toNat = false)) ∧
  (∀ (s : State) (mid : Mid) (sl : Bool) (h : Hart) (v : Word), s.on domFAB = true → isHart mid.toNat = true ∨ mid.toNat = steward →
    (Completes (.seteipnum mid sl h v) s fun t => SameRegs s t [] ∧ SameMem s t ∧
      if 1 ≤ v.toNat ∧ v.toNat ≤ 255 then v.toNat ∈ t.dev.irq.files.at (fileKey sl h) else t = s) ∧
    (Completes (.genmsi mid sl v) s fun t => SameRegs s t [IRQ_STAT] ∧ SameMem s t ∧
      (hartOf v.toNat < 24 → 1 ≤ idOf v.toNat → idOf v.toNat ≤ 255 → idOf v.toNat ∈ t.dev.irq.files.at (fileKey sl (hartOf v.toNat)) ∧ SameRegs s t []) ∧
      (24 ≤ hartOf v.toNat → t.rd IRQ_STAT_MSIREF = 1)) ∧
    (∀ i : BitVec 8, sourceOk i.toNat = true → sl = false → Completes (.sourcecfgWrite mid sl i v) s fun t => SameRegs s t [IRQ_STAT] ∧ SameMem s t ∧
      t.dev.irq.m.cfg.at i.toNat = if bit v.toNat 10 then 0x400 else if bits v.toNat 2 0 ∈ [1, 4, 6] then bits v.toNat 2 0 else 0)) ∧
  (∀ (s : State) (h : Hart) (sl : Bool) (thr : BitVec 8) (en : List (BitVec 8)),
    let k := fileKey sl h
    let set := (s.dev.irq.files.at k).filter fun i => (en.map (·.toNat)).contains i && (thr == 0#8 || decide (i < thr.toNat))
    Completes (.claim h sl thr en) s fun t => SameRegs s t [] ∧ SameMem s t ∧
      (set = [] → t.dev.irq.files.at k = s.dev.irq.files.at k) ∧
      (∀ i ∈ set, (∀ j ∈ set, i ≤ j) → t.dev.irq.files.at k = (s.dev.irq.files.at k).filter (· != i))) ∧
  (∀ (s : State) (h : Hart) (cmp : BitVec 64), (Tx.start s).hartOn h = true →
    (Completes (.machineTimer h) s fun t => SameRegs s t [] ∧ SameMem s t ∧
      t.dev.harts.at h = { s.dev.harts.at h with mtip := decide (s.pair (MTIMECMP_LO (h.val / 8) (h.val % 8)) ≤ s.now) }) ∧
    (Completes (.supervisorTimer h cmp) s fun t => SameRegs s t [] ∧ SameMem s t ∧
      t.dev.harts.at h = { s.dev.harts.at h with stimecmp := cmp.toNat, stip := decide (cmp.toNat ≤ s.now) })) ∧
  (∀ (s : State) (h : Hart) (sl timer masked deliver : Bool) (thr : BitVec 8) (en : List (BitVec 8)), (Tx.start s).hartOn h = true → (s.dev.harts.at h).halted = false →
    let set := (s.dev.irq.files.at (fileKey sl h)).filter fun i => (en.map (·.toNat)).contains i && (thr == 0#8 || decide (i < thr.toNat))
    let pending := if timer then (if sl then (s.dev.harts.at h).stip else (s.dev.harts.at h).mtip) else deliver && !set.isEmpty
    Completes (.interruptTaken h sl timer masked deliver thr en) s fun t => SameRegs s t [] ∧ SameMem s t ∧
      (t.dev.harts.at h).trap = if pending ∧ masked = false then some (2 ^ 63 + (if timer then 5 else 9) + (if sl then 0 else 2), 0) else (s.dev.harts.at h).trap) ∧
  (∀ (s : State) (p : Fin 2) (mid : BitVec 8) (ctx : BitVec 16) (h : Fin 24) (v : Word), s.on domNET = true → s.on domFAB = true → s.dev.pcie.at p ≠ 0 →
    bit (s.rd IRQ_CTL_PCIEN) p = true →
    Completes (.msiCapture p mid ctx (0xFEE0000000 + h.val * 0x1000) v) s fun t => SameMem s t ∧
      if 1 ≤ v.toNat ∧ v.toNat ≤ 255 then v.toNat ∈ t.dev.irq.files.at (fileKey true h) ∧ SameRegs s t []
      else t.rd IRQ_MSIREFCNT_COUNT = min (s.rd IRQ_MSIREFCNT_COUNT + 1) (2 ^ 32 - 1) ∧ t.rd IRQ_STAT_MSIREF = 1 ∧ SameRegs s t [IRQ_MSIREFCNT, IRQ_STAT])

/-! Ports and harts. -/

/-- CAN rings take entries, launch, complete, halt, resume and abort (R605, R606, R607, R618); Ethernet and PCIe links change, frames drop (R602, R603,
R639), and an inbound request is translated and served (R251). -/
def Obligations.PortsCarryFrames : Prop :=
  (∀ (s : State) (mid : Mid) (c : CanPort) (v : Word), s.reaches mid.toNat (CAN_DB c) = true →
    let n := 2 ^ (Tx.start s).canLog c
    let tail := bits v.toNat 11 0
    let pend (x : Nat) := (x + n - s.rd (CAN_PTR_HEAD c)) % n
    (¬ (tail < n ∧ pend (s.rd (CAN_PTR_DBTAIL c)) ≤ pend tail) → Completes (.canDoorbell mid c v) s fun t => t.rd (CAN_STAT_CMDREF c) = 1 ∧
      SameRegs s t [CAN_STAT c] ∧ SameMem s t ∧ t.dev = s.dev) ∧
    (tail < n → pend (s.rd (CAN_PTR_DBTAIL c)) ≤ pend tail → s.rd (CAN_CTL_EN c) = 0 ∨ (s.dev.can.at c).entry.isSome = true → Completes (.canDoorbell mid c v) s fun t =>
      t.rd (CAN_PTR_DBTAIL c) = tail ∧ t.rd (CAN_PTR_HEAD c) = s.rd (CAN_PTR_HEAD c) ∧ SameRegs s t [CAN_PTR c] ∧ SameMem s t ∧ t.dev = s.dev)) ∧
  (∀ (s : State) (c : CanPort) (e : List Byte) (late : Bool), (s.dev.can.at c).entry = some (e, late) → (s.dev.can.at c).sof = 0 → fld e 8 8 ≤ s.now →
    s.rd (CAN_STAT_ERRSTATE c) ≠ 2 → Completes (.canLaunch c) s fun t => SameRegs s t [] ∧ SameMem s t ∧ (t.dev.can.at c).sof = s.now + 1 ∧
      t.dev.out = s.dev.out ++ [⟨"CAN", "FRAME", c.val :: fld e 0 4 :: ((e.drop 0x20).take (fld e 4 1)).map (·.toNat)⟩]) ∧
  (∀ (s : State) (c : CanPort) (lost : BitVec 16) (stamp f : Nat) (e : List Byte) (late : Bool), (s.dev.can.at c).entry = some (e, late) → (s.dev.can.at c).sof = f + 1 →
    (s.dev.can.at c).aborting = false →
    let head := s.rd (CAN_PTR_HEAD c)
    let u := (Tx.start s).canStatus c head (if late then 0x81 else 1) (some (max f (min stamp s.now)))
    (head + 1) % 2 ^ u.canLog c = u.rd (CAN_PTR_DBTAIL c) →
    Completes (.canFrameSent c lost stamp) s fun t => (∀ a, t.byte a = u.rb a) ∧ t.rd (CAN_PTR_HEAD c) = (head + 1) % 2 ^ u.canLog c ∧ (t.dev.can.at c).entry = none ∧
      (t.dev.can.at c).sof = 0 ∧ t.rd (CAN_CNT_SENT c) = min (u.rd (CAN_CNT_SENT c) + 1) (2 ^ (CAN_CNT_SENT c).width - 1)) ∧
  (∀ (s : State) (c : CanPort), s.rd (CAN_CTL_EN c) = 1 → Completes (.busOff c) s fun t => t.rd (CAN_STAT_HALT c) = 1 ∧ t.rd (CAN_STAT_BUSOFF c) = 1 ∧
    t.rd (CAN_STAT_ERRSTATE c) = 2 ∧ (t.dev.can.at c).halted = true ∧ (t.dev.can.at c).entry = none) ∧
  (∀ (s : State) (mid : Mid) (c : CanPort), s.reaches mid.toNat (CAN_CMD c) = true →
    ((s.dev.can.at c).halted = false → Completes (.canResume mid c) s fun t => t.rd (CAN_STAT_CMDREF c) = 1 ∧ SameRegs s t [CAN_STAT c] ∧ SameMem s t ∧ t.dev = s.dev) ∧
    ((s.dev.can.at c).halted = true → s.rd (CAN_PTR_HEAD c) = s.rd (CAN_PTR_DBTAIL c) → Completes (.canResume mid c) s fun t => (t.dev.can.at c).halted = false ∧
      (s.rd (CAN_STAT_ERRSTATE c) = 2 → t.rd (CAN_STAT_ERRSTATE c) = 0 ∧ t.rd (CAN_ERR_TEC c) = 0 ∧ t.rd (CAN_ERR_REC c) = 0) ∧
      SameRegs s t [CAN_STAT c, CAN_ERR c] ∧ SameMem s t) ∧
    ((s.dev.can.at c).sof = 0 → s.rd (CAN_PTR_HEAD c) = s.rd (CAN_PTR_DBTAIL c) → Completes (.canAbort mid c) s fun t => (t.dev.can.at c).entry = none ∧
      (t.dev.can.at c).halted = false ∧ SameRegs s t [] ∧ SameMem s t) ∧
    ((s.dev.can.at c).sof ≠ 0 → (s.rd (CAN_PTR_HEAD c) + 1) % 2 ^ (Tx.start s).canLog c = s.rd (CAN_PTR_DBTAIL c) → Completes (.canAbort mid c) s fun t =>
      (t.dev.can.at c).aborting = true ∧ (t.dev.can.at c).entry = (s.dev.can.at c).entry ∧ SameRegs s t [] ∧ SameMem s t)) ∧
  (∀ (s : State) (p : EthPort) (up fcs : Bool), s.on domNET = true → s.rd (ETH_PSTAT_CFG p) = 1 →
    (s.rd (ETH_PSTAT_LINK p) = (if up then 0 else 1) → Completes (.ethLinkChange p up) s fun t => t.rd (ETH_PSTAT_LINK p) = (if up then 1 else 0) ∧
      t.rd (ETH_PSTAT_LINKCHG p) = 1 ∧ SameRegs s t [ETH_PSTAT p, IRQ_STAT] ∧ SameMem s t) ∧
    (Completes (.ethFrameDrop p fcs) s fun t => SameMem s t ∧ SameRegs s t [ETH_PSTAT p, ETH_PCNT p, IRQ_STAT] ∧
      if fcs then t.rd (ETH_PCNT_FCSCNT p) = min (s.rd (ETH_PCNT_FCSCNT p) + 1) (2 ^ (ETH_PCNT_FCSCNT p).width - 1) ∧ t.rd (ETH_PSTAT_FCSERR p) = 1
      else t.rd (ETH_PCNT_RXDROP p) = min (s.rd (ETH_PCNT_RXDROP p) + 1) (2 ^ (ETH_PCNT_RXDROP p).width - 1) ∧ SameRegs s t [ETH_PCNT p])) ∧
  (∀ (s : State) (p : Fin 2) (stable : Nat) (w : Fin 5), s.on domNET = true →
    (s.dev.perst.at p = true → w.val ≠ 3 → Completes (.pcieLinkChange p w false) s fun t => t.dev.pcie.at p = w.val ∧ SameRegs s t [IRQ_STAT] ∧ SameMem s t) ∧
    (s.dev.perst.at p = false → s.dev.refclk.at p = 0 → Completes (.perstRelease p stable) s fun t => SameRegs s t [] ∧ SameMem s t ∧ t.dev.refclk.at p = stable + 1 ∧
      (t.dev.perst.at p = true ↔ stable + 100000000 ≤ s.now))) ∧
  (∀ (s : State) (p : Fin 2) (mid : BitVec 8) (ctx : BitVec 16) (bus : Nat) (n : BitVec 12) (bs : List Byte) (u : Tx), s.on domNET = true → s.on domFAB = true → s.dev.pcie.at p ≠ 0 →
    ((Tx.start s).vWrite 4 ctx.toNat (0xD00 + mid.toNat) bus bs = (u, .ok ()) → Completes (.pcieInboundRequest p mid ctx bus n (some bs)) s fun t => ∀ a, t.byte a = u.rb a) ∧
    ((Tx.start s).vRead 4 ctx.toNat (0xD00 + mid.toNat) bus n.toNat = (u, .ok bs) → Completes (.pcieInboundRequest p mid ctx bus n none) s fun t => SameMem s t ∧
      t.dev.out = u.d.out ++ [⟨"PCIE", "COMPLETION", p.val :: bs.map (·.toNat)⟩]))

/-- A hart's accesses to main memory: a load answers the bytes there, a store writes them, an atomic answers the old word and writes the new, a
store-conditional stores while the reservation of its load-reserved stands and answers so (R437, R438, R440); a misaligned atomic and an address of
no region trap (R438, R440), with the causes of the privileged architecture (log entry 61); a hart that is halted does nothing (R586). -/
def Obligations.HartsAccessMemory : Prop := ∀ (s : State) (h : Hart) (va : BitVec 64) (pa : Addr), (Tx.start s).hartOn h = true →
  let p := pa.toNat
  let u := Tx.start s
  let size (w : Bool) : Nat := if w then 8 else 4
  let trapped (t : State) (cause : Nat) : Prop := (t.dev.harts.at h).trap = some (cause, va.toNat) ∧ SameRegs s t [] ∧ SameMem s t
  (∀ op, (s.dev.harts.at h).halted = true → Completes (.hartMemoryAccess h op va pa) s fun t => t = s) ∧
  ((s.dev.harts.at h).halted = false → regionOf p = .main →
    (∀ (n : Fin 65) (bs : List Byte), u.physRead h p n = .ok bs → ∀ op ∈ [HartOp.load n, .fetch n], Completes (.hartMemoryAccess h op va pa) s fun t => SameRegs s t [] ∧ SameMem s t ∧
      t.dev.out = s.dev.out ++ [⟨"HART", "DATA", h.val :: bs.map (·.toNat)⟩]) ∧
    (∀ (bs : List Byte) (v : Tx), u.physWrite h p bs = (v, .ok ()) → Completes (.hartMemoryAccess h (.store bs) va pa) s fun t => ∀ a, t.byte a = v.rb a) ∧
    (∀ (op : Fin 9) (w : Bool) (x : BitVec 64) (old : Nat) (v : Tx), p % size w = 0 → u.physLE h p (size w) = some old →
      u.physWrite h p (leBytes (size w) (amoValue op (8 * size w) old (x.toNat % 2 ^ (8 * size w)))) = (v, .ok ()) →
      Completes (.hartMemoryAccess h (.amo op w x) va pa) s fun t => (∀ a, t.byte a = v.rb a) ∧ t.dev.out = v.d.out ++ [⟨"HART", "DATA", [h.val, old]⟩]) ∧
    (∀ (w : Bool) (bs : List Byte), p % size w = 0 → u.physRead h p (size w) = .ok bs →
      (Completes (.hartMemoryAccess h (.lr w) va pa) s fun t => SameRegs s t [] ∧ SameMem s t ∧ (t.dev.harts.at h).resv = some (p / 64) ∧
        t.dev.out = s.dev.out ++ [⟨"HART", "DATA", [h.val, leNat bs]⟩]) ∧
      (∀ x, (s.dev.harts.at h).resv ≠ some (p / 64) → Completes (.hartMemoryAccess h (.sc w x) va pa) s fun t => SameRegs s t [] ∧ SameMem s t ∧
        (t.dev.harts.at h).resv = none ∧ t.dev.out = s.dev.out ++ [⟨"HART", "SC", [h.val, 1]⟩]) ∧
      (∀ (x : BitVec 64) (v : Tx), (s.dev.harts.at h).resv = some (p / 64) →
        (u.onHart h fun y => { y with resv := none }).physWrite h p (leBytes (size w) x.toNat) = (v, .ok ()) →
        Completes (.hartMemoryAccess h (.sc w x) va pa) s fun t => (∀ a, t.byte a = v.rb a) ∧ t.dev.out = v.d.out ++ [⟨"HART", "SC", [h.val, 0]⟩])) ∧
    (∀ op ∈ [HartOp.cboClean, .cboFlush, .cboInval], Completes (.hartMemoryAccess h op va pa) s fun t => t = s)) ∧
  ((s.dev.harts.at h).halted = false → ∀ (op : Fin 9) (w : Bool) (x : BitVec 64), p % size w ≠ 0 →
    (Completes (.hartMemoryAccess h (.amo op w x) va pa) s fun t => trapped t 6) ∧ (Completes (.hartMemoryAccess h (.sc w x) va pa) s fun t => trapped t 6) ∧
    (Completes (.hartMemoryAccess h (.lr w) va pa) s fun t => trapped t 4)) ∧
  ((s.dev.harts.at h).halted = false → regionOf p = .none → ∀ (n : Fin 65) (bs : List Byte),
    (Completes (.hartMemoryAccess h (.load n) va pa) s fun t => trapped t 5) ∧ (Completes (.hartMemoryAccess h (.fetch n) va pa) s fun t => trapped t 1) ∧
    (Completes (.hartMemoryAccess h (.store bs) va pa) s fun t => trapped t 7))
end

