-- ==== Sys2Proof/Laws/Bits.lean ====
section
/-! SUPPORT.  Bit fields: what a replaced field reads as, and that the other fields stand. -/

namespace Sys2Proof.Machine

theorem testBit_bits (w hi lo i : Nat) : (bits w hi lo).testBit i = (decide (i < hi + 1 - lo) && w.testBit (lo + i)) := by
  rw [bits, Nat.testBit_mod_two_pow, Nat.testBit_shiftRight]

theorem bits_lt (w hi lo : Nat) : bits w hi lo < 2 ^ (hi + 1 - lo) := Nat.mod_lt _ (Nat.two_pow_pos _)

/-- A replaced field leaves what is above it and below it. -/
theorem putBits_eq (w hi lo v : Nat) :
    putBits w hi lo v = w / 2 ^ (lo + (hi + 1 - lo)) * 2 ^ (lo + (hi + 1 - lo)) + (v % 2 ^ (hi + 1 - lo)) * 2 ^ lo + w % 2 ^ lo := by
  have h1 := Nat.div_add_mod w (2 ^ lo)
  have h2 := Nat.div_add_mod (w / 2 ^ lo) (2 ^ (hi + 1 - lo))
  rw [Nat.div_div_eq_div_mul, ← Nat.pow_add] at h2
  simp only [putBits, bits, Nat.shiftLeft_eq, Nat.shiftRight_eq_div_pow]
  generalize w % 2 ^ lo = c at *
  generalize w / 2 ^ lo % 2 ^ (hi + 1 - lo) = b at *
  generalize w / 2 ^ (lo + (hi + 1 - lo)) = a at *
  have h3 : w = a * 2 ^ (lo + (hi + 1 - lo)) + b * 2 ^ lo + c := by
    rw [← h1, ← h2, Nat.pow_add]; ring
  omega

theorem testBit_putBits (w hi lo v i : Nat) :
    (putBits w hi lo v).testBit i = if lo ≤ i ∧ i < hi + 1 then v.testBit (i - lo) else w.testBit i := by
  rw [putBits_eq]
  generalize hn : hi + 1 - lo = n
  have hc : w % 2 ^ lo < 2 ^ lo := Nat.mod_lt _ (Nat.two_pow_pos _)
  have hb : v % 2 ^ n < 2 ^ n := Nat.mod_lt _ (Nat.two_pow_pos _)
  have hbc : (v % 2 ^ n) * 2 ^ lo + w % 2 ^ lo < 2 ^ (lo + n) := by
    rw [Nat.pow_add]
    calc _ < (v % 2 ^ n) * 2 ^ lo + 2 ^ lo := by omega
      _ = (v % 2 ^ n + 1) * 2 ^ lo := by ring
      _ ≤ 2 ^ n * 2 ^ lo := Nat.mul_le_mul_right _ hb
      _ = _ := by ring
  rw [Nat.add_assoc, Nat.mul_comm (w / _), Nat.testBit_two_pow_mul_add _ hbc, Nat.mul_comm (v % _), Nat.testBit_two_pow_mul_add _ hc,
    Nat.testBit_mod_two_pow, Nat.testBit_mod_two_pow, Nat.testBit_div_two_pow]
  by_cases h1 : i < lo
  · rw [if_pos (by omega), if_pos h1, if_neg (by omega)]
    simp [h1]
  · by_cases h2 : i < lo + n
    · rw [if_pos h2, if_neg h1, if_pos (by omega)]
      have : i - lo < n := by omega
      simp [this]
    · rw [if_neg h2, if_neg (by omega)]
      congr 1; omega

/-- The replaced field reads as the new value, cut to its width. -/
@[simp] theorem bits_putBits (w hi lo v : Nat) : bits (putBits w hi lo v) hi lo = v % 2 ^ (hi + 1 - lo) := by
  apply Nat.eq_of_testBit_eq
  intro i
  rw [testBit_bits, testBit_putBits, Nat.testBit_mod_two_pow]
  by_cases h : i < hi + 1 - lo
  · have : lo + i < hi + 1 := by omega
    simp [h, this]
  · simp [h]

/-- A field apart from the replaced one stands. -/
theorem bits_putBits_apart (w hi lo v hi' lo' : Nat) (h : hi' < lo ∨ hi < lo') : bits (putBits w hi lo v) hi' lo' = bits w hi' lo' := by
  apply Nat.eq_of_testBit_eq
  intro i
  rw [testBit_bits, testBit_bits, testBit_putBits]
  by_cases h1 : i < hi' + 1 - lo'
  · rw [if_neg (by omega)]
  · simp [h1]

/-- A register word stays one. -/
theorem putBits_lt {w hi lo v n : Nat} (hw : w < 2 ^ n) (hh : hi < n) : putBits w hi lo v < 2 ^ n := by
  apply Nat.lt_pow_two_of_testBit
  intro i hi'
  rw [testBit_putBits, if_neg (by omega)]
  exact Nat.testBit_lt_two_pow (lt_of_lt_of_le hw (Nat.pow_le_pow_right (by decide) hi'))

/-- Replacing a field by its own value changes nothing. -/
@[simp] theorem putBits_bits (w hi lo : Nat) : putBits w hi lo (bits w hi lo) = w := by
  apply Nat.eq_of_testBit_eq
  intro i
  rw [testBit_putBits, testBit_bits]
  by_cases h : lo ≤ i ∧ i < hi + 1
  · rw [if_pos h]
    have h1 : i - lo < hi + 1 - lo := by omega
    have h2 : lo + (i - lo) = i := by omega
    simp [h1, h2]
  · rw [if_neg h]

/-! Byte order. -/

@[simp] theorem length_leBytes : ∀ n v, (leBytes n v).length = n
  | 0, _ => rfl
  | n + 1, v => by rw [leBytes, List.length_cons, length_leBytes n]

/-- The bytes of a number give it back. -/
theorem leNat_leBytes : ∀ n v, leNat (leBytes n v) = v % 256 ^ n
  | 0, v => by simp [leBytes, leNat, Nat.mod_one]
  | n + 1, v => by
    have h := Nat.mod_mul (x := v) (a := 256) (b := 256 ^ n)
    have h2 : (BitVec.ofNat 8 v).toNat = v % 256 := BitVec.toNat_ofNat v 8
    rw [leBytes, leNat, leNat_leBytes n, h2, Nat.pow_succ, Nat.mul_comm (256 ^ n), h]

end Sys2Proof.Machine
end

