-- ==== Sys2Proof/Laws/Sparse.lean ====
section
/-! SUPPORT.  Sparse tables: a read after a write, and the canonical form is kept. -/

namespace Sys2Proof.Machine

/-! A read after a write. -/

theorem sget_sins {α : Type} {d : Nat → α} {k i : Nat} {v : α} : ∀ {t : List (Nat × α)},
    sget d (sins t k v) i = if i = k then v else sget d t i
  | [] => by
    by_cases h : k = i
    · simp [sins, sget, h]
    · have : i ≠ k := fun e => h e.symm
      simp [sins, sget, h, this]
  | (j, w) :: xs => by
    have ih := sget_sins (d := d) (k := k) (i := i) (v := v) (t := xs)
    unfold sins
    rcases Nat.lt_trichotomy k j with h1 | h2 | h3
    · rw [if_pos h1, sget]
      by_cases h : k = i
      · rw [if_pos h, if_pos h.symm]
      · rw [if_neg h, if_neg fun e => h e.symm]
    · subst h2
      rw [if_neg (Nat.lt_irrefl k), if_pos rfl, sget, sget]
      by_cases h : k = i
      · rw [if_pos h, if_pos h.symm]
      · rw [if_neg h, if_neg fun e => h e.symm, if_neg h]
    · rw [if_neg (by omega), if_neg (by omega), sget, sget]
      by_cases h : j = i
      · rw [if_pos h, if_pos h, if_neg (by omega)]
      · rw [if_neg h, if_neg h, ih]

theorem sget_filter {α : Type} {d : Nat → α} {k i : Nat} : ∀ {t : List (Nat × α)},
    sget d (t.filter fun e => e.1 != k) i = if i = k then d k else sget d t i
  | [] => by by_cases h : i = k <;> simp [sget, h]
  | (j, w) :: xs => by
    have ih := sget_filter (d := d) (k := k) (i := i) (t := xs)
    rw [List.filter_cons, sget]
    by_cases h2 : j = k
    · subst h2
      rw [if_neg (by simp), ih]
      by_cases h : i = j
      · rw [if_pos h, if_pos h]
      · rw [if_neg h, if_neg h, if_neg fun e => h e.symm]
    · rw [if_pos (by simpa using h2), sget]
      by_cases h : j = i
      · rw [if_pos h, if_pos h, if_neg fun e => h2 (h.trans e)]
      · rw [if_neg h, if_neg h, ih]

/-- The written key gives the value; every other key is left alone. -/
theorem sget_sset {α : Type} [DecidableEq α] {d : Nat → α} {t : List (Nat × α)} {k i : Nat} {v : α} :
    sget d (sset d t k v) i = if i = k then v else sget d t i := by
  unfold sset
  by_cases hv : v = d k
  · rw [if_pos hv, sget_filter, hv]
  · rw [if_neg hv, sget_sins]

/-- A read after a log of writes: the newest logged value, or what stood before. -/
theorem sget_ssetAll {α : Type} [DecidableEq α] {d : Nat → α} {t : List (Nat × α)} (i : Nat) :
    ∀ log : List (Nat × α), sget d (ssetAll d t log) i = (logGet log i).getD (sget d t i)
  | [] => rfl
  | (k, v) :: log => by
    rw [ssetAll, sget_sset, sget_ssetAll i log, logGet]
    by_cases hi : k = i
    · simp [hi]
    · have : i ≠ k := fun e => hi e.symm
      simp [hi, this]

/-- A log that does not name a key leaves it alone. -/
theorem logGet_none {α : Type} {i : Nat} : ∀ {log : List (Nat × α)}, (∀ e ∈ log, e.1 ≠ i) → logGet log i = none
  | [], _ => rfl
  | (k, v) :: log, h => by
    have hk : k ≠ i := h (k, v) (List.mem_cons_self ..)
    rw [logGet, if_neg hk]
    exact logGet_none fun e he => h e (List.mem_cons_of_mem _ he)

/-! The canonical form. -/

theorem swfFrom_mono {α : Type} [DecidableEq α] {d : Nat → α} {lo lo' : Nat} (h : lo' ≤ lo) :
    ∀ {t : List (Nat × α)}, swfFrom d lo t = true → swfFrom d lo' t = true
  | [], _ => rfl
  | (j, v) :: xs, hw => by
    simp only [swfFrom, Bool.and_eq_true, decide_eq_true_eq] at hw ⊢
    exact ⟨⟨by omega, hw.1.2⟩, hw.2⟩

theorem swfFrom_sins {α : Type} [DecidableEq α] {d : Nat → α} {lo k : Nat} {v : α} (hk : lo ≤ k) (hv : v ≠ d k) :
    ∀ {t : List (Nat × α)}, swfFrom d lo t = true → swfFrom d lo (sins t k v) = true
  | [], _ => by simp [sins, swfFrom, hk, hv]
  | (j, w) :: xs, hw => by
    simp only [swfFrom, Bool.and_eq_true, decide_eq_true_eq] at hw
    obtain ⟨⟨hj, hne⟩, hr⟩ := hw
    unfold sins
    split
    · simp only [swfFrom, Bool.and_eq_true, decide_eq_true_eq]
      exact ⟨⟨hk, hv⟩, ⟨⟨by omega, hne⟩, hr⟩⟩
    · split
      · subst k
        simp only [swfFrom, Bool.and_eq_true, decide_eq_true_eq]
        exact ⟨⟨hk, hv⟩, hr⟩
      · simp only [swfFrom, Bool.and_eq_true, decide_eq_true_eq]
        exact ⟨⟨hj, hne⟩, swfFrom_sins (by omega) hv hr⟩

theorem swfFrom_filter {α : Type} [DecidableEq α] {d : Nat → α} {k : Nat} :
    ∀ {lo : Nat} {t : List (Nat × α)}, swfFrom d lo t = true → swfFrom d lo (t.filter fun e => e.1 != k) = true
  | _, [], _ => rfl
  | lo, (j, w) :: xs, hw => by
    simp only [swfFrom, Bool.and_eq_true, decide_eq_true_eq] at hw
    obtain ⟨⟨hj, hne⟩, hr⟩ := hw
    by_cases h : j = k
    · have := swfFrom_mono (by omega : lo ≤ j + 1) (swfFrom_filter (k := k) hr)
      simpa [h] using this
    · have := swfFrom_filter (k := k) hr
      simp [h, swfFrom, hj, hne, this]

/-- A write keeps the canonical form. -/
theorem swf_sset {α : Type} [DecidableEq α] {d : Nat → α} {t : List (Nat × α)} {k : Nat} {v : α} (h : swf d t = true) :
    swf d (sset d t k v) = true := by
  unfold sset
  split
  · exact swfFrom_filter h
  · exact swfFrom_sins (Nat.zero_le k) (by assumption) h

/-- A log of writes keeps the canonical form. -/
theorem swf_ssetAll {α : Type} [DecidableEq α] {d : Nat → α} {t : List (Nat × α)} (h : swf d t = true) :
    ∀ log : List (Nat × α), swf d (ssetAll d t log) = true
  | [] => h
  | (_, _) :: log => swf_sset (swf_ssetAll h log)

/-- Leaving entries out keeps the canonical form. -/
theorem swfFrom_sublist {α : Type} [DecidableEq α] {d : Nat → α} {t u : List (Nat × α)} (hs : u.Sublist t) :
    ∀ {lo : Nat}, swfFrom d lo t = true → swfFrom d lo u = true := by
  induction hs with
  | slnil => intro _ h; exact h
  | cons a _ ih =>
    intro lo h
    simp only [swfFrom, Bool.and_eq_true, decide_eq_true_eq] at h
    exact swfFrom_mono (by omega : lo ≤ a.1 + 1) (ih h.2)
  | cons_cons a _ ih =>
    intro lo h
    simp only [swfFrom, Bool.and_eq_true, decide_eq_true_eq] at h ⊢
    exact ⟨h.1, ih h.2⟩

/-- Below its first key a canonical table lists nothing. -/
theorem sget_below {α : Type} [DecidableEq α] {d : Nat → α} {lo k : Nat} (h : k < lo) :
    ∀ {t : List (Nat × α)}, swfFrom d lo t = true → sget d t k = d k
  | [], _ => rfl
  | (j, v) :: xs, hw => by
    simp only [swfFrom, Bool.and_eq_true, decide_eq_true_eq] at hw
    have hj : j ≠ k := by omega
    simp only [sget, if_neg hj]
    exact sget_below (by omega : k < j + 1) hw.2

/-- Two canonical tables that read alike are equal. -/
theorem swfFrom_ext {α : Type} [DecidableEq α] {d : Nat → α} {lo : Nat} : ∀ {t u : List (Nat × α)},
    swfFrom d lo t = true → swfFrom d lo u = true → (∀ k, sget d t k = sget d u k) → t = u
  | [], [], _, _, _ => rfl
  | [], (j, v) :: ys, _, hu, h => by
    simp only [swfFrom, Bool.and_eq_true, decide_eq_true_eq] at hu
    exact absurd (by simpa [sget] using (h j).symm) hu.1.2
  | (j, v) :: xs, [], ht, _, h => by
    simp only [swfFrom, Bool.and_eq_true, decide_eq_true_eq] at ht
    exact absurd (by simpa [sget] using h j) ht.1.2
  | (j, v) :: xs, (k, w) :: ys, ht, hu, h => by
    simp only [swfFrom, Bool.and_eq_true, decide_eq_true_eq] at ht hu
    have hjk : j = k := by
      rcases Nat.lt_trichotomy j k with hlt | heq | hgt
      · have e := h j
        have : swfFrom d k ((k, w) :: ys) = true := by
          simp only [swfFrom, Bool.and_eq_true, decide_eq_true_eq]; exact ⟨⟨le_refl _, hu.1.2⟩, hu.2⟩
        rw [sget_below hlt this, sget, if_pos rfl] at e
        exact absurd e ht.1.2
      · exact heq
      · have e := h k
        have : swfFrom d j ((j, v) :: xs) = true := by
          simp only [swfFrom, Bool.and_eq_true, decide_eq_true_eq]; exact ⟨⟨le_refl _, ht.1.2⟩, ht.2⟩
        rw [sget_below hgt this, sget, if_pos rfl] at e
        exact absurd e.symm hu.1.2
    subst k
    have hv : v = w := by simpa [sget] using h j
    subst w
    have hx : xs = ys := swfFrom_ext ht.2 hu.2 fun k => by
      by_cases hk : j = k
      · subst k
        rw [sget_below (by omega : j < j + 1) ht.2, sget_below (by omega : j < j + 1) hu.2]
      · simpa [sget, hk] using h k
    rw [hx]

/-! Tables of records. -/

theorem Tab.at_put {β : Type} [Inhabited β] [DecidableEq β] {t : Tab β} {k i : Nat} {v : β} :
    (t.put k v).at i = if i = k then v else t.at i := sget_sset

@[simp] theorem Tab.at_put_self {β : Type} [Inhabited β] [DecidableEq β] {t : Tab β} {k : Nat} {v : β} : (t.put k v).at k = v := by
  rw [Tab.at_put, if_pos rfl]

theorem Tab.at_upd {β : Type} [Inhabited β] [DecidableEq β] {t : Tab β} {k i : Nat} {f : β → β} :
    (t.upd k f).at i = if i = k then f (t.at k) else t.at i := Tab.at_put

@[simp] theorem Tab.at_upd_self {β : Type} [Inhabited β] [DecidableEq β] {t : Tab β} {k : Nat} {f : β → β} :
    (t.upd k f).at k = f (t.at k) := by
  rw [Tab.at_upd, if_pos rfl]

@[simp] theorem Tab.at_nil {β : Type} [Inhabited β] (i : Nat) : Tab.at ([] : Tab β) i = default := rfl

end Sys2Proof.Machine
end

