-- ==== Sys2Proof/Laws/State.lean ====
section
/-! SUPPORT.  One lemma per field per update of the state and of a command's work. -/

namespace Sys2Proof.Machine

/-! The start of a command's work, and its end. -/

@[simp] theorem Tx.start_s (s : State) : (Tx.start s).s = s := rfl
@[simp] theorem Tx.start_d (s : State) : (Tx.start s).d = s.dev := rfl
@[simp] theorem Tx.start_m (s : State) : (Tx.start s).m = [] := rfl
@[simp] theorem Tx.start_r (s : State) : (Tx.start s).r = [] := rfl

@[simp] theorem State.commit_pending (s : State) (t : Tx) : (s.commit t).pending = s.pending := rfl
@[simp] theorem State.commit_now (s : State) (t : Tx) : (s.commit t).now = s.now := rfl
@[simp] theorem State.commit_dev (s : State) (t : Tx) : (s.commit t).dev = t.d := rfl
@[simp] theorem State.commit_mem (s : State) (t : Tx) : (s.commit t).mem = ssetAll emptyByte s.mem t.m := rfl
@[simp] theorem State.commit_regs (s : State) (t : Tx) : (s.commit t).regs = ssetAll resetWord s.regs t.r := rfl

/-- A register after a command: its newest logged word, or what stood before. -/
theorem State.commit_reg (s : State) (t : Tx) (a : Nat) : (s.commit t).reg a = (logGet t.r a).getD (s.reg a) := sget_ssetAll a t.r

/-- A byte after a command: its newest logged value, or what stood before. -/
theorem State.commit_byte (s : State) (t : Tx) (a : Nat) : (s.commit t).byte a = (logGet t.m a).getD (s.byte a) := sget_ssetAll a t.m

/-- A field after a command that worked on `s`: the field as the command left it. -/
theorem State.commit_rd (s : State) (t : Tx) (h : t.s = s) (f : FRef) : (s.commit t).rd f = t.rd f := by
  unfold State.rd Tx.rd Tx.word
  rw [State.commit_reg, h]
  cases logGet t.r f.addr <;> rfl

/-- The word of a register as a command left it is the register's word after the command. -/
theorem State.commit_word (s : State) (t : Tx) (h : t.s = s) (a : Nat) : ((s.commit t).reg a).toNat = t.word a := by
  unfold Tx.word
  rw [State.commit_reg, h]
  cases logGet t.r a <;> rfl

/-- A byte as a command left it is the byte after the command. -/
theorem State.commit_rb (s : State) (t : Tx) (h : t.s = s) (a : Nat) : (s.commit t).byte a = t.rb a := by
  unfold Tx.rb
  rw [State.commit_byte, h]
  cases logGet t.m a <;> rfl

/-- A command that works by `f` answers the state its work commits to. -/
theorem State.does_eq (s : State) (f : Tx → Tx) : s.does f = .next (s.commit (f (Tx.start s))) := rfl

/-- Committing keeps the canonical forms. -/
theorem State.commit_Inv {s : State} (h : s.Inv) (t : Tx) : (s.commit t).Inv := ⟨swf_ssetAll h.1 t.m, swf_ssetAll h.2 t.r⟩

/-! A register word written. -/

@[simp] theorem Tx.setWord_s (t : Tx) (a w : Nat) : (t.setWord a w).s = t.s := rfl
@[simp] theorem Tx.setWord_d (t : Tx) (a w : Nat) : (t.setWord a w).d = t.d := rfl
@[simp] theorem Tx.setWord_m (t : Tx) (a w : Nat) : (t.setWord a w).m = t.m := rfl
@[simp] theorem Tx.setWord_r (t : Tx) (a w : Nat) : (t.setWord a w).r = (a, BitVec.ofNat 32 w) :: t.r := rfl
@[simp] theorem Tx.setWord_now (t : Tx) (a w : Nat) : (t.setWord a w).now = t.now := rfl
@[simp] theorem Tx.setWord_powered (t : Tx) (a w i : Nat) : (t.setWord a w).powered i = t.powered i := rfl
@[simp] theorem Tx.setWord_inReset (t : Tx) (a w i : Nat) : (t.setWord a w).inReset i = t.inReset i := rfl

theorem Tx.word_setWord (t : Tx) (a w b : Nat) : (t.setWord a w).word b = if b = a then w % 2 ^ 32 else t.word b := by
  unfold Tx.word
  rw [Tx.setWord_r, logGet]
  by_cases h : a = b
  · rw [if_pos h, if_pos h.symm]; exact BitVec.toNat_ofNat w 32
  · rw [if_neg h, if_neg fun e => h e.symm]; rfl

@[simp] theorem Tx.word_setWord_self (t : Tx) (a w : Nat) : (t.setWord a w).word a = w % 2 ^ 32 := by rw [Tx.word_setWord, if_pos rfl]

theorem Tx.word_lt (t : Tx) (a : Nat) : t.word a < 2 ^ 32 := by
  unfold Tx.word
  split
  · exact BitVec.isLt _
  · exact BitVec.isLt _

/-! A field written. -/

@[simp] theorem Tx.wr_s (t : Tx) (f : FRef) (v : Nat) : (t.wr f v).s = t.s := rfl
@[simp] theorem Tx.wr_d (t : Tx) (f : FRef) (v : Nat) : (t.wr f v).d = t.d := rfl
@[simp] theorem Tx.wr_m (t : Tx) (f : FRef) (v : Nat) : (t.wr f v).m = t.m := rfl
@[simp] theorem Tx.wr_now (t : Tx) (f : FRef) (v : Nat) : (t.wr f v).now = t.now := rfl
@[simp] theorem Tx.wr_powered (t : Tx) (f : FRef) (v i : Nat) : (t.wr f v).powered i = t.powered i := rfl
@[simp] theorem Tx.wr_inReset (t : Tx) (f : FRef) (v i : Nat) : (t.wr f v).inReset i = t.inReset i := rfl

/-- A field written reads as the value, cut to its width. -/
theorem Tx.rd_wr_self (t : Tx) (f : FRef) (v : Nat) (h : f.hi < 32) : (t.wr f v).rd f = v % 2 ^ (f.hi + 1 - f.lo) := by
  unfold Tx.rd Tx.wr
  rw [Tx.word_setWord_self, Nat.mod_eq_of_lt (putBits_lt (t.word_lt _) h), bits_putBits]

/-- A field of another register stands. -/
theorem Tx.rd_wr_other (t : Tx) (f g : FRef) (v : Nat) (h : g.addr ≠ f.addr) : (t.wr f v).rd g = t.rd g := by
  unfold Tx.rd Tx.wr
  rw [Tx.word_setWord, if_neg h]

/-- A field apart from the written one, in the same register, stands. -/
theorem Tx.rd_wr_apart (t : Tx) (f g : FRef) (v : Nat) (hf : f.hi < 32) (h : g.hi < f.lo ∨ f.hi < g.lo) : (t.wr f v).rd g = t.rd g := by
  by_cases ha : g.addr = f.addr
  · unfold Tx.rd Tx.wr
    rw [ha, Tx.word_setWord_self, Nat.mod_eq_of_lt (putBits_lt (t.word_lt _) hf), bits_putBits_apart _ _ _ _ _ _ h]
  · exact t.rd_wr_other f g v ha

theorem Tx.word_wr_other (t : Tx) (f : FRef) (v a : Nat) (h : a ≠ f.addr) : (t.wr f v).word a = t.word a := by
  unfold Tx.wr
  rw [Tx.word_setWord, if_neg h]

/-! A byte written. -/

@[simp] theorem Tx.wb_s (t : Tx) (a : Nat) (b : Byte) : (t.wb a b).s = t.s := rfl
@[simp] theorem Tx.wb_d (t : Tx) (a : Nat) (b : Byte) : (t.wb a b).d = t.d := rfl
@[simp] theorem Tx.wb_r (t : Tx) (a : Nat) (b : Byte) : (t.wb a b).r = t.r := rfl
@[simp] theorem Tx.wb_m (t : Tx) (a : Nat) (b : Byte) : (t.wb a b).m = (a, b) :: t.m := rfl

theorem Tx.rb_wb (t : Tx) (a : Nat) (b : Byte) (i : Nat) : (t.wb a b).rb i = if i = a then b else t.rb i := by
  unfold Tx.rb
  rw [Tx.wb_m, logGet]
  by_cases h : a = i
  · rw [if_pos h, if_pos h.symm]
  · rw [if_neg h, if_neg fun e => h e.symm]; rfl

@[simp] theorem Tx.wrBytes_s (t : Tx) (a : Nat) (bs : List Byte) : (t.wrBytes a bs).s = t.s := by
  induction bs generalizing t a with
  | nil => rfl
  | cons b bs ih => rw [Tx.wrBytes, ih]; rfl
@[simp] theorem Tx.wrBytes_d (t : Tx) (a : Nat) (bs : List Byte) : (t.wrBytes a bs).d = t.d := by
  induction bs generalizing t a with
  | nil => rfl
  | cons b bs ih => rw [Tx.wrBytes, ih]; rfl
@[simp] theorem Tx.wrBytes_r (t : Tx) (a : Nat) (bs : List Byte) : (t.wrBytes a bs).r = t.r := by
  induction bs generalizing t a with
  | nil => rfl
  | cons b bs ih => rw [Tx.wrBytes, ih]; rfl

/-- Bytes written from `a` on read back; every other byte stands. -/
theorem Tx.rb_wrBytes (t : Tx) (a : Nat) (bs : List Byte) (i : Nat) :
    (t.wrBytes a bs).rb i = if a ≤ i ∧ i < a + bs.length then bs.getD (i - a) 0 else t.rb i := by
  induction bs generalizing t a with
  | nil => rw [if_neg (by simp)]; rfl
  | cons b bs ih =>
    rw [Tx.wrBytes, ih, Tx.rb_wb, List.length_cons]
    by_cases h : i = a
    · subst h
      rw [if_neg (by omega), if_pos rfl, if_pos (by omega)]
      simp
    · by_cases h2 : a + 1 ≤ i ∧ i < a + 1 + bs.length
      · rw [if_pos h2, if_pos (by omega)]
        have : i - a = (i - (a + 1)) + 1 := by omega
        rw [this, List.getD_cons_succ]
      · rw [if_neg h2, if_neg h, if_neg (by omega)]

/-! Open values and what leaves the module. -/

@[simp] theorem Tx.fresh_s (t : Tx) (w : Nat) : (t.fresh w).2.s = t.s := rfl
@[simp] theorem Tx.fresh_m (t : Tx) (w : Nat) : (t.fresh w).2.m = t.m := rfl
@[simp] theorem Tx.fresh_r (t : Tx) (w : Nat) : (t.fresh w).2.r = t.r := rfl
@[simp] theorem Tx.pick_s (t : Tx) (n : Nat) : (t.pick n).2.s = t.s := rfl
@[simp] theorem Tx.pick_m (t : Tx) (n : Nat) : (t.pick n).2.m = t.m := rfl
@[simp] theorem Tx.pick_r (t : Tx) (n : Nat) : (t.pick n).2.r = t.r := rfl
theorem Tx.pick_lt (t : Tx) {n : Nat} (h : 0 < n) : (t.pick n).1 < n := Nat.mod_lt _ h
theorem Tx.fresh_lt (t : Tx) (w : Nat) : (t.fresh w).1 < 2 ^ w := Nat.mod_lt _ (Nat.two_pow_pos w)

@[simp] theorem Tx.send_s (t : Tx) (p k : String) (xs : List Nat) : (t.send p k xs).s = t.s := rfl
@[simp] theorem Tx.send_m (t : Tx) (p k : String) (xs : List Nat) : (t.send p k xs).m = t.m := rfl
@[simp] theorem Tx.send_r (t : Tx) (p k : String) (xs : List Nat) : (t.send p k xs).r = t.r := rfl
@[simp] theorem Tx.send_out (t : Tx) (p k : String) (xs : List Nat) : (t.send p k xs).d.out = t.d.out ++ [⟨p, k, xs⟩] := rfl

@[simp] theorem Tx.when_true (t : Tx) (f : Tx → Tx) : t.when true f = f t := rfl
@[simp] theorem Tx.when_false (t : Tx) (f : Tx → Tx) : t.when false f = t := rfl
@[simp] theorem Tx.each_nil {α : Type} (t : Tx) (f : Tx → α → Tx) : t.each [] f = t := rfl
@[simp] theorem Tx.each_cons {α : Type} (t : Tx) (x : α) (xs : List α) (f : Tx → α → Tx) : t.each (x :: xs) f = (f t x).each xs f := rfl

end Sys2Proof.Machine
end

