-- ==== Sys2Proof/Laws/Commands.lean ====
section
/-! SUPPORT.  How a command completes: the frames of a command's logs, and a software write that reaches its register. -/

namespace Sys2Proof.Machine

@[simp] theorem State.word_start (s : State) (a : Nat) : (Tx.start s).word a = s.word a := rfl
@[simp] theorem State.rd_start (s : State) (f : FRef) : (Tx.start s).rd f = s.rd f := rfl
@[simp] theorem State.now_start (s : State) : (Tx.start s).now = s.now := rfl
@[simp] theorem State.powered_start (s : State) (i : Nat) : (Tx.start s).powered i = s.on i := rfl

/-- A register word after a command, from the command's log. -/
theorem State.word_commit (s : State) (t : Tx) (a : Nat) : (s.commit t).word a = ((logGet t.r a).getD (s.reg a)).toNat := by
  unfold State.word; rw [State.commit_reg]

/-- A command that logs no byte leaves memory alone. -/
theorem sameMem_of_nil {s : State} {t : Tx} (h : t.m = []) : SameMem s (s.commit t) := by
  intro a; rw [State.commit_byte, h]; rfl

/-- A command that logs bytes only in a range leaves memory outside it alone. -/
theorem sameMemBut_of {s : State} {t : Tx} {lo n : Nat} (h : ∀ e ∈ t.m, lo ≤ e.1 ∧ e.1 < lo + n) : SameMemBut s (s.commit t) lo n := by
  intro a ha
  rw [State.commit_byte, logGet_none]
  · rfl
  · intro e he hh
    have := h e he
    omega

/-- A command that logs words only of the registers listed leaves the others alone. -/
theorem sameRegs_of {s : State} {t : Tx} {as : List Nat} (h : ∀ e ∈ t.r, e.1 ∈ as) : SameRegs s (s.commit t) as := by
  intro a ha
  rw [State.commit_reg, logGet_none]
  · rfl
  · intro e he hh
    exact ha (hh ▸ h e he)

/-- What holds of the committed work of a command holds of its next state. -/
theorem Completes.of_does {c : Instr} {s : State} {f : Tx → Tx} {P : State → Prop} (hc : exec c s = s.does f)
    (h : P (s.commit (f (Tx.start s)))) : Completes c s P := ⟨_, hc, h⟩

/-- A software write that reaches its register does its effect. -/
theorem swWrite_reaches {s : State} {mid a : Nat} {f : Tx → Tx} (h : s.reaches mid a = true) :
    (Tx.start s).swWrite mid a f = f (Tx.start s) := by
  unfold State.reaches State.meets at h
  unfold Tx.swWrite
  cases hm : (Tx.start s).meets mid a 4 <;> rw [hm] at h <;> simp_all

/-- A command that is a software write, and reaches its register, completes with the write's effect. -/
theorem Completes.of_write {c : Instr} {s : State} {mid a : Nat} {f : Tx → Tx} {P : State → Prop}
    (hc : exec c s = s.does fun t => t.swWrite mid a f) (hr : s.reaches mid a = true) (h : P (s.commit (f (Tx.start s)))) : Completes c s P :=
  ⟨_, hc, by beta_reduce; rw [swWrite_reaches hr]; exact h⟩

end Sys2Proof.Machine
end

