-- ==== Sys2Proof/Tests/Slice0.lean ====
section
/-! SUPPORT.  Tests: what is ill-formed is refused; worked values of the spec; and for the statements, states and operands that meet their
hypotheses, with what the next state then holds. -/

namespace Sys2Proof.Tests

open Sys2Proof.Machine

set_option maxRecDepth 100000
set_option Elab.async false

/-! A laboratory: every domain on, one second after reset. -/

/-- Every domain is on. -/
def lab : State :=
  { State.reset with now := 1000000000, dev := { ({} : Dev) with pwr := (List.range 74).map fun k => (k, Pwr.on) } }

/-- `s` with fields of its registers set. -/
def poke (s : State) (fs : List (FRef × Nat)) : State := s.commit (fs.foldl (fun t f => t.wr f.1 f.2) (Tx.start s))

/-- `s` with whole registers set. -/
def pokeW (s : State) (ws : List (Nat × Nat)) : State := s.commit (ws.foldl (fun t w => t.setWord w.1 w.2) (Tx.start s))

/-- `s` with bytes of memory set. -/
def store (s : State) (a : Nat) (bs : List Byte) : State := s.commit ((Tx.start s).wrBytes a bs)

/-- `s` with its device state changed. -/
def withDev (s : State) (f : Dev → Dev) : State := { s with dev := f s.dev }

/-- The state after a command; `s` where there is none. -/
def after (c : Instr) (s : State) : State :=
  match exec c s with
  | .next t => t
  | _ => s

/-- The command goes on. -/
def goes (c : Instr) (s : State) : Bool :=
  match exec c s with
  | .next _ => true
  | _ => false

/-- No register but those at `as` differs. -/
def sameRegs (s t : State) (as : List Nat) : Bool :=
  ((s.regs ++ t.regs).map (·.1)).all fun a => as.contains a || s.reg a == t.reg a

/-- Memory is the same. -/
def sameMem (s t : State) : Bool := s.mem == t.mem

/-- What left the module in the step from `s` to `t`. -/
def sent (s t : State) : List Out := t.dev.out.drop s.dev.out.length

/-- The laboratory with its memory ready, and every translation unit mapping the first GiB of context 0 onto the home groups of tile 0. -/
def labM : State :=
  poke (withDev lab fun d => { d with xlt := (List.range 5).map fun u =>
      (u, { ({} : Xlt) with dcs := [(0, ⟨1, 0, 0, 0xFFFF⟩)], tlb := [⟨0, 0, 2, homeBase, true, true, true, true⟩] }) })
    (((List.range 5).map fun u => (XLT_CTL_EN (xltBase u), 1)) ++ ((List.range 9).map fun m => (HD_MC_STAT_READY m, 1)) ++ [(HD_SHF_STAT_READY, 0xFFF), (HD_SHF_GCFG_INTL, 0), (HD_MEE_CTL_LOCK, 1)])

/-! Ill-formed commands: one for each check. -/

theorem test_wf_times : Instr.wellFormed (.sync 0 true 0 (2 ^ 64) 0) = false ∧ Instr.wellFormed (.pdelayResp 0 0 (2 ^ 64)) = false ∧
    Instr.wellFormed (.announce 0 256) = false ∧ Instr.wellFormed (.sync 0 true 0 7 0) = true := by decide +kernel

theorem test_wf_lengths : Instr.wellFormed (.energyTick [1]) = false ∧ Instr.wellFormed (.pbaTick [] [] 0 0) = false ∧
    Instr.wellFormed (.gridFrame 0 0 0 [1]) = false ∧ Instr.wellFormed (.resultFrame 0 0 0 []) = false ∧ Instr.wellFormed (.partnerRecord 0 0 0 []) = false ∧
    Instr.wellFormed (.request 0 0 0 []) = false ∧ Instr.wellFormed (.digestRecord 0 0 0 []) = false ∧ Instr.wellFormed (.status 0 []) = false ∧
    Instr.wellFormed (.event 0 []) = false ∧ Instr.wellFormed (.dbgauth 1 []) = false ∧ Instr.wellFormed (.wearSample [1]) = false := by decide +kernel

theorem test_wf_ranges : Instr.wellFormed (.cert 0 0 0 []) = false ∧ Instr.wellFormed (.spb 0 0 0 []) = false ∧
    Instr.wellFormed (.timereq 0 0 0 [1]) = false ∧ Instr.wellFormed (.relay 0 1 []) = false ∧ Instr.wellFormed (.mirrorEntry 0 (2 ^ 48) 0 [1]) = false ∧
    Instr.wellFormed (.mirrorEntry 0 0 0 []) = false ∧ Instr.wellFormed (.summary 0 0 0 0 0 (List.replicate 65 0)) = false ∧
    Instr.wellFormed (.notice 0 0 0 0 0 0 (2 ^ 64) 0 0) = false ∧ Instr.wellFormed (.roceAck 0 (2 ^ 24)) = false ∧
    Instr.wellFormed (.rdmaWrite 0 0 0 []) = false ∧ Instr.wellFormed (.send 0 0 (2 ^ 64) [1]) = false ∧ Instr.wellFormed (.msiCapture 0 0 0 (2 ^ 48) 0) = false ∧
    Instr.wellFormed (.pcieInboundRequest 0 0 0 (2 ^ 64) 0 none) = false := by decide +kernel

theorem test_wf_links : Instr.wellFormed (.linkTrained 0 0 [1] []) = false ∧ Instr.wellFormed (.eyeMeasurement 0 0 []) = false ∧
    Instr.wellFormed (.wr 0 0 0 [1]) = false ∧ Instr.wellFormed (.migrationChunk [3] [3]) = false ∧ Instr.wellFormed (.migrationChunk [3, 3] []) = false := by decide +kernel

theorem test_wf_data : Instr.wellFormed (.canFdFrame 0 0 false 0 (List.replicate 9 0)) = false ∧
    Instr.wellFormed (.canFdFrame 0 0 false 0 (List.replicate 12 0)) = true ∧ Instr.wellFormed (.lidarFrame 0 false 0 true false (List.replicate 9001 0)) = false ∧
    Instr.wellFormed (.controllerIssue 0 [⟨32, 0, 0, false, some (List.replicate 33 0)⟩] .clean) = false ∧
    Instr.wellFormed (.selfRefreshExit 0 ⟨0, 0, 0, false, some []⟩) = false ∧ Instr.wellFormed (.guestRequest 0 32 0 0 (some (List.replicate 33 0))) = false ∧
    Instr.wellFormed (.hartMemoryAccess 0 (.load 3) 0 0) = false ∧ Instr.wellFormed (.hartMemoryAccess 0 (.amo 0 false (2 ^ 32)) 0 0) = false ∧
    Instr.wellFormed (.testDone [(0, 2 ^ 32)] 0 0) = false := by decide +kernel

theorem test_wf_csi : Instr.wellFormed (.csi2LongPacket 0 0 0 (List.replicate 65536 0) .clean true) = false := by
  simp only [Instr.wellFormed, List.length_replicate]; decide

/-! The machine. -/

/-- The front command runs with the queue's rest; an idle step counts device time (R8). -/
theorem test_step : (match step { lab with pending := [.announce 3 7, .announce 3 9] } with
    | .next t => t.pending == [.announce 3 9]
    | _ => false) = true ∧ (match step lab with
    | .next t => t.now == 1000000001 && t.pending == []
    | _ => false) = true := by decide +kernel

theorem test_reset_sound : State.reset.Inv := ⟨rfl, rfl⟩

/-- A sound state that is not the reset state, whose step goes on. -/
theorem test_sound_step : (let s := poke (store lab 0x1000 [1#8, 0#8, 3#8]) [(PBA_CTL_BUDGET, 4000)]
    Memory.wf s.mem = true ∧ Regs.wf s.regs = true ∧ s.mem.length = 2 ∧ (match step s with | .next t => Memory.wf t.mem | _ => false) = true) := by decide +kernel

theorem test_no_table_words : decodeTableWord 32 0 = none ∧ (State.reset.withFetchWord 32 0) = State.reset := by decide +kernel

/-! Registers. -/

/-- A core's write of the budget is turned away (R624, R637), an address of no block is a decode error (R620), and a write to a block in
reset waits (R20). -/
theorem test_write_turned_away : lab.reaches 0 PBA_CTL = false ∧ (match lab.meets 0 PBA_CTL with | .reg _ _ => true | _ => false) = true ∧
    (let t := after (.budgetWrite 0 0) lab
     t.rd PBA_STAT_ACCERR = 1 ∧ t.rd GLB_STAT_ACCANY = 1 ∧ t.rd GLB_CNT_ACCCNT = 1 ∧ t.word GLB_ACCLOG_LO = PBA_CTL % 2 ^ 32 ∧ t.dev = lab.dev) ∧
    (match lab.meets 0x100 PBA_CTL with | .decode => true | _ => false) = true ∧ (after (.budgetWrite 0x100 0) lab).rd GLB_STAT_DECERR = 1 ∧
    (let s := withDev lab fun d => { d with sec := { d.sec with rst := some ⟨3, [domCD 0], 2000000000⟩ } }
     (match s.meets 0 (CD_SCH_DB 0 0) with | .held => true | _ => false) = true ∧ after (.schDoorbell 0 0 0 5) s = s) := by decide +kernel

/-! Worked values of arithmetic (files 02 to 04). -/

/-- The neck layer's band (file 03): its descriptor stands decode, and its steps over the four shapes are those of the table. -/
def neckBand : TileDesc :=
  ⟨[0x11111400, 0x6C0, 0, 0x6C0, 0x01800320, 0, 0x140000, 0x200000, 0, 0x1F0000, 0x1F1000, 0, 0, 0, 0x000601E0, 0x6, 0x00A0002A, 0x002200C0,
    0x00A00010, 0] ++ List.replicate 12 0⟩

theorem test_neck_band_steps : neckBand.steps 512 512 = 4792 ∧ neckBand.steps 512 256 = 8120 ∧ neckBand.steps 256 512 = 7224 ∧
    neckBand.steps 256 256 = 13240 ∧ neckBand.decodeFault true = none := by decide +kernel

/-- R50, with the requantisation of the neck layer's element. -/
theorem test_requant : (Requant.mk 0x5A82799A 40 (-3)).apply 8 91234 = 0x7B := by decide +kernel

/-- Canonical mode, whole and split (file 02). -/
theorem test_canonical : closeCanonF32 false ((CAcc.push ((CAcc.push {} 0x4B800000).push 0x3F800000) 0x3F800000)) none = 0x4B800000 := by decide +kernel

/-! Work lists. -/

/-- Doorbells on ring 3 of die 1: to entry 5, and out of the ring. -/
theorem test_doorbell : lab.reaches 0x005 (CD_SCH_DB 1 3) = true ∧ lab.ringSize 1 3 = 16 ∧
    (let t := after (.schDoorbell 0x005 1 3 5) lab
     t.rd (CD_SCH_RPTR_DBTAIL 1 3) = 5 ∧ sameRegs lab t [CD_SCH_RPTR 1 3] = true ∧ t.dev = lab.dev) ∧
    (let t := after (.schDoorbell 0x005 1 3 16) lab
     t.rd (CD_SCH_STAT_CMDREF 1) = 1 ∧ sameRegs lab t [CD_SCH_STAT 1] = true) := by decide +kernel

theorem test_event_counters :
    (let s := pokeW lab [(CD_SCH_EVT 2 7, 0xFFFFFFFF)]
     s.reaches 0x710 (CD_SCH_EVTINC 2) = true ∧ s.on (domCD 2) = true ∧
     (after (.evtinc 0x710 2 7) s).word (CD_SCH_EVT 2 7) = 0 ∧ (after (.eventIncrement 2 7) s).word (CD_SCH_EVT 2 7) = 0 ∧
     sameRegs s (after (.evtinc 0x710 2 7) s) [CD_SCH_EVT 2 7] = true) := by decide +kernel
/-- A ring entry of one step: list at 0x4000, markers at 0x8000, save area at 0x9000, EPOCH 7, the partition's first 64 KiB, gated where `flags` says. -/
def ringEntry (flags : Nat) : List Byte :=
  leBytes 8 0x4000 ++ leBytes 8 0x8000 ++ leBytes 8 0x9000 ++ leBytes 16 0 ++ leBytes 4 7 ++ leBytes 2 1 ++ leBytes 1 5 ++ leBytes 1 flags ++
    leBytes 4 0 ++ leBytes 4 0x10000 ++ leBytes 2 0 ++ leBytes 1 3 ++ leBytes 1 0x1F ++ leBytes 4 9

/-- A list waits in ring 2 of die 0, whose base is 0x1000. -/
def ringed (flags : Nat) : State :=
  pokeW (store (poke labM [(CD_SCH_CTL_RINGEN 0, 255), (CD_SCH_RPTR_DBTAIL 0 2, 1)]) (homeBase + 0x1000) (ringEntry flags)) [(CD_SCH_RBASE_LO 0 2, 0x1000)]

def ctxOk (s : State) (c : Nat) (st : CtxState) : Bool := (s.ctx 0 c).st == st

theorem test_ring_fetch : (Tx.start (ringed 2)).mayFetch 0 2 = true ∧ (Tx.start (ringed 2)).rt 0 2 = false ∧
    (match (Tx.start (ringed 2)).vRead 0 0 (dieMid 0) 0x1000 64 with | (_, .ok e) => e == ringEntry 2 | _ => false) = true ∧
    entryBad (ringEntry 2) false = false ∧ (Tx.start (ringed 2)).partBusy 0 2 0 0x10000 = false ∧
    (let t := after (.ringFetch 0 2) (ringed 2)
     (t.ctx 0 2).ent = ringEntry 2 ∧ (t.ctx 0 2).st = .gated ∧ t.rd (CD_SCH_RPTR_HEAD 0 2) = 1) ∧
    ((after (.ringFetch 0 2) (ringed 0)).ctx 0 2).st = .running := by decide +kernel

/-- A context gated on counter 3 at 9. -/
def gated : State := withDev labM fun d => { d with sch := [(0, { ctx := [(2, { st := .gated, ent := ringEntry 2 })] })] }

theorem test_gate : after (.gateMet 0 2) (pokeW gated [(CD_SCH_EVT 0 3, 8)]) = pokeW gated [(CD_SCH_EVT 0 3, 8)] ∧
    ((after (.gateMet 0 2) (pokeW gated [(CD_SCH_EVT 0 3, 9)])).ctx 0 2).st = .running := by decide +kernel

/-- The words of a step at position 0 with this body. -/
def stepWords (body : List Nat) : List Nat := List.replicate 16 0 ++ body ++ List.replicate (32 - body.length) 0

/-- FILL of one row of four FP32 codes at staging 0x40. -/
def fillStep : List Nat := stepWords [0x5E909000, 4, 1, 0, 0, 0x40, 0, 1, 0, 0xC2280000]

/-- Context 2 of die 0 runs a list of one step, and nothing of it is decoded. -/
def running (words : List Nat) : State :=
  withDev (store labM (homeBase + 0x4000) (words.flatMap (leBytes 4))) fun d => { d with sch := [(0, { ctx := [(2, { st := .running, ent := ringEntry 0 })] })] }

theorem test_step_decode : ((running fillStep).ctx 0 2).toDecode = some 0 ∧
    StepEntry.decodeFault ⟨fillStep⟩ 0 0 0x10000 false true 64 true = none ∧
    (let t := after (.stepDecode 0 2) (running fillStep)
     ((t.ctx 0 2).step? 0).map (fun y => (y.words, y.fault)) = some (fillStep, none) ∧ sameMem (running fillStep) t = true) := by decide +kernel

/-- The step granted its engine, as decode leaves it. -/
def granted (words : List Nat) : State := after (.stepDecode 0 2) (running words)

theorem test_fill : (match (Tx.start (granted fillStep)).grantedAs 0 2 0 0x5E with | some (_, e) => e == .strand | none => false) = true ∧
    (let t := after (.fill 0 2 0) (granted fillStep)
     (List.range 16).map (fun i => t.byte (stagingKey 0 + 0x40 + i)) = (List.replicate 4 [0x00#8, 0x00#8, 0x28#8, 0xC2#8]).flatten ∧
     t.byte (stagingKey 0 + 0x50) = 0 ∧ sameRegs (granted fillStep) t [CD_STR_STAT 0] = true) := by decide +kernel
/-- MATMUL of the exact worked example (file 02): one element of K = 3 in FP8 E4M3, output FP32 with a zero bias. -/
def matmulStep : List Nat := stepWords [0x10229000, 3, 0, 3, 0x00010001, 0, 0x1000, 0x2000, 0, 0, 0, 0, 0, 0, 0x00010001, 0x1]

def matmulLab : State :=
  store (store (store (granted matmulStep) (stagingKey 0) [0x7E, 0x01, 0xFE]) (stagingKey 0 + 0x1000) [0x7E]) (stagingKey 0 + 0x1040) [0x01] |> fun s =>
    store s (stagingKey 0 + 0x1080) [0x7E]

theorem test_matmul : (match (Tx.start matmulLab).grantedAs 0 2 0 0x10 with | some (_, e) => e == .braid | none => false) = true ∧
    (let t := after (.matmul 0 2 0 .clean) matmulLab
     ((List.range 4).map fun i => t.byte (stagingKey 0 + 0x2000 + i)) = [0x00, 0x00, 0x80, 0x36] ∧ sameRegs matmulLab t [] = true) := by decide +kernel

theorem test_residue_mismatch : bit (matmulLab.dev.sch.at 0).qact 1 = true ∧ (matmulLab.dev.sch.at 0).mism.at 1 = 0 ∧
    (let t := after (.matmul 0 2 0 (.mismatch 1)) matmulLab
     t.rd (CD_BRD_QSTAT_QERR 0) = 2 ∧ t.rd (CD_BRD_DISCCNT_DISC 0) = 1 ∧ sameMem matmulLab t = true ∧ (t.dev.sch.at 0).cur.at 0 = some (2, 0)) := by decide +kernel

/-- LOAD and STORE of one row of 64 bytes between 0x5000 and staging 0x100. -/
def transferStep (opc : Nat) : List Nat := stepWords [opc * 2 ^ 24, 0x5000, 0, 0x100, 64, 1, 0, 1]

def transferLab (opc : Nat) : State :=
  store (store (granted (transferStep opc)) (homeBase + 0x5000) [0xA1]) (stagingKey 0 + 0x100) [0xB2]

theorem test_load : ((Tx.start (transferLab 0x60)).readyAs 0 2 0 0x60 .transfer).isSome = true ∧ ((transferLab 0x60).ctx 0 2).transferring = false ∧
    (let t := after (.load 0 2 0) (transferLab 0x60)
     t.byte (stagingKey 0 + 0x100) = 0xA1 ∧ ((t.ctx 0 2).step? 0).map (·.phase) = some (.ran 0)) := by decide +kernel

theorem test_store : ((Tx.start (transferLab 0x61)).readyAs 0 2 0 0x61 .transfer).isSome = true ∧
    (let t := after (.store 0 2 0) (transferLab 0x61)
     t.byte (homeBase + 0x5000) = 0xB2 ∧ t.byte (stagingKey 0 + 0x100) = 0xB2) := by decide +kernel

/-- SIGNAL of counter 6 of die 0, and WAIT for counter 6 at 3. -/
def signalStep : List Nat := stepWords [0x70000000, 0x600]
def waitStep : List Nat := stepWords [0x71000000, 0x6, 3]

theorem test_signal : ((Tx.start (granted signalStep)).readyAs 0 2 0 0x70 .sync).isSome = true ∧
    (let t := after (.signal 0 2 0) (granted signalStep)
     t.word (CD_SCH_EVT 0 6) = 1 ∧ ((t.ctx 0 2).step? 0).map (·.phase) = some (.ran 0)) := by decide +kernel

/-- The WAIT under way, and its counter at 3. -/
def waiting (n : Nat) : State := pokeW (after (.wait 0 2 0) (granted waitStep)) [(CD_SCH_EVT 0 6, n)]

theorem test_wait : ((Tx.start (granted waitStep)).readyAs 0 2 0 0x71 .sync).isSome = true ∧
    (((after (.wait 0 2 0) (granted waitStep)).ctx 0 2).step? 0).map (·.phase) = some .granted ∧
    ((after (.waitComplete 0 2 0) (waiting 2)).ctx 0 2).st = .running ∧ ((after (.waitComplete 0 2 0) (waiting 3)).ctx 0 2).st = .idle ∧
    ((List.range 8).map fun i => (after (.waitComplete 0 2 0) (waiting 3)).byte (homeBase + 0x8000 + i)) = [0, 0, 0, 0x71, 7, 0, 0, 0] := by decide +kernel

/-- The marker of step 0 of EPOCH 7 (R174), after which the list of one step ends. -/
theorem test_commit : (match (Tx.start (transferLab 0x60)).dieWrite 0 5 0 0x8000 (markerBytes 7 0x60 0) with | (_, .ok ()) => true | _ => false) = true ∧
    (let t := after (.stepCommit 0 2 0) (after (.load 0 2 0) (transferLab 0x60))
     ((List.range 8).map fun i => t.byte (homeBase + 0x8000 + i)) = [0, 0, 0, 0x60, 7, 0, 0, 0] ∧ (t.ctx 0 2).st = .idle) := by decide +kernel

/-- Context 2 of die 0 in the state `st`. -/
def ctxIn (st : CtxState) (x : Sctx := {}) : State :=
  withDev labM fun d => { d with sch := [(0, { ctx := [(2, { x with st := st, ent := ringEntry 0 })] })] }

theorem test_ctx_refused : (ctxIn .idle).reaches 0 (CD_SCH_CCMD 0) = true ∧
    (∀ i ∈ [Instr.ctxSuspend 0 0 2, .ctxSave 0 0 2, .ctxRelease 0 0 2, .ctxResume 0 0 2, .ctxAbort 0 0 2],
      (after i (ctxIn .idle)).rd (CD_SCH_STAT_CMDREF 0) = 1 ∧ sameRegs (ctxIn .idle) (after i (ctxIn .idle)) [CD_SCH_STAT 0] = true) := by decide +kernel

theorem test_ctx_suspend_abort : ((after (.ctxSuspend 0 0 2) (ctxIn .running)).ctx 0 2).st = .stopping ∧
    ((after (.ctxSuspend 0 0 2) (ctxIn .gated)).ctx 0 2).reason = 2 ∧ ((after (.ctxAbort 0 0 2) (ctxIn .stopped)).ctx 0 2).st = .idle ∧
    (after (.ctxConfirm 0 0 2) (poke labM [(CD_SCH_RRAUD_ADOPTPEND 0, 3)])).rd (CD_SCH_RRAUD_ADOPTPEND 0) = 0 := by decide +kernel

/-- The running context suspends: STOPPING, then SUSPENDED with its record. -/
def suspended : State := after (.restartRecordWrite 0 2) (after (.ctxSuspend 0 0 2) (ctxIn .running))

theorem test_restart_record : (let s := after (.ctxSuspend 0 0 2) (ctxIn .running)
      (s.ctx 0 2).inFlight = [] ∧ (s.dev.sch.at 0).freeSlot.isSome = true ∧ (s.ctx 0 2).reason = 2) ∧
    (suspended.ctx 0 2).st = .suspended ∧ (suspended.dev.sch.at 0).recs.length = 1 ∧
    ((after (.restartRecordWrite 0 2) (ctxIn .stopping { reason := 1, fcode := 0x22 })).ctx 0 2).st = .stopped ∧
    (after (.restartRecordWrite 0 2) (ctxIn .stopping { reason := 1, fcode := 0x22 })).rd (CD_SCH_CFLT_FCODE 0 2) = 0x22 := by decide +kernel

/-- SAVE writes the partition and the record; RELEASE then frees the context, RESUME runs it again. -/
def smallSuspended : State :=
  withDev suspended fun d => { d with sch := d.sch.upd 0 fun x => { x with ctx := x.ctx.upd 2 fun y => { y with ent := y.ent.take 0x34 ++ leBytes 4 64 ++ y.ent.drop 0x38 } } }

theorem test_ctx_save : ((smallSuspended.dev.sch.at 0).recOf 2).isSome = true ∧
    ((after (.ctxSave 0 0 2) (store smallSuspended (stagingKey 0) [0xC3])).ctx 0 2).saved = true ∧
    (after (.ctxSave 0 0 2) (store smallSuspended (stagingKey 0) [0xC3])).byte (homeBase + 0x9000 + 256) = 0xC3 := by decide +kernel

theorem test_ctx_release_resume :
    (let s := withDev suspended fun d => { d with sch := d.sch.upd 0 fun x => { x with ctx := x.ctx.upd 2 fun y => { y with saved := true } } }
     (s.ctx 0 2).resumable = true ∧ ((after (.ctxRelease 0 0 2) s).ctx 0 2).st = .idle ∧
     ((after (.ctxRelease 0 0 2) s).dev.sch.at 0).recs.map (·.released) = [true]) ∧
    ((after (.ctxResume 0 0 2) suspended).ctx 0 2).st = .running ∧ (suspended.ctx 0 2).next < (suspended.ctx 0 2).nsteps := by decide +kernel

/-- The die's switches: RTFENCE and QFENCE only by the steward, QOFF and PAIROFF by the cores too; the fence stops a real-time context. -/
theorem test_die_switches : labM.reaches 5 (CD_SCH_CTL 0) = true ∧ labM.reaches 5 (CD_BRD_QCTL 0) = true ∧ labM.reaches 5 (CD_STR_CTL 0) = true ∧
    (after (.rtfenceWrite 5 0 0xFFFFFFFF) labM).rd (CD_SCH_CTL_RTFENCE 0) = 0 ∧ (after (.rtfenceWrite 0x710 0 0xFFFFFFFF) labM).rd (CD_SCH_CTL_RTFENCE 0) = 1 ∧
    (after (.qfenceWrite 5 0 0xFF) labM).rd (CD_BRD_QCTL_QFENCE 0) = 0 ∧ (after (.qfenceWrite 0x710 0 0x0F) labM).word (CD_BRD_QCTL 0) = 0x0F ∧
    (after (.qoffWrite 5 0 0xFF) labM).rd (CD_BRD_QCTL_QOFF 0) = 15 ∧ (after (.pairoffWrite 5 0 0xF) labM).rd (CD_STR_CTL_PAIROFF 0) = 15 := by decide +kernel

theorem test_rtfence_stops :
    (let s := poke (ctxIn .running) [(CD_SCH_RCFG_RT 0 2, 1)]
     let t := after (.rtfenceWrite 0x710 0 0xFFFFFFFF) s
     (t.ctx 0 2).st = .stopping ∧ bit (t.ctx 0 2).reason 2 = true) := by decide +kernel
/-! Sequences, accounting and rates. -/

/-- The builder's round of file 07: the template's shape, and its three placed entries. -/
def tplExample : Tpl := ⟨List.replicate 0x38 0 ++ leBytes 2 4 ++ leBytes 2 6 ++ leBytes 2 3 ++ leBytes 2 0 ++ leBytes 2 1 ++ leBytes 2 256 ++ [8, 9] ++ List.replicate 58 0⟩
def placedExample : List Placed := [⟨3, 2, 0, 41, 0, false⟩, ⟨7, 3, 0, 65, 0, false⟩, ⟨9, 8, 6, 225, 0, false⟩]

theorem test_round_list : (gens tplExample placedExample).length = 35 ∧
    (((gens tplExample placedExample).getD 10 ⟨0, 0, none, none, 0, 0, 0, 1⟩).header tplExample 10 0 8).2 = 0x18 ∧
    (((gens tplExample placedExample).getD 31 ⟨0, 0, none, none, 0, 0, 0, 1⟩).header tplExample 31 0 8).2 = 0x7F8 ∧
    ((gens tplExample placedExample).getD 27 ⟨0, 0, none, none, 0, 0, 0, 1⟩).page = some 7 := by decide +kernel

/-- JOIN of a FREE entry, LEAVE refused for one that is not ACTIVE, ADOPT of a FREE one. -/
theorem test_sequence_moves : lab.reaches 0 (CD_SEQ_CMD 0) = true ∧ lab.rd (CD_SEQ_AUD0_NFREE 0) = 256 ∧
    (let t := after (.join 0 0 200) lab
     t.rd (CD_SEQ_ENT0_STATE 0 200) = 1 ∧ t.rd (CD_SEQ_AUD0_NFREE 0) = 255 ∧ t.rd (CD_SEQ_AUD1_NJOIN 0) = 1 ∧ t.dev = lab.dev ∧
     sameRegs lab t [CD_SEQ_ENT0 0 200, CD_SEQ_AUD0 0, CD_SEQ_AUD1 0] = true) ∧
    (let t := after (.leave 0 0 200) lab
     t.rd (CD_SEQ_STAT_CMDREF 0) = 1 ∧ sameRegs lab t [CD_SEQ_STAT 0] = true) ∧
    (let t := after (.adopt 0 0 255) lab
     t.rd (CD_SEQ_ENT0_STATE 0 255) = 2 ∧ t.rd (CD_SEQ_AUD0_NACTIVE 0) = 1 ∧ t.rd (CD_SEQ_AUD2_SEQPEND 0) = 1) ∧
    (let s := poke lab [(CD_SEQ_ENT0_STATE 0 7, 2), (CD_SEQ_AUD0_NACTIVE 0, 1), (CD_SEQ_AUD0_NFREE 0, 255)]
     (after (.leave 0 0 7) s).rd (CD_SEQ_ENT0_STATE 0 7) = 3 ∧ (after (.leave 0 0 7) s).rd (CD_SEQ_AUD1_NLEAVE 0) = 1) ∧
    (after (.fresh 0 0 9) lab).rd (CD_SEQ_ENT0_FRESH 0 9) = 1 ∧
    (after (.seqConfirm 0 0) (poke lab [(CD_SEQ_AUD2_SEQPEND 0, 5)])).rd (CD_SEQ_AUD2_SEQPEND 0) = 0 := by decide +kernel

theorem test_take_give_kick :
    ((after (.take 0 1) lab).dev.sch.at 1).takePend = true ∧ (after (.take 0 1) (poke lab [(CD_SEQ_STAT_MODE 1, 1)])).rd (CD_SEQ_STAT_CMDREF 1) = 1 ∧
    (after (.give 0 1) lab).rd (CD_SEQ_STAT_CMDREF 1) = 1 ∧
    ((after (.give 0 1) (poke lab [(CD_SEQ_STAT_MODE 1, 1), (CD_SEQ_STAT_RBUSY 1, 1)])).dev.sch.at 1).givePend = true ∧
    (after (.give 0 1) (poke lab [(CD_SEQ_STAT_MODE 1, 1)])).rd (CD_SEQ_STAT_HANDBACK 1) = 1 ∧
    (let s := withDev lab fun d => { d with sch := [(1, { kicks := 4 })] }
     ((after (.kick 0 1 1) s).dev.sch.at 1).kicks = 0 ∧ ((after (.builderTick 1) s).dev.sch.at 1).kicks = 5 ∧
     (after (.kick 0 1 1) (poke s [(CD_SEQ_STAT_MODE 1, 1)])).rd (CD_SEQ_STAT_CMDREF 1) = 1) := by decide +kernel

theorem test_takeover :
    (let s := poke (withDev lab fun d => { d with sch := [(1, { kicks := 4, ctx := [(0, { st := .running })] })] })
       [(CD_SEQ_CTL_BEN 1, 1), (CD_SEQ_CTL_KICKTO 1, 4), (CD_SEQ_CTL_RING 1, 0)]
     let t := after (.takeover 1) s
     t.rd (CD_SEQ_STAT_MODE 1) = 1 ∧ t.rd (CD_SEQ_STAT_TAKEOVER 1) = 1 ∧ t.rd (CD_SEQ_AUD2_OVRCNT 1) = 1 ∧ sameMem s t = true) := by decide +kernel

/-- Two classes share a tick's energy by their steps, and the rest is idle energy (R224, R225). -/
theorem test_energy_tick :
    (let s := withDev lab fun d => { d with sch := [(0, { tickSteps := [(3, 1), (5, 2)] })] }
     let t := after (.energyTick (1000999 :: List.replicate 39 0)) s
     t.pair (CD_ACT_ENERGY_LO 0 3) = 333 ∧ t.pair (CD_ACT_ENERGY_LO 0 5) = 666 ∧ t.pair (CD_ACT_IDLE_LO 0) = 1 ∧ t.pair (CD_ACT_ETOT_LO 0) = 1000 ∧
     (t.dev.sch.at 0).residue.at 0 = 999) := by decide +kernel

/-- Floor hold and a rate window of 10,999 steps (R141, R143). -/
theorem test_rates : lab.reaches 0 (RTM_CTL (cdRtm 2)) = true ∧ (after (.holdWrite 0 2 1) lab).rd (RTM_CTL_HOLD (cdRtm 2)) = 1 ∧
    (let s := withDev lab fun d => { d with rtm := [(2, { last := 999990001 })] }
     let t := after (.rateWindow 2 10999) s
     s.on (rtmDom 2) = true ∧ s.now % 10000 = 0 ∧ t.rd (RTM_RATE_RATE (rtmOf 2)) = 1099 ∧ t.rd (RTM_RATE_VALID (rtmOf 2)) = 1 ∧
     t.rd (RTM_RMIN_RMIN (rtmOf 2)) = 1099 ∧ t.rd (RTM_STAT_ABOVE (rtmOf 2)) = 1) := by decide +kernel

/-- The last regulator of the list missed its guarantee. -/
theorem test_regulator_window :
    (let r := allRegs.getLast?.getD (0, 0)
     let s := pokeW lab [(REG_AUD r.1 r.2, 5), (REG_EFF r.1 r.2, 0x00640064)]
     let t := after (.regulatorWindow [(13, 7, false)]) s
     (allRegs.all fun r => t.word (REG_AUD r.1 r.2) == 0) = true ∧ t.rd (REG_STAT_MISS (regBlock 13) 7) = 1 ∧ t.dev.regNext = []) ∧
    (let s := pokeW lab [(REG_EFF (regBlock 0) 2, 0x00640064)]
     (after (.regulatorWindow [(0, 2, false)]) s).rd (REG_STAT_MISS (regBlock 0) 2) = 1) := by decide +kernel
/-! Registers. -/

/-- The addresses of R625's examples. -/
theorem test_addresses : CD_SEQ_ENT2 2 7 = 0x0060140620E8 ∧ LNK_MST (lnkBase 3) 5 = 0x0060170301A0 ∧ CD_ACT_BRD_LO 2 5 = 0x006014071140 ∧
    CD_ACT_CMD 2 = 0x006014070000 := by decide +kernel

/-- A write reaches a field under its class: W1C clears, RO stands, RW takes (R17). -/
theorem test_field_classes :
    (match (blockAt TB_CTL).bind (·.rowAt TB_STAT) with
     | none => false
     | some r =>
       let u := (Tx.start (poke lab [(TB_STAT_LOCKED, 1), (TB_STAT_LOCKLOST, 1)])).applyWrite r TB_STAT 0xFFFFFFFF
       decide (r.flds.Pairwise fun f g => f.hi < g.lo ∨ g.hi < f.lo) && u.rd TB_STAT_LOCKED == 1 && u.rd TB_STAT_LOCKLOST == 0) = true := by decide +kernel

theorem test_register_write : lab.reaches 0x710 TB_SYNCTO = true ∧ lab.reaches 5 (GLB_SCRATCH 1) = true ∧ lab.reaches 0x710 TB_CTL = true ∧
    (after (.registerWrite 0x710 (BitVec.ofNat 48 TB_SYNCTO) 4 0xABCD1234) lab).rd TB_SYNCTO_SYNCTO = 0x1234 ∧
    (after (.registerWrite 5 (BitVec.ofNat 48 (GLB_SCRATCH 1)) 4 0xABCD1234) lab).word (GLB_SCRATCH 1) = 0xABCD1234 ∧
    (after (.registerWrite 0x710 (BitVec.ofNat 48 TB_CTL) 4 0xFFFFFFFF) lab).rd TB_CTL_PTPPORT = 15 ∧
    sameRegs lab (after (.registerWrite 0x710 (BitVec.ofNat 48 TB_CTL) 4 0xFFFFFFFF) lab) [TB_CTL] = true := by decide +kernel

/-- A lock sets with what its write carries, and a second write changes nothing under it (R627). -/
theorem test_locks : lab.reaches 0x710 (lockRef 0).addr = true ∧ lab.reaches 0x710 (lockRef 1).addr = true ∧ lab.reaches 0x710 (lockRef 5).addr = true ∧
    (let v := BitVec.ofNat 32 (putBits (putBits 0 HD_DMAP_CFG_LOCSZ.hi HD_DMAP_CFG_LOCSZ.lo 3) HD_DMAP_CFG_LOCK.lo HD_DMAP_CFG_LOCK.lo 1)
     let t := after (.lockSet 0x710 1 v) lab
     t.rd HD_DMAP_CFG_LOCK = 1 ∧ t.rd HD_DMAP_CFG_LOCSZ = 3 ∧ (after (.lockSet 0x710 1 0) t).rd HD_DMAP_CFG_LOCSZ = 3) ∧
    ((List.finRange 6).all fun k => k == 2 || (after (.lockSet 0x710 k 0xFFFFFFFF) lab).rd (lockRef k) == 1) = true := by decide +kernel

/-- The shared counter of file 20: CD2's pair of class 5, as two cores and a debugger read it, and SNAP (R629, R630). -/
def counterLab (v : Nat) (l : Latch) : State :=
  withDev (pokeW (poke lab [(DBG_STAT_LEVEL, 1)]) [(0x006014071140, v % 2 ^ 32), (0x006014071144, v / 2 ^ 32)]) fun d => { d with latches := [(0x006014071140, l)] }

theorem test_shared_counter_latch :
    (let s := counterLab 0x1FFFFFFF0 {}
     let t := after (.lowWordRead 3 0x006014071140 4) s
     sent s t = [⟨"CFG", "DATA", [3, 0x006014071140, 0xFFFFFFF0]⟩] ∧ t.dev.latches.at 0x006014071140 = ⟨3, 1, true⟩) := by decide +kernel

theorem test_shared_counter_reads :
    (let s := counterLab 0x200000040 ⟨3, 1, true⟩
     sent s (after (.lowWordRead 9 0x006014071144 4) s) = [⟨"CFG", "DATA", [9, 0x006014071144, 2]⟩] ∧
     sent s (after (.lowWordRead 3 0x006014071144 4) s) = [⟨"CFG", "DATA", [3, 0x006014071144, 1]⟩] ∧
     sent s (after (.debugRead 0x006014071140 4) s) = [⟨"DEBUG", "DATA", [0x006014071140, 0x40]⟩]) := by decide +kernel

/-- SNAP of HD_GLB (R630). -/
theorem test_snap : lab.reaches 3 GLB_CMD = true ∧
    (let s := pokeW lab [(GLB_CNT, 0x00050007)]
     let t := after (.snap 3 (BitVec.ofNat 48 GLB_CMD)) s
     t.word GLB_CNT = 0 ∧ t.word (GLB_CNT + aliasOff) = 0x00050007 ∧ sameRegs s t [GLB_CNT, GLB_CNT + aliasOff] = true) := by decide +kernel

/-- A read of the time's low word latches the high word; a narrow read answers 0 and sets ACCERR (R12, R14). -/
theorem test_reads : lab.on domAON = true ∧ cfgMid 7 = true ∧
    (let s := { lab with now := 0x500000009 }
     let t := after (.lowWordRead 7 (BitVec.ofNat 48 TB_NOW_LO) 4) s
     sent s t = [⟨"CFG", "DATA", [7, TB_NOW_LO, 9]⟩] ∧ t.dev.latches.at TB_NOW_LO = ⟨7, 5, true⟩ ∧
     sent t (after (.lowWordRead 7 (BitVec.ofNat 48 TB_NOW_HI) 4) { t with now := 0x600000000 }) = [⟨"CFG", "DATA", [7, TB_NOW_HI, 5]⟩] ∧
     sent t (after (.lowWordRead 8 (BitVec.ofNat 48 TB_NOW_HI) 4) { t with now := 0x600000000 }) = [⟨"CFG", "DATA", [8, TB_NOW_HI, 6]⟩] ∧
     (after (.lowWordRead 7 (BitVec.ofNat 48 TB_NOW_LO) 2) s).rd TB_STAT_ACCERR = 1) := by decide +kernel

/-- A debug read of a poisoned line answers 0 and marks NOPEEK and POISON (R18). -/
theorem test_debug_poison :
    (let s := withDev (poke labM [(DBG_STAT_LEVEL, 1)]) fun d => { d with poison := [4] }
     (match (Tx.start s).physRead debugMid 0x100 8 with | .poison _ => true | _ => false) = true ∧
     (let t := after (.debugRead 0x100 8) s
      t.rd DBG_STAT_NOPEEK = 1 ∧ t.rd DBG_STAT_POISON = 1 ∧ sameRegs s t [DBG_STAT] = true ∧ sent s t = [⟨"DEBUG", "DATA", [0x100, 0]⟩])) := by decide +kernel
/-! Time. -/

/-- gPTP runs on port 3. -/
def ptpLab : State := poke lab [(TB_CTL_PTPEN, 1), (TB_CTL_PTPPORT, 3), (ETH_PSTAT_CFG 3, 1)]

theorem test_gptp_messages : (Tx.start ptpLab).ptpOn 3 = true ∧ (after (.sync 3 true 77 5 0) ptpLab).dev.ptp.sync = some (77, 1000000000) ∧
    (after (.announce 3 9) ptpLab).dev.ptp.gm = some 9 ∧
    (sent ptpLab (after (.pdelayReq 3 4) ptpLab)).map (·.kind) = ["PDELAY_RESP", "PDELAY_RESP_FOLLOW_UP"] ∧
    ((after (.pdelayResp 3 4 600) ptpLab).dev.ptp.pdelay.map fun p => (p.1, p.2.2)) = some (4, 600, 1000000000) ∧
    (let s := withDev ptpLab fun d => { d with ptp := { d.ptp with pdelay := some (4, 100, 250, 500) } }
     (after (.pdelayRespFollowUp 3 4 350) s).dev.ptp.delay = 150) := by decide +kernel

theorem test_sync_timeout :
    (let s := withDev (poke lab [(TB_STAT_LOCKED, 1), (TB_SYNCTO_SYNCTO, 400)]) fun d => { d with ptp := { d.ptp with last := 600000000 } }
     let t := after .syncTimeout s
     t.rd TB_STAT_LOCKED = 0 ∧ t.rd TB_STAT_LOCKLOST = 1 ∧ t.dev.ptp.frozen = true ∧ sameRegs s t [TB_STAT, IRQ_STAT] = true) := by decide +kernel

/-! The Shelf, the scratch partition and translation. -/

theorem test_shelf_init : lab.on (domSH 3 2) = true ∧
    (let s := store lab (shelfKey 3 2 0x3FFFFFF) [5]
     let t := after (.shelfInitDone 3 2) s
     bit (t.rd HD_SHF_STAT_READY) 11 = true ∧ bit (t.rd (BT_SHF_STAT_INIT 3)) 2 = true ∧ t.byte (shelfKey 3 2 0x3FFFFFF) = 0) := by decide +kernel

theorem test_shelf_scrub : (Tx.start labM).poisoned (shelfKey 1 0 64) = false ∧
    after (.shelfScrub 1 0 1 .clean) labM = labM ∧ (after (.shelfScrub 1 0 1 .corrected) labM).rd (BT_SHF_CECNT_CECNT 1) = 1 ∧
    (let t := after (.shelfScrub 1 0 1 .uncorrectable) labM
     t.rd (BT_SHF_UECNT_UECNT 1) = 1 ∧ t.rd (BT_SHF_ELOG_LINE 1) = 1 ∧ t.dev.poison = [shelfKey 1 0 64 / 64]) := by decide +kernel

/-- R246's partition grows to 8 ways and shrinks to none. -/
theorem test_scratch : lab.reaches 0 HD_SC_CTL = true ∧
    (let t := after (.scrwaysWrite 0 8) lab
     t.rd HD_SC_CTL_SCRWAYS = 8 ∧ t.rd HD_SC_STAT_CONV = 1 ∧ t.rd HD_SC_STAT_SCRACT = 0) ∧
    (after (.scrwaysWrite 0 9) lab).rd HD_SC_STAT_CMDREF = 1 ∧
    (let s := store (poke lab [(HD_SC_STAT_CONV, 1), (HD_SC_CTL_SCRWAYS, 8)]) (scrBase + 0x1FFFFFF) [3]
     let t := after .scratchConvDone s
     t.rd HD_SC_STAT_SCRACT = 8 ∧ t.rd HD_SC_STAT_CONVDONE = 1 ∧ t.byte (scrBase + 0x1FFFFFF) = 0) := by decide +kernel

theorem test_xlt_ctl : lab.reaches 0x710 (XLT_CTL (xltBase 2)) = true ∧ (after (.xltCtlWrite 0x710 2 0x0B) lab).word (XLT_CTL (xltBase 2)) = 0x0B ∧
    (let s := poke lab [(XLT_CTL_EN (xltBase 2), 1)]
     let t := after (.xltCtlWrite 0x710 2 0x0B) s
     t.rd (XLT_CTL_LOG2NDC (xltBase 2)) = 0 ∧ t.rd (XLT_STAT_CMDREF (xltBase 2)) = 1) := by decide +kernel

/-- A unit that holds two contexts, three translations and a locked entry. -/
def xltUnit : Xlt :=
  { dcs := [(3, {}), (4, {})]
    tlb := [⟨3, 0, 0, 0, true, true, true, true⟩, ⟨3, 0x1000, 0, 0, true, true, true, true⟩, ⟨4, 0, 0, 0, true, true, true, true⟩]
    locked := [⟨3, 0x2000, 0, 0, true, true, true, true⟩] }
def xltLab : State := withDev lab fun d => { d with xlt := [(1, xltUnit)] }

theorem test_xlt_inv : xltLab.reaches 0x710 (XLT_INV (xltBase 1)) = true ∧ (Tx.start xltLab).xltBusy 1 = false ∧
    ((after (.invDevctx 0x710 1 3 false) xltLab).dev.xlt.at 1).dcs.map (·.1) = [4] ∧
    ((after (.invTranslations 0x710 1 3 false) xltLab).dev.xlt.at 1).tlb.map (·.ctx) = [4] ∧
    ((after (.invAddress 0x710 1 3 false) xltLab).dev.xlt.at 1).tlb.map (·.va) = [0x1000, 0] ∧
    ((after (.invAll 0x710 1 false) xltLab).dev.xlt.at 1).locked.length = 1 ∧
    ((after (.invAllLocked 0x710 1 false) xltLab).dev.xlt.at 1).locked = [] ∧
    (after (.invAll 0x710 1 false) xltLab).rd (XLT_STAT_INVBUSY (xltBase 1)) = 1 ∧
    ((after (.invAll 0x710 4 true) xltLab).dev.xlt.at 1).tlb = [] ∧
    (after (.invDone 1) (poke xltLab [(XLT_STAT_INVBUSY (xltBase 1), 1)])).rd (XLT_STAT_INVBUSY (xltBase 1)) = 0 := by decide +kernel

theorem test_xlt_lock : xltLab.reaches 0x710 (XLT_LOCK (xltBase 1)) = true ∧
    (let s := pokeW xltLab [(XLT_LOCKVA_LO (xltBase 1), 0x2000)]
     ((after (.xltLock 0x710 1 3) s).dev.xlt.at 1).walk = some (3, 0x2000) ∧ (after (.xltLock 0x710 1 3) s).rd (XLT_STAT_LKBUSY (xltBase 1)) = 1 ∧
     ((after (.xltUnlock 0x710 1 3) s).dev.xlt.at 1).locked = []) ∧
    (let s := withDev xltLab fun d => { d with xlt := d.xlt.upd 1 fun x => { x with walk := some (3, 0x2000) } }
     (after (.lockWalkDone 1) s).rd (XLT_STAT_LKERR (xltBase 1)) = 1 ∧ ((after (.lockWalkDone 1) s).dev.xlt.at 1).walk = none) := by decide +kernel

/-! DMA. -/

theorem test_dma_doorbell : lab.reaches 3 (DMA_DB 15) = true ∧ (after (.dmaDoorbell 3 15 15) lab).rd (DMA_PTR_DBTAIL 15) = 15 ∧
    (after (.dmaDoorbell 3 15 15) lab).rd (DMA_CST_STATE 15) = 1 ∧ (after (.dmaDoorbell 3 15 16) lab).rd DMA_STAT_CMDREF = 1 := by decide +kernel

theorem test_dma_resume_abort : lab.reaches 3 DMA_CMD = true ∧ (after (.dmaResume 3 2) lab).rd DMA_STAT_CMDREF = 1 ∧
    (let s := withDev (poke lab [(DMA_CST_STATE 2, 2), (DMA_PTR_DBTAIL 2, 3), (DMA_PTR_HEAD 2, 1)]) fun d => { d with dma := [(2, { stopped := true })] }
     (after (.dmaResume 3 2) s).rd (DMA_CST_STATE 2) = 1 ∧ ((after (.dmaResume 3 2) s).dev.dma.at 2).stopped = false ∧
     (after (.dmaAbort 3 2) s).rd (DMA_PTR_HEAD 2) = 3 ∧ (after (.dmaAbort 3 2) s).rd (DMA_CST_STATE 2) = 0) := by decide +kernel

/-- Descriptor 1 of channel 2 waits; its fetch and the write of a record, by whichever identity the channel has. -/
def dmaLab : State :=
  store (poke (pokeW labM [(DMA_RBASE_LO 2, 0x70000), (DMA_CBASE_LO 2, 0x71000)]) [(DMA_PTR_HEAD 2, 1), (DMA_PTR_DBTAIL 2, 2), (DMA_CST_STATE 2, 1)])
    (homeBase + 0x70020) (leBytes 8 0x72000 ++ leBytes 8 0x73000 ++ leBytes 4 64 ++ leBytes 12 0)

theorem test_dma_read : ∀ m : Fin 256, (match ((Tx.start dmaLab).vRead 4 0 (0x100 + m.val) 0x70020 32).2 with
    | .ok bs => dmaFields bs == some (0x72000, 0x73000, 64, 0)
    | _ => false) = true := by decide +kernel

theorem test_dma_fetch : (Tx.start dmaLab).dmaPending 2 = 1 ∧ (match ((Tx.start dmaLab).vRead 4 0 (dmaMid 2) 0x70020 32).2 with
    | .ok bs => dmaFields bs == some (0x72000, 0x73000, 64, 0)
    | _ => false) = true :=
  ⟨by decide +kernel, test_dma_read ⟨Config.dmaMid 2 % 256, Nat.mod_lt _ (by decide)⟩⟩

theorem test_dma_write : ∀ m : Fin 256, ∀ x ∈ [({ idx := 1, len := 64, moved := 64 } : DmaD), { idx := 1, len := 64, fail := some (1, 0, 13, 0x72000) }],
    ((Tx.start dmaLab).vWrite 4 0 (0x100 + m.val) 0x71010 (dmaRecord x)).2.isOk = true := by decide +kernel

theorem test_dma_record : ((Tx.start dmaLab).dmaMove 2 { idx := 1, len := 64, moved := 64 } 3).2.moved = 64 ∧
    ((Tx.start dmaLab).vWrite 4 0 (dmaMid 2) 0x71010 (dmaRecord { idx := 1, len := 64, moved := 64 })).2.isOk = true :=
  ⟨by decide +kernel, test_dma_write ⟨Config.dmaMid 2 % 256, Nat.mod_lt _ (by decide)⟩ _ (by decide)⟩
/-! The LPDDR5X memory. -/

/-- The example of R267. -/
theorem test_dram_place :
    (match dramLocate 1 0x000345678000 with | some l => l.mc < 8 && l.q < 64 | none => false) = true ∧
    (match dramLocate 1 0x00034567A9C0 with
     | some l => [l.mc, l.ch, l.rk, l.u, l.line, l.q, l.bank, l.row, l.slot] == [2, 3, 1, 20825, 39, 23, 7, 2776, 22]
     | none => false) = true ∧ dramAddr 1 23 20825 39 = 0x00034567A9C0 ∧
    dramLocate 1 (dramAddr 1 63 491519 63) = some ⟨7, 3, 1, 491519, 63⟩ ∧ dramLocate 15 (dramAddr 15 0 0 0) = some ⟨0, 0, 0, 0, 0⟩ := by decide +kernel

/-- A controller with one write or one read of the line at 0x40 waiting. -/
def mcLab (kind : EntKind) (data : Option (List Byte)) : State :=
  withDev labM fun d => { d with mc := [(0, { queue := [⟨kind, ⟨0x40, 2, 3, false, data⟩⟩] })] }

theorem test_controller_write : (Tx.start (mcLab .port (some (List.replicate 64 9)))).mcRuns 0 = true ∧
    ((Tx.start (mcLab .port (some (List.replicate 64 9)))).mcNext 0).isSome = true ∧
    (let s := mcLab .port (some (List.replicate 64 9))
     let t := after (.controllerIssue 0 [] .clean) s
     t.byte 0x40 = 9 ∧ t.byte 0x7F = 9 ∧ t.byte 0x80 = 0 ∧ (t.dev.mc.at 0).queue = [] ∧ sent s t = [⟨"MC", "WRITTEN", [0, 2, 0x40]⟩] ∧
     sameRegs s t [HD_MC_QAUD 0] = true) := by decide +kernel

theorem test_controller_read : (Tx.start (mcLab .port none)).poisoned 0x40 = false ∧
    (let s := store (mcLab .port none) 0x41 [7]
     let t := after (.controllerIssue 0 [] .clean) s
     (sent s t).map (fun o => o.data.take 6) = [[0, 2, 0x40, 0, 0, 7]] ∧ sameMem s t = true) := by decide +kernel

/-- A request of rank 7 goes before an older one (R273). -/
theorem test_controller_rank :
    (let s := withDev labM fun d => { d with mc := [(0, { queue := [⟨.port, ⟨0x40, 0, 3, false, none⟩⟩, ⟨.port, ⟨0x80, 1, 7, false, none⟩⟩] })] }
     ((Tx.start s).mcNext 0).map (fun e => e.req.arank) = some 7) := by decide +kernel

theorem test_writebacks : ((after (.correctedWriteback 0 .clean) (mcLab .fixed none)).dev.mc.at 0).queue = [] ∧
    ((after (.poisonWriteback 0 .clean) (mcLab .poison none)).dev.mc.at 0).queue = [] := by decide +kernel

theorem test_dram_scrub : (after (.dramScrub 0 0 1 .clean) (poke labM [(HD_MC_CTL_SCRUBH 0, 24)])) = poke labM [(HD_MC_CTL_SCRUBH 0, 24)] ∧
    (let s := poke labM [(HD_MC_CTL_SCRUBH 0, 24)]
     s.rd HD_DMAP_CFG_LOCSZ = 1 ∧
     (after (.dramScrub 0 0 1 .corrected) s).rd (HD_MC_CECNT_COUNT 0) = 1 ∧ (after (.dramScrub 0 0 1 .uncorrectable) s).dev.poison = [134217729] ∧
     (after (.dramScrub 0 0 1 .wrongAddress) s).rd (HD_MC_ELOG_TYPE 0) = 2) := by decide +kernel

theorem test_page_close :
    (let s := withDev labM fun d => { d with mc := [(2, { banks := [(33, ⟨8, 0⟩)] })] }
     ((s.dev.mc.at 2).banks.at 33).row ≠ 0 ∧ s.rd (HD_MC_CTL_PGIDLE 2) * 10 ≤ s.now ∧ ((after (.pageIdleClose 2 2 1) s).dev.mc.at 2).banks.at 33 = ⟨0, 0⟩) := by
  decide +kernel

/-- Refresh debt: at 8 it stays 8, a forced refresh pays one interval, a round's last bank pays one (R276). -/
theorem test_refresh :
    (let s := pokeW labM [(HD_MC_REFAUD 1, 0x800)]
     bits ((after (.refreshDebtTick 1 2) s).word (HD_MC_REFAUD 1)) 11 8 = 8 ∧ bits ((after (.refreshDebtTick 1 1) s).word (HD_MC_REFAUD 1)) 7 4 = 1 ∧
     bits ((after (.refab 1 2) s).word (HD_MC_REFAUD 1)) 11 8 = 7 ∧ ((after (.refab 1 2) s).dev.mc.at 1).owed.at 2 = true ∧
     (after (.refab 1 2) s).rd (HD_MC_FREFCNT_COUNT 1) = 1) ∧
    (let s := withDev (pokeW labM [(HD_MC_REFAUD 1, 0x200)]) fun d => { d with mc := [(1, { round := [(2, 0x7FFF)] })] }
     (Tx.start s).refBank 1 2 = some 15 ∧ bits ((after (.refpb 1 2) s).word (HD_MC_REFAUD 1)) 11 8 = 1 ∧ ((after (.refpb 1 2) s).dev.mc.at 1).round.at 2 = 0) ∧
    (after (.mr4Read 1 2 true) labM).rd (HD_MC_STAT_RMULT 1) = 2 := by decide +kernel

theorem test_self_refresh :
    (let s := poke labM [(HD_MC_CTL_SRIDLE 3, 5)]
     (Tx.start s).mcIdle 3 = true ∧ ((after (.selfRefreshEntry 3 false) s).dev.mc.at 3).entering = some 1000000000) ∧
    (let s := withDev labM fun d => { d with mc := [(3, { entering := some 999999979 })] }
     (after (.selfRefreshEntry 3 true) s).rd (HD_MC_STAT_SR 3) = 1 ∧ (after (.selfRefreshEntry 3 true) s).rd (HD_MC_SRCNT_COUNT 3) = 1) ∧
    (let s := poke labM [(HD_MC_STAT_SR 3, 1)]
     (after (.selfRefreshExit 3 ⟨0, 0, 0, false, none⟩) s).rd (HD_MC_STAT_SR 3) = 0 ∧
     ((after (.selfRefreshExit 3 ⟨0, 0, 0, false, none⟩) s).dev.mc.at 3).wake = 1000000288) := by decide +kernel

theorem test_dram_init : (after (.dramInitDone 8) lab).rd (HD_MC_STAT_READY 8) = 1 ∧
    (let s := store lab 0x40 [3]
     (Tx.start s).servedBy 0 0x40 = true ∧ (after (.dramInitDone 0) s).byte 0x40 = 0 ∧ (after (.dramInitDone 1) s).byte 0x40 = 3) := by decide +kernel

/-- A migration starts on spare 0, a second one waits, its last chunk completes the copy, and its end routes the rank-channel (R283 to R287). -/
theorem test_migrate : labM.reaches 0x710 HD_DMAP_MCMD = true ∧
    (let t := after (.migrate 0x710 9) labM
     t.rd HD_DMAP_MSTAT_STATE = 1 ∧ t.rd HD_DMAP_MSTAT_SRC = 9 ∧ t.rd HD_DMAP_MSTAT_SPARE = 0) ∧
    (let s := poke labM [(HD_DMAP_MSTAT_STATE, 1), (HD_DMAP_MSTAT_SRC, 9)]
     bit ((after (.migrate 0x710 63) s).pair HD_DMAP_PEND_LO) 63 = true ∧ (after (.migrate 0x710 9) s).rd HD_DMAP_MSTAT_CMDREF = 1) := by decide +kernel

theorem test_migration_chunk :
    (let s := poke labM [(HD_DMAP_MSTAT_STATE, 2), (HD_DMAP_MSTAT_SRC, 9), (HD_DMAP_MPTR_PTR, 491519)]
     let t := after (.migrationChunk [] []) s
     t.rd HD_DMAP_MPTR_PTR = 491520 ∧ t.rd HD_DMAP_MSTAT_STATE = 3) ∧
    (let s := store (poke labM [(HD_DMAP_MSTAT_STATE, 2), (HD_DMAP_MSTAT_SRC, 9), (HD_DMAP_MPTR_PTR, 7)]) (dramAddr 1 9 7 63) [4]
     (after (.migrationChunk [] []) s).byte (dramAddr 1 9 7 63) = 0) := by decide +kernel

theorem test_retire :
    (let s := poke labM [(HD_DMAP_MSTAT_STATE, 3), (HD_DMAP_MSTAT_SRC, 9), (HD_DMAP_MSTAT_SPARE, 5)]
     let t := after .retireDone s
     t.rd HD_DMAP_MSTAT_STATE = 0 ∧ t.rd HD_DMAP_MSTAT_MDONE = 1 ∧ (Tx.start t).rmap 9 = 13) := by decide +kernel

/-! Links. -/

/-- Module 3 of the hub, and its peer on tile 0, in one state. -/
def linkIn (st : Nat) (s : State := labM) : State :=
  poke s ((lnkEnds 4 3).map fun p => (LNK_MST_STATE (lnkBase p.1) p.2, st))

theorem test_train_retrain : lab.reaches 0x710 (LNK_CMD (lnkBase 4)) = true ∧
    ((lnkEnds 4 3).map fun p => (after (.train 0x710 4 3) lab).rd (LNK_MST_STATE (lnkBase p.1) p.2)) = [1, 1] ∧
    (after (.train 0x710 4 3) (linkIn 2)).rd (LNK_STAT_CMDREF (lnkBase 4)) = 1 ∧
    ((lnkEnds 4 3).map fun p => (after (.retrain 0x710 4 3) (linkIn 2)).rd (LNK_MST_STATE (lnkBase p.1) p.2)) = [3, 3] := by decide +kernel

/-- Ten lanes below EYEMIN leave eight: the module is an X8. -/
theorem test_link_trained :
    (let s := poke (linkIn 1) [(LNK_CTL_EYEMIN (lnkBase 4), 10)]
     let t := after (.linkTrained 4 3 (List.replicate 10 9 ++ List.replicate 8 10) (List.replicate 18 63)) s
     t.rd (LNK_LMAP_BAD (lnkBase 4) 3) = 0x3FF ∧ ((lnkEnds 4 3).map fun p => (t.rd (LNK_MST_STATE (lnkBase p.1) p.2), t.rd (LNK_MST_X8 (lnkBase p.1) p.2))) = [(2, 1), (2, 1)] ∧
     (t.dev.link.at (lnkKey 4 3)).weight = 1) ∧
    (let t := after (.linkTrained 4 3 (List.replicate 18 63) (List.replicate 18 63)) (linkIn 4)
     t.rd (LNK_MST_STATE (lnkBase 4) 3) = 2 ∧ t.rd (LNK_MST_X8 (lnkBase 4) 3) = 0 ∧ (t.dev.link.at (lnkKey 4 3)).weight = 2) := by decide +kernel

/-- The third measurement in a row below EYEMIN. -/
theorem test_eye :
    (let s := withDev (poke (linkIn 2) [(LNK_CTL_EYEMIN (lnkBase 4), 10)]) fun d => { d with link := [(lnkKey 4 3, { low := [(0, 2), (1, 1)] })] }
     let t := after (.eyeMeasurement 4 3 ([9, 9] ++ List.replicate 16 10)) s
     t.rd (LNK_LMAP_BAD (lnkBase 4) 3) = 1 ∧ t.rd (LNK_MST_MARG (lnkBase 4) 3) = 1 ∧ t.rd (LNK_MST_STATE (lnkBase 4) 3) = 3 ∧
     (t.dev.link.at (lnkKey 4 3)).low.at 1 = 2 ∧ t.rd (LNK_EYE_MARGIN (lnkBase 4) 3) = 9) := by decide +kernel

theorem test_lane_loss_drained :
    (let t := after (.laneLockLoss 4 3 17) (linkIn 2)
     t.rd (LNK_LMAP_BAD (lnkBase 4) 3) = 0x20000 ∧ t.rd (LNK_MST_STATE (lnkBase 4) 3) = 3) ∧
    ((lnkEnds 4 3).all fun p => ((linkIn 3).dev.link.at (lnkKey p.1 p.2)).unacked.isEmpty) = true ∧
    (after (.linkDrained 4 3) (linkIn 3)).rd (LNK_MST_STATE (lnkBase 4) 3) = 4 := by decide +kernel

/-- A guest window over the first MiB, for the identities 0xC10 to 0xC1F. -/
def fwLab : State :=
  poke (pokeW labM [(FW_WBASE_LO 2, 0), (FW_WLIM_LO 2, 0xFF000)])
    [(FW_WCFG_EN 2, 1), (FW_WCFG_R 2, 1), (FW_WCFG_MIDLO 2, 0x10), (FW_WCFG_MIDHI 2, 0x1F), (FW_CTL_GRANK, 3)]

theorem test_guest : fwLab.on domGS = true ∧ (Tx.start fwLab).fwFull = false ∧
    (match (Tx.start fwLab).firewall 0xC20 0x40 64 false with | .error w => w | _ => 0) = 5 ∧
    (match (Tx.start fwLab).firewall 0xC10 0xFFFC0 64 false with | .ok w => w | _ => 9) = 2 ∧
    (match (Tx.start fwLab).firewall 0xC10 0xFFFC0 128 false with | .error w => w | _ => 9) = 3 ∧
    (let t := after (.guestRequest 0xC20 0x40 7 0 none) fwLab
     t.rd FW_STAT_DENY = 1 ∧ t.rd FW_DENYCNT_COUNT = 1 ∧ t.word FW_DLOG_LO = 0x40 ∧ t.word FW_DLOG_HI = 5 * 2 ^ 16 + 0xC20 * 2 ^ 20 ∧
     sameRegs fwLab t [FW_STAT, FW_DENYCNT, FW_DLOG_LO, FW_DLOG_HI, IRQ_STAT] = true) ∧
    (let t := after (.guestRequest 0xC10 0x40 7 1 none) fwLab
     t.dev.fwUsed.at 2 = 2 ∧ (sent fwLab t).map (fun o => o.data.take 4) = [[0xC10, 0x40, 0, 3]]) := by decide +kernel

/-- The 128 bits of an entry with its CRC. -/
def ent (x : LEntry) (flits : List Byte := []) : BitVec 128 := BitVec.ofNat 128 (leNat ((x.bytes flits).take 16))

/-- The hub's module 3, carrying. -/
def hub3 : State := withDev (linkIn 2) fun d => { d with link := (lnkEnds 4 3).map fun p => (lnkKey p.1 p.2, { weight := 2 }) }

/-- A write of a line of the scratch partition by compute die 0, its read, and an identity that may not come that way. -/
theorem test_link_request :
    (let s := poke hub3 [(HD_SC_STAT_SCRACT, 8)]
     let x : LEntry := { typ := 2, mid := 0x201, addr := scrBase, tag := 5 }
     (Tx.start s).linkTakes 4 3 (ent x (List.replicate 64 9)).toNat (List.replicate 64 9) = true ∧ ((Tx.start s).linkOf 4 3).stuck = [] ∧
     (let t := after (.wr 4 3 (ent x (List.replicate 64 9)) (List.replicate 64 9)) s
      t.byte scrBase = 9 ∧ (t.dev.link.at (lnkKey 4 3)).rxSeq = 1 ∧ (t.dev.link.at (lnkKey 4 3)).stuck = []) ∧
     (let y : LEntry := { typ := 2, mid := 0x401, addr := scrBase, tag := 5 }
      (Tx.start s).midOk 4 3 0x401 scrBase = false ∧
      (after (.wr 4 3 (ent y (List.replicate 64 9)) (List.replicate 64 9)) s).rd (LNK_STAT_MIDERR (lnkBase 4)) = 1)) := by decide +kernel

theorem test_link_answer :
    (let x : LEntry := { typ := 6, mid := 0x701, tag := 5 }
     homeOf 0x701 = 4 ∧ (Tx.start hub3).linkTakes 4 3 (ent x).toNat [] = true ∧
     (sent hub3 (after (.ack 4 3 (ent x)) hub3)).any (fun o => o == ⟨"LINK", "ANSWER", [0x701, 5, 0]⟩) = true) := by decide +kernel

theorem test_crc_failure : (Tx.start hub3).receives 4 3 = true ∧ entryOk 0 [] = false ∧
    ((after (.crcFailure 4 3 0 [] [] false) hub3).dev.link.at (lnkKey 4 3)).drop = true := by decide +kernel

/-- Three entries sent and not acknowledged: ACK and NAK name the second. -/
def sent3 : State := withDev hub3 fun d => { d with link := [(lnkKey 4 3, { unacked := [(7, [1]), (8, [2]), (9, [3])] })] }
/-- A control entry. -/
def ctl (sub seq payload : Nat) : BitVec 128 := ent { typ := 8, xf := sub * 2 ^ 10, seq := seq, addr := payload }

theorem test_link_control :
    ((after (.lctlAck 4 3 (ctl 0 8 0)) sent3).dev.link.at (lnkKey 4 3)).unacked.map (·.1) = [9] ∧
    (let t := after (.nak 4 3 (ctl 1 8 0)) sent3
     (t.dev.link.at (lnkKey 4 3)).unacked.map (·.1) = [8, 9] ∧ t.rd (LNK_RETRY_COUNT (lnkBase 4) 3) = 1 ∧ ((sent sent3 t).map fun o => o.data.length) = [18, 3, 3]) ∧
    (after (.credit 4 3 (ctl 2 0 0x85)) (pokeW hub3 [(LNK_CRAUD0 (lnkBase 4) 3, 0x3F02)])).word (LNK_CRAUD0 (lnkBase 4) 3) = 0x4007 ∧
    (let t := after (.lctlSync 4 3 (ctl 3 0 0x85)) (withDev hub3 fun d => { d with link := [(lnkKey 4 3, { drop := true })] })
     (t.dev.link.at (lnkKey 4 3)).drop = false ∧ t.word (LNK_CRAUD0 (lnkBase 4) 3) = 0x0105) ∧
    ((after (.bundle 4 3 (ctl 4 0 0x1B)) hub3).dev.link.at (lnkKey 4 ((lnkBundle 4 3).1))).rxWeight = 3 := by decide +kernel

/-! Ingest and ego-motion. -/

/-- A descriptor with its CRC. -/
def desc (body : List Byte) : List Byte :=
  let b := (body ++ List.replicate (0x3C - body.length) 0).take 0x3C
  b ++ leBytes 4 (crc32c b)

/-- Four streams: CSI port 5, channel 1, type 0x2B, two lines of 8 bytes, ring 9, offset 100; lidar port 2, UDP 2368, one point; IMU port 1 with
one command byte; CAN port 3, identity 0x123 of 11 bits, wheel 0. -/
def streamTable : List (List Byte) :=
  [desc ([1, 5, 9, 0] ++ leBytes 4 100 ++ [1, 0x2B, 2, 1] ++ leBytes 4 8),
   desc ([2, 2, 10, 1] ++ leBytes 4 0 ++ [0, 0] ++ leBytes 2 2368 ++ leBytes 2 0 ++ leBytes 2 1 ++ leBytes 2 6 ++ leBytes 2 0 ++ leBytes 2 2 ++ leBytes 2 4 ++
     leBytes 2 0xFFFF ++ leBytes 2 0xFFFF ++ [1, 0, 2]),
   desc ([3, 1, 11, 2] ++ leBytes 4 0 ++ [1, 14, 0, 20, 0x55] ++ [0, 0, 0, 0, 2, 4, 6, 8, 10, 0, 0xFF] ++ leBytes 4 0 ++ leBytes 4 0x3F800000 ++ leBytes 4 0x3F800000),
   desc ([4, 3, 12, 3] ++ leBytes 4 0 ++ leBytes 4 0x123 ++ leBytes 4 0x7FF ++ leBytes 2 0 ++ [16, 0, 0x10, 1] ++ leBytes 2 0 ++ leBytes 4 0x3F800000)]
def tableBytes : List Byte := (streamTable ++ List.replicate 60 (desc [])).flatten

/-- The ingest runs with that table, its rings in tile 0's home. -/
def ingLab : State :=
  withDev (pokeW (poke labM ([(ING_STAT_RUN, 1), (ING_CTL_EN, 1), (ETH_PSTAT_CFG 2, 1), (CAN_CTL_EN 3, 1)] ++
      [9, 10, 11, 12].flatMap fun r => [(ING_RCFG_LOG2N r, 4), (ING_RCFG_LOG2SLOT r, 7)]))
      ([9, 10, 11, 12].map fun r => (ING_RBASE_LO r, 0x10000 * r)))
    fun d => { d with ing := { d.ing with table := streamTable ++ List.replicate 60 (desc []) } }

theorem test_stream_table : labM.reaches 0 ING_CTL = true ∧ tableOk (streamTable ++ List.replicate 60 (desc [])) = true ∧
    tableOk (streamTable ++ [desc ([1, 5, 9, 0] ++ leBytes 4 100 ++ [1, 0x2B, 2, 1] ++ leBytes 4 8)] ++ List.replicate 59 (desc [])) = false := by decide +kernel

/-- Sixty-four descriptors of zeros have no CRC; clearing EN stops the streams. -/
theorem test_ing_enable : (after (.ingEnable 0 1) labM).rd ING_STAT_CFGERR = 1 ∧ (after (.ingEnable 0 1) labM).rd ING_STAT_RUN = 0 ∧
    (after (.ingEnable 0 0) ingLab).rd ING_STAT_RUN = 0 ∧ (after (.ingEnable 0 0) ingLab).dev.ing.table = [] := by decide +kernel

/-- A record of a camera group: stamp, sequence, stream, flags, length, lines, and what it holds (R338, R342). -/
theorem test_csi2 :
    (let t := after (.frameStart 5 1) ingLab
     t.dev.ing.start.at 21 = some 999999900) ∧
    (let s := withDev ingLab fun d => { d with ing := { d.ing with start := [(21, some 999999000)] } }
     let t := after (.csi2LongPacket 5 1 0x2B [1, 2, 3] .clean true) s
     (t.dev.ing.group.at 0).count = 1 ∧ (t.dev.ing.group.at 0).lines = [1, 2, 3] ∧ t.rd (ING_RPTR_WR 9) = 0 ∧
     (after (.frameEnd 5 1) t).rd (ING_RPTR_WR 9) = 1 ∧ (after (.frameEnd 5 1) t).byte (homeBase + 0x90000 + 14) = 66) ∧
    (after (.csi2LongPacket 5 2 0x2B [1] .clean true) ingLab).dev.ing.discard.at 5 = 1 := by decide +kernel

theorem test_csi2_record :
    (let s := withDev ingLab fun d => { d with ing := { d.ing with group := [(0, { count := 1, lines := [7], stamp := 5 })] } }
     let t := after (.csi2LongPacket 5 1 0x2B [1, 2, 3, 4, 5, 6, 7, 8, 9] .clean false) s
     t.dev.ing.group.at 0 = {} ∧ (List.range 9).map (fun i => t.byte (homeBase + 0x90000 + 32 + i)) = [7, 1, 2, 3, 4, 5, 6, 7, 8] ∧
     [t.byte (homeBase + 0x90000), t.byte (homeBase + 0x90000 + 14), t.byte (homeBase + 0x90000 + 16), t.byte (homeBase + 0x90000 + 20)] = [5, 33, 9, 2]) := by decide +kernel

/-- A lidar point of three 16-bit coordinates at SCL 1: 2, −2 and 256 (R339). -/
theorem test_lidar :
    (let t := after (.lidarFrame 2 false 2368 true false [4, 0, 0xFC, 0xFF, 0, 2]) ingLab
     t.rd (ING_RPTR_WR 10) = 1 ∧ (List.range 12).map (fun i => t.byte (homeBase + 0xA0000 + 32 + i)) = [0, 0, 0, 0x40, 0, 0, 0, 0xC0, 0, 0, 0x80, 0x43]) ∧
    (after (.lidarFrame 2 false 9 true false [0]) ingLab).rd (ETH_PCNT_RXDROP 2) = 1 := by decide +kernel

/-- An IMU read: its edge, an edge too soon, and the six channels of the read (R340). -/
theorem test_imu :
    (let t := after (.imuDataReady 1) ingLab
     (t.dev.ing.imu.at 1).reading = some 1000000000 ∧ (sent ingLab t) = [⟨"SPI", "COMMAND", [1, 0x55]⟩] ∧
     (after (.imuDataReady 1) t).rd ING_OVERRUN_COUNT = 1) ∧
    (let s := withDev ingLab fun d => { d with ing := { d.ing with imu := [(1, ⟨some 77, 78⟩)] } }
     let t := after (.spiReadDone 1 [1, 0, 2, 0, 3, 0, 4, 0, 5, 0, 0xFF, 0xFF, 0, 0]) s
     t.rd (ING_RPTR_WR 11) = 1 ∧ t.dev.ego.samples.map (·.stamp) = [77]) := by decide +kernel

theorem test_can_record :
    (let t := after (.canFdFrame 3 0x123 false 8 [0x34, 0x12]) ingLab
     t.rd (ING_RPTR_WR 12) = 1 ∧ ((t.dev.ego.sigs.at 0).map fun g => (g.stamp, g.value)) = [(1000000000, 0x4591A000)] ∧
     (after (.canFdFrame 3 0x124 false 8 [0x34, 0x12]) ingLab) = ingLab) := by decide +kernel

/-- Takes and releases (R343, R345). -/
theorem test_takes : labM.reaches 0 (ING_TAKE 9) = true ∧ labM.reaches 0 (ING_RCONS 9) = true ∧
    (let s := poke ingLab [(ING_RPTR_WR 9, 2), (ING_RPTR_TK 9, 65533), (ING_RCONS_RD 9, 65530), (ING_RCFG_FLUSH 9, 10)]
     (after (.ingTake 0 9 5) s).rd (ING_TAKEST_N 9) = 5 ∧ (after (.ingTake 0 9 5) s).rd (ING_RPTR_TK 9) = 2 ∧
     (after (.ingTake 0 9 6) s).dev.ing.take.at 9 = some (6, 1000000000) ∧ (after (.ingTake 0 9 0) s).rd ING_STAT_CMDREF = 1 ∧
     (after (.rconsWrite 0 9 65533) s).rd (ING_RCONS_RD 9) = 65533 ∧ (after (.rconsWrite 0 9 65534) s).rd ING_STAT_CMDREF = 1) ∧
    (let s := withDev (poke ingLab [(ING_RPTR_WR 9, 2), (ING_RCFG_FLUSH 9, 10)]) fun d => { d with ing := { d.ing with take := [(9, some (6, 999990000))] } }
     (after (.takeFlush 9) s).rd (ING_TAKEST_N 9) = 2 ∧ (after (.takeFlush 9) s).dev.ing.take.at 9 = none) := by decide +kernel

theorem test_ego :
    labM.reaches 0 EGO_CTL = true ∧ labM.reaches 0 EGO_BIASCMD = true ∧ (after (.egoEnable 0 1) labM).dev.ego.next = 998 ∧
    (after (.biasApply 0) labM).dev.ego.biasRead = true ∧
    (let s := withDev (poke labM [(EGO_CTL_EN, 1)]) fun d => { d with ego := { d.ego with next := 998 } }
     let t := after .egoTick s
     t.pair EGO_TICK_LO = 998 ∧ t.rd EGO_STAT_DR = 1 ∧ t.rd EGO_STAT_INVALID = 1 ∧ t.rd EGO_STAT_XINV = 1 ∧ t.dev.ego.poses.map (·.t) = [998000000]) := by decide +kernel

/-- A tick with one IMU at rest but for 1 rad/s about z, and one wheel at 10 m/s: 10 mm and 1 mrad (R348). -/
theorem test_ego_moves :
    (let s := withDev (poke labM [(EGO_CTL_EN, 1)]) fun d => { d with ego := { d.ego with
        next := 998, samples := [⟨0, 997500000, [0, 0, 0x3F800000, 0, 0, 0]⟩], sigs := [(0, [⟨997000000, 0x41200000, true⟩])] } }
     let t := after .egoTick s
     t.rd EGO_STAT_INVALID = 0 ∧ t.rd EGO_STAT_IMU0 = 1 ∧ t.rd EGO_STAT_WHL = 1 ∧
     (t.dev.ego.poses.map fun p => (p.v, p.x)) = [(0x41200000, 167772)]) := by decide +kernel

/-- The bias record (R352). -/
theorem test_bias :
    (let r : List Byte := leBytes 8 7 ++ List.replicate 0x30 0 ++ leBytes 4 0x3C23D70A ++ List.replicate (0x7C - 0x3C) 0
     let s := withDev (pokeW (store labM (homeBase + 0x2000) (r ++ leBytes 4 (crc32c r))) [(EGO_BIAS_LO, (homeBase + 0x2000) % 2 ^ 32), (EGO_BIAS_LO + 4, (homeBase + 0x2000) / 2 ^ 32)])
       fun d => { d with ego := { d.ego with biasRead := true } }
     (after .biasRecordRead s).word EGO_BIASSEQ = 7 ∧ (after .biasRecordRead s).dev.ego.wc.take 2 = [0x3C23D70A, 0] ∧
     (after .biasRecordRead (store s (homeBase + 0x2000) [8])).rd EGO_STAT_BIASERR = 1) := by decide +kernel

/-! Alignment. -/

/-- A job's descriptor. -/
def jobDesc (op flags ring first tc dst count dstlen src2 : Nat) : List Byte :=
  leBytes 1 op ++ leBytes 1 flags ++ leBytes 2 ring ++ leBytes 4 first ++ leBytes 8 tc ++ leBytes 8 dst ++ leBytes 4 count ++ leBytes 4 dstlen ++ leBytes 8 src2 ++
    leBytes 4 0x3E99999A ++ leBytes 4 0x40900000 ++ leBytes 1 2 ++ leBytes 15 0

/-- The worked example of file 11: the lidar's calibration, the newest pose, and its record in slot 0 of ring 10; one job at HEAD. -/
def alnLab (j : List Byte) : State :=
  let n : List Int := [0, 0, 0, 5000000, 0, 2800000]
  let pose : Pose := { t := 1000000000, v := 0x41C80000, alon := 0xBF000000, k := 1000 }
  let rec_ := leBytes 8 1000000000 ++ leBytes 4 0 ++ leBytes 2 1 ++ leBytes 2 0 ++ leBytes 4 16 ++ leBytes 2 1 ++ leBytes 2 0 ++ leBytes 8 0 ++
    leBytes 4 0x42200000 ++ leBytes 4 0xC0600000 ++ leBytes 4 0x3ECCCCCD ++ leBytes 4 0
  withDev (store (store (poke (pokeW ingLab [(ALN_RBASE_LO, 0x200000), (ALN_CBASE_LO, 0x210000), (ALN_GRID_LO, 0x7FFFFFC0)]) [(ALN_CTL_EN, 1), (ALN_PTR_DBTAIL, 1), (ALN_CFG_LOG2SZ, 4)])
      (homeBase + 0xA0000) rec_) (homeBase + 0x200000) j)
    fun d => { d with ego := { d.ego with poses := [pose] }, aln := { d.aln with cal := List.replicate 64 { n := n, a := n, tgt := n, lrot := 500, ltrn := 10 } } }

/-- The point's coordinates and flags as POINTS writes them. -/
theorem test_points :
    (let s := alnLab (jobDesc 1 0 10 0 1008000000 0x220000 1 64 0)
     let t := after .points s
     (List.range 4).map (fun i => fld ((List.range 16).map fun k => t.byte (homeBase + 0x220020 + k)) (4 * i) 4) = [0x42333337, 0xC0600000, 0x404CCCCD, 0x20100] ∧
     t.rd ALN_PTR_HEAD = 1 ∧ (List.range 8).map (fun k => t.byte (homeBase + 0x210000 + k)) = [0, 0, 0, 0, 1, 0, 0, 0]) := by decide +kernel

/-- Beyond 20 ms the point is stale (R354). -/
theorem test_points_stale :
    (let s := alnLab (jobDesc 1 0 10 0 1020500000 0x220000 1 64 0)
     let t := after .points s
     fld ((List.range 4).map fun k => t.byte (homeBase + 0x220020 + k)) 0 4 = 0x7FC00000 ∧ (List.range 8).map (fun k => t.byte (homeBase + 0x210000 + k)) = [0, 0, 1, 0, 1, 0, 0, 0] ∧
     (poseAt s.dev.ego.poses 1020000000).2.1 = .extrap) := by decide +kernel

theorem test_points_small : (after .points (alnLab (jobDesc 1 0 10 0 1008000000 0x220000 1 47 0))).rd ALN_STAT_HALT = 1 ∧
    (after .points (alnLab (jobDesc 1 0 10 0 1008000000 0x220000 1 47 0))).byte (homeBase + 0x210000) = 5 := by decide +kernel

theorem test_camxf :
    (let t := after .camxf (alnLab (jobDesc 2 0 10 0 1008000000 0x220000 1 64 0))
     t.rd ALN_PTR_HEAD = 1 ∧ fld ((List.range 16).map fun k => t.byte (homeBase + 0x220010 + k)) 0 4 = 0x3F800000) := by decide +kernel

/-- The point's cell and its ray (R362, R363). -/
theorem test_grid_point :
    (match gridPoint [0x40A00000, 0, 0x40333333] [0x42333337, 0xC0600000, 0x404CCCCD] 0x3E99999A 0x40900000 with
     | (hits, free) => hits == [cellNo 307 242] && free.length == 158 && free.contains (cellNo 228 249)) = true ∧
    gridByte [cellNo 307 242, cellNo 307 242] [] 2 (4 * (307 * 128 + 60)) = 0x20 ∧ 0x40 + 307 * 128 + 60 = 0x99FC := by decide +kernel

/-- A grid job whose record has nowhere to go: its buffer is read, its end is an error. -/
theorem test_grid :
    (let s := store (store (alnLab (jobDesc 3 0 0 0 1008000000 0 1 0 0x230000)) (homeBase + 0x230000) (leBytes 8 0x240000)) (homeBase + 0x240000) (leBytes 8 1008000000)
     (match (Tx.start s).gridBuffers 0x230000 1008000000 1 with | (_, .ok bufs) => bufs.map (·.length) | _ => []) = [32] ∧
     (match (Tx.start s).jobGrid (jobDesc 3 0 0 0 1008000000 0 1 0 0x230000) with | (u, e) => u.rd ALN_GSEQ_SEQ == 1 && e.status == 1 && !e.held) = true) := by
  decide +kernel

/-- A target record beyond the limits is clamped, and its record is taken (R360). -/
theorem test_calset :
    (let body := leBytes 2 1 ++ leBytes 2 0 ++ leBytes 4 600 ++ leBytes 4 0 ++ leBytes 4 0 ++ leBytes 4 5000003 ++ leBytes 4 0 ++ leBytes 4 2800000
     let s := store (alnLab (jobDesc 4 0 1 0 0 0 1 0 0x230000)) (homeBase + 0x230000) (body ++ leBytes 4 (crc32c body))
     let t := after .calset s
     t.rd ALN_PTR_HEAD = 1 ∧ (t.dev.aln.cal.getD 1 {}).tgt = [500, 0, 0, 5000003, 0, 2800000] ∧ t.rd ALN_STAT_LIMHIT = 1) := by decide +kernel

theorem test_cal_step :
    (let s := withDev (alnLab []) fun d => { d with aln := { d.aln with cal := d.aln.cal.map fun c => { c with tgt := [500, -30, 0, 5000003, 0, 2800000] } } }
     s.now % 1000000 = 0 ∧ ((after .calStep s).dev.aln.cal.getD 63 {}).a = [50, -30, 0, 5000001, 0, 2800000] ∧ (after .calStep s).dev.aln.calseq = 1) := by decide +kernel

theorem test_aln_commands : labM.reaches 0 ALN_CTL = true ∧ labM.reaches 0 ALN_DB = true ∧ labM.reaches 0 ALN_CMD = true ∧
    (after (.alnEnable 0 1) labM).dev.aln.cal.length = 64 ∧ (after (.alnDoorbell 0 15) labM).rd ALN_PTR_DBTAIL = 15 ∧ (after (.alnDoorbell 0 16) labM).rd ALN_STAT_CMDREF = 1 ∧
    (after (.alnResume 0) labM).rd ALN_STAT_CMDREF = 1 ∧ (after (.alnAbort 0) (alnLab [])).rd ALN_PTR_HEAD = 1 := by decide +kernel

/-! Trajectories. -/

/-- `body` with its CRC behind, at byte 0x17C. -/
def planDesc (c : List Byte) : List Byte :=
  let b := (c ++ List.replicate 0x17C 0).take 0x17C
  b ++ leBytes 4 (crc32c b)

/-- A descriptor of `ncand` candidates: TD 50 ms, TRES 200 µs, one disc; the terms' parameters of file 12's example. -/
def examplePlan (ncand gridVa pathVa profVa candVa flags : Nat) : List Byte :=
  planDesc (leBytes 4 7 ++ leBytes 4 3 ++ leBytes 8 11 ++ leBytes 8 999000000 ++ leBytes 8 gridVa ++ leBytes 8 0 ++ leBytes 8 pathVa ++ leBytes 8 profVa ++ leBytes 8 candVa ++
    leBytes 8 0x300000 ++ leBytes 2 ncand ++ leBytes 2 1 ++ leBytes 2 1 ++ leBytes 2 0 ++ leBytes 4 50000 ++ leBytes 2 200 ++ leBytes 1 flags ++ leBytes 1 0 ++
    leBytes 2 5624 ++ leBytes 2 128 ++ leBytes 4 51200 ++ leBytes 2 6144 ++ leBytes 2 20000 ++ leBytes 2 0 ++ leBytes 2 1000 ++ leBytes 2 30000 ++ leBytes 2 30000 ++
    leBytes 2 64 ++ leBytes 2 128 ++ leBytes 2 64 ++ leBytes 2 16 ++ leBytes 2 4 ++ leBytes 2 2 ++ leBytes 2 8 ++ leBytes 2 32 ++ leBytes 2 64 ++ leBytes 2 16 ++
    [1, 1, 0, 0] ++ leBytes 12 0 ++ leBytes 2 0 ++ leBytes 2 0 ++ leBytes 2 10 ++ leBytes 2 0)

theorem test_plan : (examplePlan 64 0 0 0 0 2).length = 384 ∧ planOk (examplePlan 64 0 0 0 0 2) = true ∧ planOk (examplePlan 0 0 0 0 0 2) = false := by decide +kernel

/-- Path 37 and profile 81 of file 12's example: its curvature, its stations, and what T0 to T5 then are. -/
theorem test_terms :
    (let path := leBytes 2 512 ++ leBytes 2 0 ++ leBytes 4 200 ++ leBytes 56 0 ++ (List.range 512).flatMap fun k =>
       leBytes 14 0 ++ leBytes 2 (if 40 ≤ k ∧ k < 160 then 64 else if 160 ≤ k ∧ k < 280 then 0xFFC0 else 0)
     let prof := (List.range 64).flatMap fun s => leBytes 4 (704 * (s + 1) + (s + 1) ^ 2)
     let c : Cycle := { desc := some (examplePlan 1 0 0 0 0 0), paths := path, profs := prof, cands := leBytes 4 0 }
     (c.eval [] 0).terms.take 6 = [128, 1024, 4096, 0, 5616, 200] ∧
     ([64, 16, 4, 2, 8, 32, 64, 16].zip [128, 1024, 4096, 0, 5616, 200, 0, 265]).foldl (fun a p => a + p.1 * p.2) 0 = 96528) := by decide +kernel

/-- The discs and the gap of the example's samples 0 and 63. -/
theorem test_discs : lookup 465 0 = some (157, 256) ∧ fieldE [157 * 512 + 244] 157 256 = 192 ∧ discGaps [157 * 512 + 244] [(465, 0, 99)] = [70] ∧
    pairs [(11602, 225, 101)] [(11300, 224, 170)] = [(91205, 271)] ∧ snTable 2048 = 0x2D413CCD := by decide +kernel

/-- A cycle with its descriptor read, at work on `a`, which ends now. -/
def trjLab (a : TrjAct) (f : Cycle → Cycle := id) : State :=
  withDev (poke (pokeW labM [(TRJ_RES_LO, 0x280000)]) [(TRJ_CTL_EN, 1), (TRJ_CFG_LOG2DN, 4)]) fun d => { d with trj := { d.trj with
    cycle := some (f { start := 999990000, desc := some (examplePlan 64 0 0 0 0 0), act := a, due := 6000000000, told := 999000000 }) } }

theorem test_trj_commands : labM.reaches 0 TRJ_CTL = true ∧ labM.reaches 0 TRJ_CMD = true ∧ labM.reaches 0 TRJ_DDB = true ∧
    (after (.trjEnable 0 0x32000073) labM).word TRJ_CTL = 0x32000073 ∧ (after (.start 0) labM).rd TRJ_STAT_CMDREF = 1 ∧ (after (.trjAbort 0) labM).rd TRJ_STAT_CMDREF = 1 ∧
    (after (.trjAbort 0) (trjLab .field)).dev.trj.cycle.map (·.act) = some .reduce ∧
    (after (.deltaDoorbell 0 15) labM).rd TRJ_DPTR_DBTAIL = 15 ∧ (after (.deltaDoorbell 0 16) labM).rd TRJ_STAT_CMDREF = 1 := by decide +kernel

/-- START reads the descriptor; a bad one is a fault with its record. -/
theorem test_trj_start :
    (let s := pokeW (poke labM [(TRJ_CTL_EN, 1)]) [(TRJ_PLAN_LO, 0x290000)]
     let ok := after (.start 0) (store s (homeBase + 0x290000) (examplePlan 64 0 0 0 0 0))
     (ok.dev.trj.cycle.map fun c => (c.start, c.told, c.act)) = some (1000000000, 999000000, .load) ∧ ok.rd TRJ_STAT_STATE = 1 ∧
     (after (.start 0) s).rd TRJ_FLT_CODE = 1 ∧ (after (.start 0) s).rd TRJ_STAT_STATE = 3) := by decide +kernel

/-- The first wave, a repair wave's end, STOP and the reduction. -/
theorem test_trj_waves :
    ((after .distanceFieldDone (trjLab .field)).dev.trj.cycle.map fun c => (c.act, c.due)) = some (.wave (List.range 64) false, 6000000000 + 5 * (2048 + 64 * 40)) ∧
    (let t := after .waveEnd (trjLab (.wave [3, 5] true) fun c => { c with dirty := [3, 5, 9] })
     (t.dev.trj.cycle.map fun c => (c.dirty, c.ndone, c.act)) = some ([9], 2, .wave [9] true)) ∧
    (trjLab .field).dev.trj.cycle.map (·.stop) = some (6 * (999990000 + 49800000)) ∧
    (let s := trjLab .field fun c => { c with start := 950000000 }
     ((after .trjStop s).dev.trj.cycle.map fun c => (c.act, c.due)) = some (.reduce, 6 * 999800000 + 10240)) ∧
    ((after .reductionDone (trjLab .reduce)).rd TRJ_STAT_STATE) = 3 := by decide +kernel

/-- A batch's end: the completed candidates that its tile's word names join those still dirty (R388). -/
theorem test_trj_delta :
    (let b : Delta := { grid := [2], applied := 1, told := 5, skipped := 1, bad := 2, upto := 4, changed := [0] }
     let s := store (poke (trjLab (.delta b) fun c => { c with results := [(3, some {}), (9, some {})], dirty := [2, 70] }) [(TRJ_DPTR_DBTAIL, 4)]) (homeBase + 0x300000) [8]
     let t := after .deltaApplyDone s
     t.rd TRJ_DPTR_HEAD = 4 ∧ t.rd TRJ_CNT1_DSKIP = 1 ∧ t.rd TRJ_CNT1_DERR = 2 ∧
     (t.dev.trj.cycle.map fun c => (c.dirty, c.ndelta, c.told, c.ndone)) = some ([2, 3, 70], 1, 5, 1)) := by decide +kernel

/-- The cells strictly between origin and point, at most 255 of them, inside the grid (R363). -/
theorem test_ray : rayCells 1 1 3 2 = [2 * 512 + 2] ∧ rayCells 0 0 0 0 = [] ∧ (rayCells 0 0 400 0).length = 255 ∧
    rayCells 2 0 (-2) 0 = [512, 0] := by decide +kernel

/-- The least cost, then the lower index (R385). -/
theorem test_best : ([(4817, some (⟨true, [], 96528⟩ : CandRes)), (9553, some ⟨true, [], 96528⟩)].map (·.1)).Pairwise (· < ·) ∧
    (({ results := [(3, some ⟨false, [], 1⟩), (4817, some ⟨true, [], 96528⟩), (9553, some ⟨true, [], 96528⟩)] } : Cycle).best).map (·.1) = some 4817 ∧
    (({ results := [(3, some ⟨false, [], 1⟩), (4, none)] } : Cycle).best) = none := by decide +kernel

/-- Publication, both releases, and the discard at RELTO (R392). -/
theorem test_records_out :
    (let r := mkRecord [] 1 0 1000000000 3 1 2 0 77 [] 0 0 []
     let s := poke (trjLab (.publish r)) [(TRJ_CTL_EGREN, 1)]
     let t := after .publicationComplete s
     t.dev.trj.cycle = none ∧ t.rd TRJ_SEQ_SEQ = 1 ∧ t.rd TRJ_STAT_CUT = 1 ∧ t.rd TRJ_STAT_NOVAL = 0 ∧ t.dev.trj.egress.map (·.seq) = [1] ∧
     (List.range 4).map (fun i => t.byte (homeBase + 0x280800 + i)) = [0x31, 0x4A, 0x52, 0x54]) ∧
    (let s := withDev (poke labM [(CLP_STAT_GATEA, 1), (CLP_STAT_GATEB, 1), (TRJ_CTL_EPORT, 5)]) fun d => { d with trj := { d.trj with egress := [{ seq := 1, pub := 999500000, bytes := [7], relA := true, relB := true }] } }
     (after .egressSend s).dev.trj.egress = [] ∧ (sent s (after .egressSend s)).map (·.data) = [[5, 0, 0x8100, 0xE000, 0x88B5, 7]] ∧
     (after .releaseTimeout (poke s [(TRJ_CTL_RELTO, 5)])).rd TRJ_CNT0_RELDROPCNT = 1 ∧ after .releaseTimeout (poke s [(TRJ_CTL_RELTO, 6)]) = poke s [(TRJ_CTL_RELTO, 6)]) := by
  decide +kernel

/-- The tables load from memory: one path of two stations, a grid and a profile of zeros (R374 to R376). -/
theorem test_trj_load :
    (let c : Cycle := { start := 999990000, desc := some (examplePlan 64 0x500000 0x400000 0x420000 0x430000 0), act := .load, told := 999000000 }
     let s := withDev (store labM (homeBase + 0x400000) [2]) fun d => { d with trj := { d.trj with cycle := some c } }
     ((after .planLoadDone s).dev.trj.cycle.map fun c => (c.act, c.due)) = some (.field, 6000000000 + 5 * 65536)) := by decide +kernel

/-! The hub's side of the Cleats. -/

theorem test_discarded : lab.on domAON = true ∧ (after (.serialFrameDiscarded true 1 0) lab).rd (clpDrop 1) = 1 ∧
    (let s := withDev lab fun d => { d with cleat := [(1, { linkLost := true })] }
     s.cleatRuns 1 = true ∧ ((after (.serialFrameDiscarded false 1 0) s).dev.cleat.at 1).badfrm = 1) := by decide +kernel

theorem test_release :
    (let s := withDev lab fun d => { d with trj := { d.trj with egress := [{ seq := 7 }, { seq := 8 }] } }
     (after (.release 1 8) s).dev.trj.egress.map (fun e => (e.relA, e.relB)) = [(false, false), (false, true)] ∧ (after (.release 1 8) s).rd (clpLink 1) = 1 ∧
     (after (.refuse 1 8 0x14 0) s).dev = s.dev) := by decide +kernel

theorem test_status : goes (.status 0 (List.replicate 4096 7)) lab = true ∧ (List.replicate 4096 (7 : Byte)).length = 4096 ∧ (blockAt (mirBase 0)).isSome = true := by
  decide +kernel

/-- The second Cleat's vote expels the die (R426). -/
theorem test_votes :
    (let s := poke lab [(clpDie 1 2, 1)]
     (after (.vote 0 0 2 1 0) lab).rd (clpDie 0 2) = 1 ∧ bit (after (.vote 0 0 2 1 0) lab).dev.expelled 2 = false ∧
     bit (after (.vote 0 0 2 1 0) s).dev.expelled 2 = true ∧ (after (.vote 1 0 2 0 0) s).rd (clpDie 1 2) = 0 ∧
     (after (.vote 1 0 2 0 0) (withDev s fun d => { d with expelled := 4 })).rd (clpDie 1 2) = 1) := by decide +kernel

theorem test_rtfence :
    (let s := withDev (poke lab [(clpDie 1 2, 1), (CD_SCH_RCFG_RT 2 3, 1)]) fun d => { d with clp := { d.clp with voteAt := [(10, 980000001)] }, sch := [(2, { ctx := [(3, { st := .running })] })] }
     (Tx.start s).dieOn 2 = true ∧ (after (.rtfenceSet 2) s).rd (CD_SCH_CTL_RTFENCE 2) = 1 ∧ ((after (.rtfenceSet 2) s).ctx 2 3).st ≠ .running) := by decide +kernel

theorem test_cleat_event :
    (let t := after (.event 0 (List.replicate 32 7)) lab
     t.dev.log = lab.dev.log.takes 1000000000 (List.replicate 32 7) ∧ lab.dev.log ≠ t.dev.log) := by decide +kernel

/-- A relay is of this module or goes to it, whichever it is. -/
theorem test_relay : goes (.relay 0 3 [1]) lab = true ∧ ((0 : Fin 4).val / 2 = modid ∨ (3 : Fin 4).val / 2 = modid) :=
  ⟨by decide +kernel, by unfold modid; show 0 = _ ∨ 1 = _; omega⟩

theorem test_summary_send :
    (let t := after .summarySend lab
     (sent lab t).map (fun o => (o.port, o.kind, o.data.length)) = [("CLEAT-A", "SUMMARY", 273), ("CLEAT-B", "SUMMARY", 273)] ∧ t.dev.clp.summary = 1000000001) := by decide +kernel

theorem test_clp_ring : labM.reaches 0 CLP_DB = true ∧ labM.reaches 0 CLP_CMD = true ∧ labM.reaches 0 CLP_HB = true ∧
    (after (.clpDoorbell 0 15) labM).rd CLP_PTR_DBTAIL = 15 ∧ (after (.clpDoorbell 0 16) labM).rd CLP_STAT_CMDREF = 1 ∧
    (after (.clpResume 0) labM).rd CLP_STAT_CMDREF = 1 ∧ (after (.clpAbort 0) (poke labM [(CLP_PTR_DBTAIL, 3)])).rd CLP_PTR_HEAD = 3 ∧
    (sent labM (after (.clpHb 0 0x85) labM)).map (fun o => (o.kind, o.data.take 2)) = [("HB", [0, 5]), ("HB", [0, 5])] := by decide +kernel

/-- One request waits, whose certificate has 5,000 bytes. -/
def clpLab (op : Byte) : State :=
  store (poke (pokeW labM [(CLP_RBASE_LO, 0x50000)]) [(CLP_CTL_EN, 1), (CLP_PTR_DBTAIL, 1)]) (homeBase + 0x50000) ([op, 9] ++ leBytes 2 0x1234 ++ leBytes 4 100 ++ leBytes 8 0x60000)

theorem test_requests :
    (sent (clpLab 2) (after .revoke (clpLab 2))).map (·.kind) = ["REQUEST", "REQUEST", "CERTEND", "CERTEND"] ∧ (after .revoke (clpLab 2)).rd CLP_PTR_HEAD = 1 ∧
    (sent (clpLab 1) (after .admitTask (clpLab 1))).map (fun o => (o.kind, o.data.length)) =
      [("REQUEST", 65), ("REQUEST", 65), ("CERT", 101), ("CERT", 101), ("CERTEND", 9), ("CERTEND", 9)] := by decide +kernel

/-! The Cleats. -/

/-- Parameters: the position limit of the first sample, 1 m; the age budget of class 0; task 0 a heartbeat of 10 ms within 1 ms, task 1 a list 77 of
period 100 ms, 5 ms due, with a budget of 500 µs. -/
def spbBytes : List Byte :=
  List.replicate 0x60 0 ++ leBytes 4 64 ++ List.replicate (0x990 - 0x64) 0 ++ leBytes 8 50000000 ++ List.replicate (0x9D0 - 0x998) 0 ++
    ([1, 0, 0, 0] ++ leBytes 4 0 ++ leBytes 4 10000 ++ leBytes 4 1000 ++ List.replicate 16 0) ++
    ([2, 2, 0, 0] ++ leBytes 4 77 ++ leBytes 4 100000 ++ leBytes 4 0 ++ leBytes 4 500 ++ leBytes 4 5000 ++ leBytes 4 0 ++ leBytes 4 0)

/-- Cleat A at one second, its parameters valid, at rest. -/
def clBase : Cleat :=
  { st := .ready, ct := 1000000000, spb := some spbBytes, basis := some (999000000, 999000000), sums := [(999000000, 999000000)], qualified := true
    hist := [(1, [(999990000, 0), (899990000, 0)]), (2, [(999990000, 0)])], canin := [] }
def clLab (f : Cleat → Cleat := id) : State := withDev lab fun d => { d with cleat := [(0, f clBase)] }
/-- Cleat A after a command. -/
def clAfter (c : Instr) (s : State) : Cleat := (after c s).dev.cleat.at 0

theorem test_cleat_summary : (clLab.cleatRuns 0) = true ∧ clLab.inSeq 0 5 = true ∧
    (clAfter (.summary 0 1000000000 5 1000000000 2 (List.replicate 64 0)) (clLab fun x => { x with gates := 2 })).basis = some (1000000000, 1000000000) ∧
    (clAfter (.summary 0 1000000000 5 1000010001 2 (List.replicate 64 0)) (clLab fun x => { x with gates := 2 })).reason = 0x34 ∧
    (clAfter (.summary 0 1000000000 5 1000000000 0 (List.replicate 64 0)) (clLab fun x => { x with gates := 2, st := .engaged })).st = .stopping := by decide +kernel

/-- A record of a vehicle at rest at 0.99999 s, TOLD 0.999 s, SEQ 5, as R390 lays it out: it is accepted where a grid stands, and refused for its format
with one byte changed. -/
def restRecord (magic : Byte) : List Byte :=
  [magic, 74, 82, 84, 5, 0, 0, 0, 192, 135, 139, 59, 0, 0, 0, 0, 120, 182, 154, 59, 0, 0, 0, 0, 240, 162, 154, 59, 0, 0, 0, 0,
    3, 0, 0, 0, 64, 0, 0, 0, 0, 0, 0, 0, 4, 0, 0, 0, 0, 0, 0, 0, 0, 0, 0, 0, 0, 0, 0, 0, 0, 0, 0, 0,
    0, 0, 0, 0, 0, 0, 0, 0, 0, 0, 0, 0, 0, 0, 0, 0, 0, 0, 0, 0, 0, 0, 0, 0, 0, 0, 0, 0, 0, 0, 0, 0,
    0, 0, 0, 0, 0, 0, 0, 0, 0, 0, 0, 0, 0, 0, 0, 0, 0, 0, 0, 0, 0, 0, 0, 0, 0, 0, 0, 0, 99, 154, 125, 21] ++ List.replicate 1024 0
def restGrid : List Byte := leBytes 8 0 ++ leBytes 8 999990000

theorem test_record_checks : (restRecord 0x31).length = 1152 ∧
    (let x := (clLab fun x => { x with pair := { x.pair with view := .follower } }).cleatHears 0 0 5
     let codes (r : List Byte) (x : Cleat) := ((Tx.start clLab).firstRefusal (x.recordChecks r x.conv none ++ x.gridChecks r x.conv)).2
     codes (restRecord 0x31) { x with grid := some restGrid } = none ∧ codes (restRecord 0x32) x = some (1, 0xFF)) := by decide +kernel

/-- A refused record stops an engaged Cleat. -/
theorem test_result_refused :
    (let y := clAfter (.resultFrame 0 0 5 (restRecord 0x32)) (clLab fun x => { x with st := .engaged })
     y.st = .stopping ∧ y.reason = 1 ∧ y.run = 0 ∧ y.refuse = 0x01FF0001) := by decide +kernel

theorem test_grid_frame : (clAfter (.gridFrame 0 0 5 (List.replicate 67648 0)) clLab).refuse = 0x40FF0001 := by decide +kernel

theorem test_notices :
    (clAfter (.notice 0 0 5 1 2 0 0 0 0) clLab).vote = 4 ∧ (clAfter (.notice 0 0 5 0x0A 2 0 0 0 0) clLab).degraded = true ∧
    (clAfter (.notice 0 0 5 0x0F 0 0 0 0 0) clLab).poseBad = true ∧ (clAfter (.notice 0 0 5 0x0B 2 0 0 0 0) clLab).gone = 4 ∧
    (clAfter (.notice 0 0 5 0x13 2 0 0 0 0) (clLab fun x => { x with st := .engaged })).st = .stopping ∧
    (let y := clAfter (.notice 0 0 5 5 2 0 0 77 9) (clLab fun x => { x with tasks := [(1, { budget := some 400000000 })] })
     clBase.rtTask 77 = some 1 ∧ (y.tasks.at 1).run = some (9, 1000000000) ∧ (y.tasks.at 1).die = 2 ∧ (y.tasks.at 1).viol = false) ∧
    (((clAfter (.notice 0 0 5 6 2 0 0 77 9) (clLab fun x => { x with tasks := [(1, { budget := some 400000000, run := some (9, 999593999) })] })).tasks.at 1).viol = true) ∧
    (((clAfter (.notice 0 0 5 4 2 0 0 77 9) clLab).tasks.at 1).viol = true) := by decide +kernel

/-- A heartbeat 11.000 ms after the last meets its window, one of 11.001 ms does not (R415). -/
theorem test_hb :
    ((clAfter (.hb 0 0 5 0 0) (clLab fun x => { x with tasks := [(0, { last := 989000001 })] })).tasks.at 0).viol = false ∧
    ((clAfter (.hb 0 0 5 0 0) (clLab fun x => { x with tasks := [(0, { last := 988999000 })] })).tasks.at 0).viol = true ∧
    ((clAfter (.hb 0 0 5 0 0) clLab).tasks.at 0).due = some 1011000000 := by decide +kernel

theorem test_task_due :
    ((clAfter (.taskDue 0 0 0) (clLab fun x => { x with tasks := [(0, { due := some 1000000000 })] })).tasks.at 0).viol = true ∧
    (let y := clAfter (.taskDue 0 0 1) (clLab fun x => { x with tasks := [(1, { act := 9, commit := some 900000000 })] })
     (y.tasks.at 1).act = 10 ∧ (y.tasks.at 1).viol = false) ∧
    ((clAfter (.taskDue 0 0 1) (clLab fun x => { x with tasks := [(1, { act := 9, commit := some 899999999 })] })).tasks.at 1).viol = true := by decide +kernel

/-- A certificate of one compute step of 100 units of work for list 77: admitted; with a wrong sum, an overrun, and a list the Cleat does not know. -/
def certBytes (list w : Nat) : List Byte :=
  let h := leBytes 2 1 ++ leBytes 2 1 ++ leBytes 4 list ++ leBytes 4 0 ++ leBytes 4 0 ++ leBytes 8 w ++ leBytes 8 0 ++ List.replicate 28 0
  let e := leBytes 2 0 ++ [0x10, 0] ++ leBytes 4 100 ++ leBytes 4 145000 ++ leBytes 4 0
  h ++ leBytes 4 (crc32c (h ++ leBytes 4 0 ++ e)) ++ e

theorem test_admission :
    (let x := clBase
     x.admission 1 80 (certBytes 77 145000) 0 = 1 ∧ x.admission 1 80 (certBytes 77 145001) 0 = 3 ∧ x.admission 1 80 (certBytes 78 145000) 0 = 5 ∧
     x.admission 1 81 (certBytes 77 145000) 0 = 2 ∧ x.admission 1 80 (certBytes 77 145000) 1 = 6) ∧
    (let s := clLab fun x => { x with req := some (1, 1, 0x1234, 80), cert := certBytes 77 145000 }
     (clAfter (.certend 0 0 5 0x1234 0) s).rsp.at 0x34 = 0x12340001 ∧ ((clAfter (.certend 0 0 5 0x1234 0) s).tasks.at 1).budget = some 145000) := by decide +kernel

theorem test_request :
    (clAfter (.request 0 0 5 ([1, 1] ++ leBytes 2 0x1234 ++ leBytes 4 80 ++ List.replicate 56 0)) clLab).req = some (1, 1, 0x1234, 80) ∧
    (let y := clAfter (.request 0 0 5 ([2, 1] ++ leBytes 2 0x1234 ++ List.replicate 60 0)) (clLab fun x => { x with tasks := [(1, { budget := some 3 })] })
     y.rsp.at 0x34 = 0x12340007 ∧ (y.tasks.at 1).budget = none) ∧
    (clAfter (.cert 0 0 5 [4, 5]) (clLab fun x => { x with req := some (1, 1, 0x1234, 80), cert := [3] })).cert = [3, 4, 5] := by decide +kernel

theorem test_losses :
    (clAfter (.hubLinkLost 0 1002000000) (clLab fun x => { x with st := .engaged })).st = .stopping ∧ (clAfter (.hubLinkLost 0 1001999999) clLab).linkLost = false ∧
    (clAfter (.vehicleStateLost 0 0) clLab).reason = 0x32 := by decide +kernel

/-- Entries of CANIN: speed, engage and disengage on port 1, identity 0x123, counter in byte 1, CRC in byte 0. -/
def canLab (f : Cleat → Cleat := id) : State :=
  let ent (kind len : Byte) : List Byte := leBytes 4 0x123 ++ [1, kind] ++ leBytes 2 10 ++ leBytes 2 16 ++ [len, 0] ++ leBytes 4 256 ++ leBytes 4 5 ++ leBytes 2 8 ++ [0] ++ List.replicate 9 0
  clLab fun x => f { x with spb := some (List.replicate 0x19D0 0 ++ ent 1 16 ++ ent 5 0 ++ ent 6 0), hist := [] }
def canFrame : List Byte := leBytes 1 (crc8J1850 [0x05, 0x10, 0x00]) ++ [0x05, 0x10, 0x00]

theorem test_cleat_can :
    (clAfter (.cleatCanFrame 0 0 1 false 0x123 canFrame) canLab).hist.at 1 = [(1000000000, 4101)] ∧
    (clAfter (.cleatCanFrame 0 0 1 false 0x123 canFrame) canLab).canin.at 0 = ⟨some 5, 1000000001⟩ ∧
    ((canLab fun x => { x with canin := [(0, ⟨some 1, 5⟩)] }).cleatAt 0 0).canValid 0 1 false 0x123 canFrame = none ∧
    ((canLab fun x => { x with canin := [(0, ⟨some 2, 5⟩)] }).cleatAt 0 0).canValid 0 1 false 0x123 canFrame = some (16, 5) := by decide +kernel

theorem test_engage :
    (clAfter (.engage 0 0 1 false 0x123 canFrame) (canLab fun x => { x with run := 10 })).st = .engaged ∧
    ((canLab fun x => { x with run := 9 }).cleatAt 0 0).mayEngage = false ∧
    (clAfter (.disengage 0 0 1 false 0x123 canFrame) (canLab fun x => { x with st := .engaged })).st = .ready := by decide +kernel

theorem test_stop_record :
    (let s := clLab fun x => { x with st := .stopping, published := 990000001 }
     (clAfter (.stopRecordPublish 0 0) s).counter = 1 ∧ (sent s (after (.stopRecordPublish 0 0) s)).map (·.port) = ["CAN-A0", "CAN-A1", "SGMII-A"]) ∧
    (clAfter (.standstill 0 0) (clLab fun x => { x with st := .stopping, slow := 1 })).st = .ready := by decide +kernel

theorem test_cleat_boots :
    (let s := clLab fun x => { x with st := .engaged }
     (clAfter (.cleatSafe 0 0 true) s).dark = true ∧ (clAfter (.cleatSafe 0 0 true) s).st = .boot ∧ (sent s (after (.cleatSafe 0 0 true) s)) = [⟨"GATE-A", "STATIC", []⟩] ∧
     (clAfter (.cleatThermalTrip 0 0) s).st = .tripped ∧ (clAfter (.cleatResetPin 0 0) s).st = .boot ∧ clAfter (.cleatSramScrub 0 0) s = s.dev.cleat.at 0) ∧
    (clAfter (.cleatCooled 0 0) (clLab fun x => { x with st := .tripped })).st = .boot ∧ (clAfter (.cleatPowerUp 0 0) (clLab fun x => { x with dark := true })).dark = false ∧
    (after (.standstill 0 0) (clLab fun x => { x with dark := true })) = clLab fun x => { x with dark := true } := by decide +kernel

theorem test_latent :
    (clAfter (.latentTest 0 3600000000001 true) clLab).tested = 3600000000001 ∧ (clAfter (.latentTest 0 3600000000001 false) clLab).st = .boot ∧
    (clAfter (.latentTest 0 3600000000000 false) clLab).st = .ready ∧ (clAfter (.latentOverdue 0 36000000000001) clLab).latent = true := by decide +kernel

theorem test_vote_withdraw : (clAfter (.voteWithdraw 0 0 2) (clLab fun x => { x with vote := 4, evidence := [(0, 2)] })).vote = 0 ∧
    (clAfter (.voteWithdraw 0 0 2) (clLab fun x => { x with vote := 4, evidence := [(1, 2)] })).vote = 4 := by decide +kernel

/-! The pair. -/

/-- A relay message. -/
def relayed (o kind : Byte) (body : List Byte) : List Byte :=
  let b := [o, kind, 7, 0, 1, 0, 0, 0] ++ body
  b ++ leBytes 4 (crc32c b)

theorem test_relay_bodies : relayBody (relayed 2 1 [1, 0, 1, 0, 0, 0, 0, 0]) 1 = some [1, 0, 1, 0, 0, 0, 0, 0] ∧
    relayBody (relayed 2 2 (leBytes 8 5)) 2 = some (leBytes 8 5) ∧ (relayBody (relayed 2 3 (List.replicate 25 0)) 3).isSome = true ∧
    relayBody (relayed 2 4 [3, 0, 0, 0, 0, 0, 0, 0]) 4 = some [3, 0, 0, 0, 0, 0, 0, 0] ∧ relayBody (relayed 1 5 (leBytes 4 9)) 5 = some (leBytes 4 9) ∧
    relayBody (relayed 1 6 (leBytes 4 9)) 6 = some (leBytes 4 9) ∧ relayBody (relayed 1 6 (leBytes 4 9)) 5 = none ∧
    relayBody ([0, 6, 7, 0, 2, 0, 0, 0] ++ leBytes 4 (crc32c [0, 6, 7, 0, 2, 0, 0, 0])) 6 = none := by decide +kernel

/-- Origin 0 or origin 2 is of the partner module. -/
theorem test_far : (0 / 2 = 1 - modid ∨ 2 / 2 = 1 - modid) ∧ (fld (relayed 0 4 [3, 0, 0, 0, 0, 0, 0, 0]) 0 1 = 0 ∧ fld (relayed 2 4 [3, 0, 0, 0, 0, 0, 0, 0]) 0 1 = 2) :=
  ⟨by unfold modid; show 0 = _ ∨ 1 = _; omega, by decide +kernel⟩

/-- Origins 1 and 3 are never Cleat A's own, and origin 0 or 2 is (R596). -/
theorem test_own : (1 ≠ origin 0 ∧ 3 ≠ origin 0) ∧ (origin 0 = 0 ∨ origin 0 = 2) ∧ (clLab.cleatHears 0 0 5).faults = [] ∧
    ([0, 1, 2, 3].all fun o => let m := relayed o 4 [3, 0, 0, 0, 0, 0, 0, 0]
      crc32c (m.take 16) == fld m 16 4 && fld m 0 1 == o.toNat) = true :=
  ⟨by unfold origin modid; omega, by unfold origin modid; omega, by decide +kernel, by decide +kernel⟩

theorem test_relayed_go_on : clLab.cleatRuns 0 = true ∧ clLab.inSeq 0 5 = true ∧ (clLab.cleatHears 0 0 5).st ≠ .boot ∧
    ([Instr.relayedVote 0 0 5 (relayed 2 1 [1, 0, 1, 0, 0, 0, 0, 0]), .timereq 0 0 5 (relayed 2 2 (leBytes 8 5)), .timersp 0 0 5 (relayed 2 3 (List.replicate 25 0)),
      .state 0 0 5 (relayed 2 4 [3, 0, 0, 0, 0, 0, 0, 0]), .handack 0 0 5 (relayed 1 5 (leBytes 4 9)), .handnak 0 0 5 (relayed 1 6 (leBytes 4 9))].all
        fun i => goes i clLab) = true := by decide +kernel

/-- Cleat A in a pair. -/
def pairLab (v : View) (f : Pair → Pair := id) (g : Cleat → Cleat := id) : State := clLab fun x => g { x with pair := f { x.pair with view := v } }

theorem test_pair_time : (clAfter (.timeExchange 0 0) (pairLab .follower)).pair.t1 = some 1000000000 ∧ (clAfter (.stateSend 0 0) (pairLab .follower)).pair.ctr = 1 ∧
    (let s := pairLab .follower (fun p => { p with theta := some (0, 5, 900000000), synced := true }) fun x => { x with st := .ready }
     (clAfter (.pairTimeStale 0 0) s).reason = 0x50 ∧ (clAfter (.pairTimeStale 0 0) s).pair.synced = false ∧ (clAfter (.pairTimeStale 0 0) s).st = .ready) ∧
    (clAfter (.pairTimeStale 0 0) (pairLab .follower fun p => { p with theta := some (0, 5, 900000001) })).reason = 0 ∧
    (clAfter (.pairTimeStale 0 0) (pairLab .follower (fun p => { p with theta := some (0, 5, 900000000) }) fun x => { x with st := .engaged })).st = .stopping := by decide +kernel

theorem test_partner_silent :
    (let s := pairLab .source
     (s.cleatAt 0 0).silent = true ∧ (clAfter (.partnerSilent 0 0) s).pair.view = .solo ∧
     (clAfter (.partnerSilent 0 0) (pairLab .source fun p => { p with partner := [(1, { relay := 1000000000, state := 3 })] })).pair.view = .source) := by decide +kernel

/-- Two digests of one key that differ. -/
def digA : Dig := ⟨0, 0, 2, 9, false, List.replicate 32 1, 0⟩
def digB : Dig := ⟨0, 1, 3, 9, false, List.replicate 32 2, 0⟩

/-- A dispute: the replays agree with module 1, with module 0, with neither, or are not there (R486). -/
theorem test_disputes :
    ({ a0 := digA, b0 := digB, a1 := some digB, b1 := some digB } : Dispute).outcome false = some (some (0, 2)) ∧
    ({ a0 := digA, b0 := digB, a1 := some digA, b1 := some digA } : Dispute).outcome false = some (some (1, 3)) ∧
    ({ a0 := digA, b0 := digB, a1 := some digA, b1 := some digB } : Dispute).outcome false = some none ∧
    ({ a0 := digA, b0 := digB } : Dispute).outcome false = none ∧
    (let s := pairLab .source (fun p => { p with disputes := [{ a0 := digA, b0 := digB, close := 1000000000 }] }) fun x => { x with st := .engaged }
     (clAfter (.disputeClose 0 0) s).pair.disputes = [] ∧ (clAfter (.disputeClose 0 0) s).reason = 0x51 ∧ (clAfter (.disputeClose 0 0) s).st = .stopping) := by decide +kernel

theorem test_unmatched :
    (let s := pairLab .source fun p => { p with recs := [(0, 4, [], 1000000000), (0, 5, [], 1000000001)], unmatched := 1 }
     (clAfter (.recordUnmatched 0 0) s).pair.recs.map (·.2.1) = [5] ∧ (clAfter (.recordUnmatched 0 0) s).pair.unmatched = 2) ∧
    (clAfter (.recordUnmatched 0 0) (pairLab .source fun p => { p with recs := [(0, 4, [], 1000000000)], unmatched := 2 })).reason = 0x52 ∧
    (clAfter (.recordUnmatched 0 0) (pairLab .source)).pair.unmatched = 0 := by decide +kernel

theorem test_handover :
    (clAfter (.handoverTimeout 0 0) (pairLab .source fun p => { p with hand := some (9, 900000000, 3) })).pair.hand = none ∧
    (clAfter (.handoverTimeout 0 0) (pairLab .source fun p => { p with hand := some (9, 900000001, 3) })).pair.hand = some (9, 900000001, 3) ∧
    (clAfter (.handreq 0 0 5 9) (pairLab .source)).pair.hand = none ∧
    (let s := pairLab .source (fun p => { p with synced := true, sib := { state := 3 }, partner := [(0, { state := 3 }), (1, { state := 3 })], maxPlan := 8 }) fun x => { x with st := .engaged }
     let x := s.cleatHears 0 0 5
     x.paired = true ∧ x.pair.synced = true ∧ x.pair.disputes = [] ∧ x.st = .engaged ∧ x.pair.sib.state = 3 ∧ x.partnersDrive = true ∧ x.pair.maxPlan + 1 ≤ 9 ∧ goes (.handreq 0 0 5 9) s = true) ∧
    (let s := pairLab .follower id fun x => { x with st := .engaged }
     let x := s.cleatHears 0 0 5
     x.st = .engaged ∧ x.pair.view = .follower ∧ x.pair.asides = [] ∧ goes (.asidereq 0 0 5) s = true) := by decide +kernel

theorem test_partner_record :
    (let y := clAfter (.partnerRecord 0 0 5 (restRecord 0x31)) (pairLab .source)
     y.pair.recs.map (·.2.1) = [4] ∧ y.run = 0) ∧ comparable (restRecord 0x31) (restRecord 0x31) = true ∧ comparedBytes (restRecord 0x31) ≠ comparedBytes (restRecord 0x32) ∧
    (clAfter (.resultFrame 0 0 5 (restRecord 0x31)) (pairLab .source fun p => { p with swap := some 4 })).pair.view = .follower := by decide +kernel

/-- A record of the own module waits. -/
theorem test_partner_match (r : List Byte) :
    ([(modid, 4, r, 0)] : List (Nat × Nat × List Byte × Nat)).find? (fun e => e.1 == modid && e.2.1 == 4) = some (modid, 4, r, 0) := by simp

/-- A digest record of class `cls`, module 1, die 3, key 9. -/
def digestBytes : List Byte :=
  let b := leBytes 4 0x44475331 ++ [0, 1, 3, 0] ++ leBytes 4 9 ++ leBytes 4 0 ++ leBytes 8 999000000 ++ List.replicate 16 0 ++ List.replicate 32 2 ++ List.replicate 4 0
  b ++ leBytes 4 (crc32c b)

theorem test_digest_record : digestBytes.length = 80 ∧
    ((clAfter (.digestRecord 0 0 5 digestBytes) (pairLab .source)).pair.digs.map fun e => (e.1.modid, e.1.die, e.1.key, e.2)) = [(1, 3, 9, 1049000000)] ∧
    ((clAfter (.digestRecord 0 0 5 digestBytes) (pairLab .source fun p => { p with digs := [(digA, 5)] })).pair.disputes.map fun q => (q.a0.die, q.b0.die, q.close)) = [(2, 3, 1200000000)] ∧
    (clAfter (.digestRecord 0 0 5 digestBytes) (pairLab .source fun p => { p with digs := [({ digA with hash := List.replicate 32 2 }, 5)] })).pair.disputes = [] := by decide +kernel

/-! The Hawser. -/

/-- Port 1 is up. -/
def hwsLab (fs : List (FRef × Nat) := []) (f : Hws → Hws := id) : State :=
  withDev (poke labM ([(HWS_CTL_EN, 1), (HWS_CTL_PORTEN, 3), (HWS_STAT_UP1, 1), (HWS_STAT_MIRON, 1), (HWS_MAUD_MIRCAP, 156)] ++ fs)) fun d => { d with hws := f d.hws }

theorem test_hawser_links : (hwsLab).on domFAB = true ∧ bit (hwsLab.rd HWS_CTL_PORTEN) (0 : Fin 2) = true ∧ hwsLab.rd (hwsUpBit 0) = 0 ∧ after (.hawserLinkUp 0) hwsLab = hwsLab ∧
    (let t := after (.hawserLinkDown 1) (hwsLab [] fun h => { h with queue := [{}], rxSeq := 5 })
     t.rd HWS_STAT_UP1 = 0 ∧ t.rd HWS_STAT_MIRON = 0 ∧ t.rd HWS_STAT_MIRBRK = 1 ∧ t.rd HWS_CNT1_BREAKS = 1 ∧ t.dev.hws.queue = [] ∧ t.dev.hws.rxSeq = 0) ∧
    (after (.hawserLinkDown 1) (hwsLab [(HWS_STAT_UP0, 1)])).rd HWS_MAUD_MIRCAP = 156 := by decide +kernel

/-- The oldest entry leaves on port 1, two tokens of it; at the cap it waits (R473, R475). -/
theorem test_mirror_send :
    (let s := hwsLab [] fun h => { h with queue := [⟨7, 0x40, List.replicate 64 9⟩], psn := [(1, 0xFFFFFF)] }
     let t := after .mirrorEntrySend s
     t.dev.hws.queue = [] ∧ t.dev.hws.used = 2 ∧ t.dev.hws.port = 0 ∧ t.dev.hws.psn.at 1 = 0 ∧ t.pair HWS_MTOK_LO = 2 ∧
     (sent s t).map (fun o => (o.kind, o.data.take 3, o.data.length)) = [("MIRROR", [1, 0xFFFFFF, 7], 82)]) ∧
    (let s := hwsLab [(HWS_MAUD_MIRCAP, 1)] fun h => { h with queue := [⟨7, 0x40, List.replicate 64 9⟩] }
     after .mirrorEntrySend s = s) := by decide +kernel

/-- A received entry is written in an RX window. -/
theorem test_mirror_receive :
    (let s := hwsLab [(HWS_WCFG_EN 3, 1), (HWS_WCFG_RX 3, 1), (HWS_WLIM_ADDR 3, 5)] fun h => { h with rxSeq := 4 }
     ((Tx.start s).mirWrite ⟨4, 0x40, [1, 2]⟩).2 matches .ok () ∧
     (let t := after (.mirrorEntry 1 4 0x40 [1, 2]) s
      t.byte 0x41 = 2 ∧ t.dev.hws.rxSeq = 5)) := by decide +kernel

theorem test_roce :
    (let s := hwsLab [] fun h => { h with sent := [(1, [⟨5, 0, "MIRROR", [], 0⟩, ⟨6, 0, "MIRROR", [], 0⟩, ⟨7, 0, "MIRROR", [], 0⟩])], retries := [(1, 2)] }
     (after (.roceAck 1 6) s).dev.hws.sent.at 1 = [⟨7, 0, "MIRROR", [], 0⟩] ∧ (after (.roceAck 1 6) s).dev.hws.retries.at 1 = 0 ∧
     (after (.roceRetransmit 1) s).dev.hws.retries.at 1 = 3 ∧ (after (.roceRetransmit 1) s).rd HWS_CNT0_RETRY = 1 ∧
     (after (.roceRetransmit 1) (withDev s fun d => { d with hws := { d.hws with retries := [(1, 7)] } })).rd HWS_STAT_UP1 = 0) ∧
    (after (.macsecDiscard 1) hwsLab).rd HWS_CNT0_MACDROP = 1 := by decide +kernel

theorem test_rdma : hwsLab.on domFAB = true ∧ hwsLab.rd (hwsUpBit 1) = 1 ∧
    (goes (.rdmaWrite 1 5 0x80000 [7]) hwsLab && goes (.rdmaWriteImmediate 1 5 0x80000 [7] 9) hwsLab && goes (.send 1 5 0x80000 [7]) hwsLab) = true := by decide +kernel

theorem test_hawser_commands : hwsLab.reaches 0 HWS_CMD = true ∧ hwsLab.reaches 0 HWS_DDB = true ∧ (after (.rearm 0) (hwsLab [(HWS_STAT_MIRON, 0)])).rd HWS_STAT_MIRON = 1 ∧
    (after (.rearm 0) labM).rd HWS_STAT_CMDREF = 1 ∧ (after (.resync 0) labM).rd HWS_STAT_CMDREF = 1 ∧ (after (.resync 0) hwsLab).rd HWS_STAT_RSDONE = 1 ∧
    (let t := after (.resync 0) (hwsLab [(HWS_WCFG_EN 3, 1), (HWS_WCFG_TX 3, 1)])
     t.rd HWS_STAT_RESYNC = 1 ∧ t.dev.hws.queue.map (fun e => (e.pa, e.bytes.length)) = [(0, 4096)]) ∧
    (sent hwsLab (after (.handover 0) hwsLab)).map (·.kind) = ["PAIR", "PAIR", "PAIR"] ∧ (sent hwsLab (after (.aside 0) hwsLab)).map (·.port) = ["CLEAT-A", "CLEAT-B"] ∧
    (after (.dresume 0) hwsLab).rd HWS_STAT_CMDREF = 1 ∧ (after (.dabort 0) (hwsLab [(HWS_DPTR_DBTAIL, 3)])).rd HWS_DPTR_HEAD = 3 ∧
    (after (.digestDoorbell 0 15) hwsLab).rd HWS_DPTR_DBTAIL = 15 ∧ (after (.digestDoorbell 0 16) hwsLab).rd HWS_STAT_CMDREF = 1 := by decide +kernel

/-- SHA-256 of "abc" (FIPS 180-4). -/
theorem test_sha : leNat (sha256 [0x61, 0x62, 0x63]).reverse = 0xBA7816BF8F01CFEA414140DE5DAE2223B00361A396177A9CB410FF61F20015AD := by decide +kernel

/-- A digest job over one region of 64 bytes: its descriptor, its list and its region are read, and its record has a place. -/
theorem test_digest_job :
    (let s := store (store (poke (pokeW hwsLab [(HWS_DRBASE_LO, 0x90000), (HWS_DCBASE_LO, 0x91000)]) [(HWS_DPTR_DBTAIL, 1)])
       (homeBase + 0x90000) ([2, 0, 1, 1] ++ leBytes 4 9 ++ leBytes 8 5 ++ leBytes 8 0x92000)) (homeBase + 0x92000) (leBytes 8 0x93000 ++ leBytes 8 64)
     match (Tx.start s).vRead 4 0 digMid 0x90000 64 with
     | (u, .ok j) => digJobOk j && fld j 3 1 == 1 && (match u.vRead 4 0 digMid (fld j 0x10 8) 16 with
       | (v, .ok l) => (match v.digRegions 0 [] [(fld l 0 8, fld l 8 8)] with
         | (w, some (bs, st)) => st == 0 && bs.length == 64 && (w.vWrite 4 0 digMid 0x91000 (digRecord j (sha256 bs) s.now bs.length 0)).2.isOk
         | _ => false)
       | _ => false)
     | _ => false) = true := by decide +kernel

/-! Power. -/

/-- The hub's domain 13 and compute domains of stack 0 in the states that the tests need. -/
def pbaLab (fs : List (FRef × Nat)) (f : Pba → Pba := id) : State := withDev (poke lab fs) fun d => { d with pba := f d.pba }
/-- The steward's identity. -/
def stw : Mid := 0x710

theorem test_pba_requests : steward = 0x710 ∧ lab.reaches stw.toNat PBA_REQ = true ∧ (Tx.start lab).refusal ⟨1, 13, 0⟩ = none ∧ (Tx.start lab).refusal ⟨1, 18, 0⟩ = some 5 ∧
    (let t := after (.pbaOn stw 13) lab
     t.word PBA_RSP = 0x100D0000 ∧ t.rd (PBA_DOM_STATE 13) = 1 ∧ t.rd (PBA_DOM_GRANT 13) = 40 ∧ t.dev.pwr.at 13 = .powering ∧ t.rd PBA_AUD0_GRANTED = 40) ∧
    (after (.pbaOn stw 18) lab).word PBA_RSP = 0x10120005 ∧
    (let s := pbaLab [(PBA_AUD1_BEFF, 130)]
     (after (.pbaOn stw 13) s).word PBA_RSP = 0x100D0001 ∧ (after (.pbaOn stw 13) s).dev.pba.pending = some ⟨1, 13, 0⟩) ∧
    (after (.pbaOn stw 13) (pbaLab [] fun p => { p with pending := some {} })).rd PBA_STAT_CMDREF = 1 ∧ (after (.pbaBist 0 27) lab).rd PBA_STAT_CMDREF = 1 := by decide +kernel

theorem test_pba_others :
    (let t := after (.pbaOff stw 13) (pbaLab [(PBA_DOM_STATE 13, 2), (PBA_DOM_GRANT 13, 40)])
     t.word PBA_RSP = 0x200D0000 ∧ t.rd (PBA_DOM_STATE 13) = 3 ∧ t.rd (PBA_DOM_GRANT 13) = 40 ∧ t.rd PBA_AUD0_RELEASING = 40) ∧
    (let t := after (.pbaGrant stw 18 50) (pbaLab [(PBA_DOM_STATE 18, 2), (PBA_DOM_GRANT 18, 15)])
     t.word PBA_RSP = 0x30120000 ∧ t.rd (PBA_DOM_GRANT 18) = 50 ∧ t.dev.pba.want.at 18 = 50) ∧
    (let t := after (.pbaBist stw 18) (pbaLab [(PBA_DOM_STATE 18, 2), (PBA_DOM_GRANT 18, 15)])
     t.word PBA_RSP = 0x40120000 ∧ t.rd (PBA_DOM_BIST 18) = 1 ∧ t.rd (PBA_DOM_GRANT 18) = pmax 18 * 3 / 2) ∧
    (let t := after (.pbaBistend stw 18) (pbaLab [(PBA_DOM_STATE 18, 2), (PBA_DOM_GRANT 18, 60), (PBA_DOM_BIST 18, 1)])
     t.word PBA_RSP = 0x50120000 ∧ t.rd (PBA_DOM_BIST 18) = 0 ∧ t.rd (PBA_DOM_GRANT 18) = 15) := by decide +kernel

theorem test_request_complete :
    (let s := pbaLab [] fun p => { p with pending := some ⟨1, 13, 0⟩ }
     (after .requestComplete s).rd PBA_STAT_DONE = 1 ∧ (after .requestComplete s).dev.pba.pending = none) ∧
    (let s := pbaLab [(PBA_AUD1_BEFF, 130)] fun p => { p with pending := some ⟨1, 13, 0⟩ }
     after .requestComplete s = s) ∧
    (after .requestComplete (pbaLab [] fun p => { p with pending := some ⟨1, 18, 0⟩ })).rd PBA_RSP_CODE = 5 := by decide +kernel

theorem test_shed : lab.reaches stw.toNat PBA_CMD = true ∧ lab.reaches 3 PBA_CMD = true ∧ lab.reaches stw.toNat PBA_CTL = true ∧
    (let s := pbaLab [(PBA_DOM_STATE 27, 2), (PBA_DOM_GRANT 27, 48)]
     let t := after (.shed stw) s
     t.rd PBA_STAT_MODE = 2 ∧ t.rd PBA_STAT_CAUSE = 3 ∧ t.rd PBA_AUD1_BEFF = 600 ∧ t.rd (PBA_DOM_STATE 27) = 0 ∧ t.rd (PBA_DOM_GRANT 27) = 0) ∧
    (after (.unshed stw) (pbaLab [] fun p => { p with shed := true })).dev.pba.shed = false ∧ (after (.shed 3) lab).dev.pba = lab.dev.pba ∧
    (after (.budgetWrite stw 4500) lab).rd PBA_CTL_BUDGET = 4500 ∧ (after (.budgetWrite stw 599) lab).rd PBA_STAT_CMDREF = 1 := by decide +kernel

theorem test_survival_exit : (after .survivalExit (pbaLab [(PBA_STAT_MODE, 2), (PBA_STAT_CAUSE, 3)])).rd PBA_STAT_MODE = 0 ∧
    (after .survivalExit (pbaLab [(PBA_STAT_MODE, 2), (PBA_STAT_CAUSE, 3)])).rd PBA_STAT_SURVOUT = 1 := by decide +kernel

/-- A trip of compute die 0 opens its domains. -/
theorem test_hard_trip :
    (let t := after (.hardTrip 1) (pbaLab [(PBA_DOM_STATE 27, 2), (PBA_DOM_GRANT 27, 48)])
     t.rd THM_TRIP_TRIPPED = 2 ∧ t.rd (PBA_DOM_STATE 27) = 5 ∧ t.rd (PBA_DOM_GRANT 27) = 0 ∧ t.dev.pwr.at 27 = .off) := by decide +kernel

theorem test_domain_off :
    (after (.domainOff 13) (pbaLab [(PBA_DOM_STATE 13, 3), (PBA_DOM_GRANT 13, 40)])).rd (PBA_DOM_GRANT 13) = 0 ∧
    (let t := after (.domainOff 10) (pbaLab [(PBA_DOM_STATE 10, 3), (PBA_DOM_GRANT 10, 120), (HD_MC_STAT_READY 5, 1)])
     t.rd (PBA_DOM_STATE 10) = 4 ∧ t.rd (HD_MC_STAT_RETAIN 5) = 1 ∧ t.rd (HD_MC_STAT_RETAIN 4) = 0 ∧ t.rd (PBA_DOM_GRANT 10) = survival 10) := by decide +kernel

theorem test_floor_cut :
    (let s := pbaLab [] fun p => { p with floorAt := some 900000000 }
     (after .floorCut s).dev.pba.floorAt = none) ∧
    (let s := pbaLab [(PBA_CTL_BUDGET, 600), (PBA_STAT_MODE, 2), (RTM_CTL_HOLD (cdRtm 3), 1), (PBA_DOM_STATE (domCD 3), 2), (PBA_DOM_STATE 60, 2), (PBA_DOM_STATE 61, 2), (PBA_DOM_STATE 62, 2), (PBA_DOM_STATE 63, 2), (PBA_DOM_STATE 12, 2)]
         fun p => { p with floorAt := some 900000000 }
     (Tx.start s).levels.2.2.2 < (Tx.start s).levels.1 + (Tx.start s).levels.2.1 ∧ (after .floorCut s).rd PBA_STAT_FLOORCUT = 1 ∧ (after .floorCut s).rd (PBA_DOM_STATE (domCD 3)) = 0) := by decide +kernel

theorem test_pba_tick : goes (.pbaTick [0, 0, 0, 500] [[320, 336], [400, 401]] 40000 41000) lab = true ∧ lab.now % 1000000 = 0 ∧ lab.dev.pba.dark = false ∧
    lab.dev.pba.last ≠ lab.now + 1 := by decide +kernel

/-- 230 W and 0.874 K: 4.00 L/min (R520). -/
theorem test_flow : ((Tx.start (pbaLab [] fun p => { p with pins := [230000] })).tickFlow 55000 55874).rd THM_FLOW_FLOW = 4002 := by decide +kernel

theorem test_vin :
    (let t := after (.vinSample 9499 44838 100000) lab
     t.rd HUP_STAT_INSTATE = 2 ∧ t.rd HUP_STAT_DROP = 1 ∧ t.rd HUP_V_VIN = 9499 ∧ t.pair HUP_EIN_LO = 1000) ∧
    (after (.vinSample 10000 44838 100000) (pbaLab [(HUP_STAT_INSTATE, 2)] fun p => { p with dropAt := 5 })).rd HUP_STAT_INSTATE = 0 := by decide +kernel

theorem test_input_modes :
    (after .survivalModeEntry (pbaLab [] fun p => { p with below := 999000001 })).rd PBA_STAT_CAUSE = 2 ∧
    (after .survivalModeExit (pbaLab [(HUP_STAT_INSTATE, 1)] fun p => { p with input := true, above := 900000001 })).rd HUP_STAT_INSTATE = 0 ∧
    (after .holdupSurvival (pbaLab [] fun p => { p with dropAt := 998000001 })).rd PBA_STAT_MODE = 2 ∧
    (after (.capMeasure 1880) (pbaLab [(HUP_V_VHOLD, 4393)])).rd HUP_E_CAP = 1880 := by decide +kernel

theorem test_shutdown :
    (let t := after .shutdown (pbaLab [(HUP_STAT_INSTATE, 2), (HUP_E_EAVAIL, 3000)])
     t.dev.pba.dark = true ∧ t.dev.pba.slot = 1) := by decide +kernel

/-! Tests, the log, the MRAM. -/

/-- A laboratory whose module configuration has bytes `b` at offset `o`. -/
def cfgLab (o : Nat) (b : List Byte) : State := withDev lab fun d => { d with sec := { d.sec with cfg := some (List.replicate o 0#8 ++ b) } }

theorem test_field_test : lab.reaches stw.toNat TST_CMD = true ∧ testUnitOk 6 3 = true ∧ testDom 6 3 = none ∧
    (let t := after (.testStart stw 6 3) lab
     t.dev.tst.cur = some (6, 3, 1000000000) ∧ t.rd TST_STAT_BUSY = 1 ∧ t.rd TST_STAT_TEST = 6) ∧
    (after (.testStart stw 4 12) lab).rd TST_STAT_CMDREF = 1 ∧ (after (.testStart stw 4 2) lab).rd TST_STAT_CMDREF = 1 ∧
    (after (.testStart stw 4 2) (poke lab [(PBA_DOM_BIST (domSH 0 2), 1)])).rd TST_STAT_BUSY = 1 ∧ (after (.testAbort stw) lab).rd TST_STAT_CMDREF = 1 := by decide +kernel

/-- A test of spare rank-channel 3 is under way since 12 µs before. -/
def testing : State := withDev (poke lab [(TST_STAT_BUSY, 1)]) fun d => { d with tst := { cur := some (6, 3, 999988000) } }

theorem test_field_test_ends : (Tx.start testing).testCut 6 3 = false ∧
    (let t := after (.testAbort stw) testing
     t.rd TST_STAT_BUSY = 0 ∧ t.word (TST_RES 0) = 0x00030306 ∧ t.word (TST_RES 5) = 12 ∧ t.rd TST_STAT_FAIL = 0) ∧
    (let t := after (.testDone [] 0 0) testing
     t.rd TST_STAT_DONE = 1 ∧ t.rd TST_CNT_PASSES = 1 ∧ t.word (TST_RES 0) = 0x00030006 ∧ t.dev.tst.ran.at 387 = 1000000001) := by decide +kernel

/-- A repair map write is under way, so that the find only waits for it. -/
theorem test_field_test_fails :
    (let s := withDev testing fun d => { d with repair := { d.repair with writing := some 0 } }
     let t := after (.testDone [(0x40, 7), (0x80, 8)] 0x11 0x10) s
     t.rd TST_STAT_FAIL = 1 ∧ t.rd TST_CNT_FAILS = 1 ∧ t.word (TST_RES 0) = 0x00030106 ∧ t.word (TST_RES 1) = 0x40 ∧ t.word (TST_RES 2) = 0x00020007 ∧
       t.word (TST_RES 3) = 0x11 ∧ t.word (TST_RES 4) = 0x10 ∧ t.dev.repair.spbad = 8) := by decide +kernel

/-- A lease on Shelf group 2 is asked for, and the runtime's reply of operation `op` is at the head of channel 9. -/
def leased (op : Nat) : State :=
  poke (withDev (cfgLab 0x18 [0x8#8, 0x9#8]) fun d =>
    { d with tst := { lease := some { id := 5, kind := 1, unit := 2 }, nextLease := 6 }, mbx := [(9, { slots := [(0, op * 2 ^ 28 + 0x1020005)] })] })
    [(HD_SHF_GCFG_INTL, 0), (MBX_CHTAB0_EN 8, 1), (MBX_CHTAB0_SMID 8, 0x710), (MBX_CHTAB0_EN 9, 1), (MBX_CHTAB0_RMID 9, 0x710), (MBX_CST_OCC 9, 1)]

theorem test_leases : ((Tx.start (leased 3)).leaseReply 3).isSome = true ∧
    ((Tx.start (leased 3)).leaseReply 3).map (fun x => x.2.leaseReady x.1) = some true ∧
    (after .leaseGrant (leased 3)).dev.tst.lease = some { id := 5, kind := 1, unit := 2, granted := true } ∧
    (let s := poke (leased 3) [(HD_SHF_GCFG_INTL, 4)]
     ((Tx.start s).leaseReply 3).map (fun x => x.2.leaseReady x.1) = some false ∧ goes .leaseGrant s = true) ∧
    ((Tx.start (leased 4)).leaseReply 4).isSome = true ∧ (after .leaseDeny (leased 4)).dev.tst.lease = none ∧
    ((Tx.start (leased 5)).leaseReply 5).isSome = true ∧ (after .leaseRevoke (leased 5)).dev.tst.lease = none ∧
    (after .leaseRevoke (leased 5)).dev.mbx.at 8 = { slots := [(0, 0x21020005)] } ∧ (leased 5).dev.tst.lease = some { id := 5, kind := 1, unit := 2 } := by decide +kernel

theorem test_field_test_due : (let s := { lab with now := 172800000000000 }
    (Tx.start s).testCut 6 3 = false ∧ (after (.fieldTestDue 6 3) s).dev.tst.cur = some (6, 3, 172800000000000) ∧
    (after (.fieldTestDue 6 3) s).dev.tst.told.at 387 = 172800000000001 ∧ (after (.fieldTestDue 6 3) s).rd TST_STAT_TEST = 6) := by decide +kernel

/-- A second at 100 °C on die 3. -/
theorem test_wear :
    (let s := withDev lab fun d => { d with wear := [(3, { eq := 1000, peak := some 1600, dir := 3 })] }
     let t := after (.wearSample []) s
     (t.dev.wear.at 3).eq = 1774 ∧ (t.dev.wear.at 3).peak = none ∧ t.dev.tst.wearAt = 1000000001) := by decide +kernel

theorem test_log :
    (let s := withDev lab fun d => { d with log := { buf := [leBytes 32 7, leBytes 32 8], seq := 2, head := 5 } }
     let t := after .logFlush s
     t.dev.log.buf = [] ∧ t.dev.log.head = 7 ∧ t.dev.batches = [⟨3, 0x100000 + 160, leBytes 32 7 ++ leBytes 32 8⟩]) ∧
    (let s := { withDev (cfgLab 0x15 [2#8, 0x34#8, 0x12#8]) id with now := 5000000000 }
     let t := after .healthReport s
     (sent s t).map (fun o => (o.port, o.kind, o.data.take 7)) = [("ETH", "HEALTH", [2, 0x1234, 0x88B7, 0x31, 0x54, 0x4C, 0x48])] ∧
       (sent s t).map (·.data.length) = [131] ∧ t.dev.log.health = 5000000001) := by decide +kernel

/-- `s` with its LPDDR5X ready. -/
def memReady (s : State) : State := poke s (((List.range 9).map fun m => (HD_MC_STAT_READY m, 1)) ++ [(HD_MEE_CTL_LOCK, 1)])

/-- A message for the steward with pointer `p` on the channel that offset `o` of the module configuration names. -/
def told (o p : Nat) : State :=
  poke (withDev (cfgLab o [0x9#8]) fun d => { d with mbx := [(9, { slots := [(p, 0)] })] }) [(MBX_CHTAB0_EN 9, 1), (MBX_CHTAB0_RMID 9, 0x710), (MBX_CST_OCC 9, 1)]

theorem test_log_rows :
    (let s := memReady (withDev (told 0x1A 0) fun d => { d with log := { seq := 3, head := 3, stored := 3 } })
     let t := after (.logRead 1 8 0xFB000000) s
     ((Tx.start s).stewardTake 0x1A).isSome = true ∧ goes (.logRead 1 8 0xFB000000) s = true ∧ (sent s t).map (fun o => (o.kind, o.data)) = [("LOG_REPLY", [1, 2])]) ∧
    (let e := leBytes 14 0 ++ [0x20#8] ++ leBytes 17 0
     let s := memReady (store (told 0x1B 0x1000) 0x1000 e)
     ((Tx.start s).stewardTake 0x1B).isSome = true ∧ (after .softwareLogEntry s).dev.log.soft = 1 ∧ (after .softwareLogEntry s).dev.log.lost = 0 ∧
       (after .softwareLogEntry s).dev.log.second = 1 ∧ (after .softwareLogEntry s).dev.log.buf.length = 1) := by decide +kernel

theorem test_batches :
    (let b : Batch := ⟨1, 0x80000, leBytes 32 (7 * 2 ^ 96)⟩
     let s (e : Nat) := withDev (poke lab [(HUP_E_EAVAIL, e), (HUP_P_PMAX1, 500)]) fun d => { d with batches := [b] }
     nextBatch [b] = some b ∧ (after .mramBatch (s 9000)).dev.batch = some b ∧ (after .mramBatch (s 3001)).dev.batches = [b] ∧
       (after .mramBatch (s 3001)).rd HUP_STAT_DEFER = 1 ∧ (after .mramBatch (s 3001)).rd HD_DMAP_JDEF_JDEF = 1 ∧
     (let t := after .mramBatchDone (withDev lab fun d => { d with batch := some b })
      t.dev.batch = none ∧ t.rd HD_DMAP_JSEQ_SEQ = 7 ∧ t.byte (mramBase + 0x80000 + 12) = 7#8)) := by decide +kernel

/-! Resets, boot, updates and debug. -/

theorem test_reset_commands : lab.reaches stw.toNat RST_CMD = true ∧ lab.reaches 3 RST_CMD = true ∧ lab.dev.sec.rst = none ∧
    (let t := after (.rstWarm 3) lab
     t.dev.sec.rst = some ⟨3, rstDoms 3 0, 1000010000⟩ ∧ t.rd RST_STAT_CAUSE = 6 ∧ t.on 14 = false ∧ t.on 17 = true) ∧
    (after (.rstModule 3) lab).rd RST_STAT_CMDREF = 1 ∧ (after (.rstCluster 3 3) lab).rd RST_STAT_CMDREF = 1 ∧
    (after (.rstCluster 3 2) lab).dev.sec.rst = some ⟨4, [6], 1000010000⟩ ∧
    (let s := withDev lab fun d => { d with sec := { d.sec with rst := some ⟨4, [6], 1000000500⟩ } }
     s.reaches stw.toNat RST_CMD = true ∧ (after (.rstDie stw 1) s).dev.sec.rst = some ⟨4, 6 :: rstDoms 5 1, 1000000500⟩) := by decide +kernel

theorem test_module_reset :
    (let s := poke lab [(DBG_STAT_SESS, 1), (DBG_STAT_LEVEL, 2)]
     let t := after (.rstModule stw) s
     t.rd RST_STAT_CAUSE = 3 ∧ t.rd DBG_STAT_LEVEL = 0 ∧ t.rd DBG_STAT_SESS = 0 ∧ (t.dev.sec.rst.map (·.doms.length)) = some 70) ∧
    (after .modRstN lab).rd RST_STAT_CAUSE = 2 ∧ (after .stewardWatchdog lab).rd RST_STAT_CAUSE = 4 ∧ lab.dev.pba.dark = false ∧ lab.on domSTW = true := by decide +kernel

/-- A reset of kind `kind` that is to be released now. -/
def inReset (kind : Nat) (doms : List Nat) : State := withDev lab fun d => { d with sec := { d.sec with rst := some ⟨kind, doms, 1000000000⟩ } }

theorem test_reset_release :
    (let s := withDev (inReset 3 [13, 14]) fun d => { d with trj := { d.trj with egress := [{ seq := 7 }] } }
     let t := after .resetRelease s
     t.dev.sec.rst = none ∧ t.rd RST_CNT_WARMS = 1 ∧ t.dev.trj.egress = [] ∧ after .resetRelease { s with now := 5 } = { s with now := 5 }) ∧
    (after .resetRelease (withDev (inReset 2 [14]) fun d => { d with pwr := [(14, .on)] })).rd RST_CNT_MODULES = 1 := by decide +kernel

theorem test_power_on :
    (let s := withDev (poke (store (store lab 0x1000 [1#8]) mramBase [2#8]) [(PBA_CTL_BUDGET, 4000)]) fun d => { d with pba := { d.pba with dark := true }, log := { d.log with boot := 6, seq := 9 } }
     let t := after .powerOnReset s
     t.now = 0 ∧ t.byte 0x1000 = 0#8 ∧ t.byte mramBase = 2#8 ∧ t.dev.log.boot = 7 ∧ t.dev.log.seq = 9 ∧ t.dev.pwr = [] ∧ t.regs = []) := by decide +kernel

theorem test_domain_powered :
    (let s := poke (withDev lab fun d => { d with pwr := d.pwr.put 13 .powering }) [(PBA_DOM_STATE 13, 1)]
     (Tx.start s).comingUp 13 = true ∧ (Tx.start s).mayRun 13 = true ∧ (Tx.start s).inReset 13 = false ∧
     (after (.domainPowered 13) s).rd (PBA_DOM_STATE 13) = 2 ∧ (after (.domainPowered 13) s).dev.pwr.at 13 = .on) := by decide +kernel

theorem test_boot_stream : (let s := poke (withDev lab fun d => { d with sec := { d.sec with boot := 2 } }) [(clpLink 1, 1)]
    s.on domSTW = true ∧ s.dev.sec.boot ≠ 0 ∧ s.dev.tst.hubBad = false ∧ s.rd (clpLink 1) = 1 ∧ s.rd (MIR_STATE_STATE 1) = 0) := by decide +kernel

/-- A Cleat in BOOT takes what a frame brings. -/
theorem test_stream :
    (let s := withDev lab fun d => { d with cleat := [(1, { lseq := some 5 })] }
     s.cleatRuns 1 = true ∧ s.inSeq 1 5 = true ∧ (s.cleatHears 1 0 5).st = .boot ∧ (s.cleatHears 1 0 5).spb = none ∧
     ((after (.spb 1 0 5 [3#8, 4#8]) s).dev.cleat.at 1).stream = [3#8, 4#8]) := by decide +kernel

/-- A whole stream of empty objects has its length. -/
theorem test_stream_length : (let bs : List Byte := leBytes 4 0x5A534F31 ++ List.replicate 16444 0#8
    0x1000 ≤ bs.length ∧ fld bs 0 4 = 0x5A534F31 ∧ objLength bs = 0 ∧ 0x1000 + 0x1000 ≤ bs.length ∧ 0x1000 + 0x1000 + objLength (bs.drop 0x1000) + 0x2000 + 64 ≤ bs.length) := by
  decide +kernel

theorem test_updates : lab.reaches stw.toNat SEC_UPDCMD = true ∧ lab.dev.sec.upd ≠ 1 ∧ (Tx.start lab).trials = [] ∧
    (let t := after (.activate stw) lab
     t.rd SEC_UPDSTAT_STATE = 3 ∧ t.rd SEC_UPDSTAT_CODE = 4) ∧
    (after (.commit stw) lab).rd SEC_UPDSTAT_CODE = 4 ∧ (after (.revert stw) lab).rd SEC_UPDSTAT_STATE = 2 ∧ (after (.revert stw) lab).rd SEC_STAT_UPDDONE = 1 ∧
    (let s := withDev lab fun d => { d with sec := { d.sec with upd := 1 } }
     s.reaches stw.toNat SEC_UPDCMD = true ∧ (after (.stage stw) s).rd SEC_UPDSTAT_CODE = 3 ∧ (after (.stage stw) s).rd SEC_STAT_CMDREF = 1) ∧
    (let s := poke lab [(SEC_UPD_HI_ADDR, 0xFF)]
     (Tx.start s).stagedObject = none ∧ (after (.stage stw) s).rd SEC_UPDSTAT_CODE = 1) := by decide +kernel

/-- The calibration is a trial that runs: copy B. -/
def trialing : State := withDev lab fun d => { d with sec := { d.sec with bcr := [(3, 15)], sel := [(4, 2)] } }

theorem test_trials : trialing.reaches stw.toNat SEC_UPDCMD = true ∧ (Tx.start trialing).trials = [4] ∧ (Tx.start trialing).runsPreferred 4 = true ∧
    (after (.activate stw) trialing).dev.sec.pend = true ∧ (after (.activate stw) trialing).rd SEC_UPDSTAT_PEND = 1 ∧
    (after (.activate stw) trialing).rd SEC_UPDSTAT_STATE = 2 := by decide +kernel

/-- An object of 0 bytes at 0x1000 is read whole. -/
theorem test_staged_object :
    (let s := poke (poke lab [(SEC_UPD_LO_ADDR, 0x1000)]) (((List.range 9).map fun m => (HD_MC_STAT_READY m, 1)) ++ [(HD_MEE_CTL_LOCK, 1)])
     s.reaches stw.toNat SEC_UPDCMD = true ∧ (Tx.start s).stagedObject = some (List.replicate 0x1000 0#8, []) ∧ (after (.stage stw) s).rd SEC_UPDSTAT_CODE = 1) := by decide +kernel

theorem test_stage_done : (let s := withDev lab fun d => { d with sec := { d.sec with upd := 1, stage := some (4, [1#8]) } }
    s.dev.sec.stage = some (4, [1#8]) ∧ s.dev.sec.upd = 1 ∧ s.on domSTW = true ∧ s.on domSEC = true) := by decide +kernel

theorem test_token : lab.on domSTW = true ∧ lab.on domSEC = true ∧ after (.lifecycleToken [1#8] 3) lab = lab ∧
    programmedBits 0 1 9 [] = [(0, 9)] ∧ programmedBits 1 3 20 [(0, 16)] = [(0, 16), (1, 16), (2, 4)] := by decide +kernel

/-- A response of the wrong length fails; the eighth in a row locks the port for a minute. -/
theorem test_dbgauth : lab.rd DBG_STAT_LOCKOUT = 0 ∧ lab.on domSEC = true ∧
    (let t := after (.dbgauth 1 [0#8]) lab
     t.rd DBG_STAT_AUTHFAIL = 1 ∧ t.dev.dbg.fails = 1 ∧ t.rd DBG_AUTHCNT_COUNT = 1 ∧ t.rd DBG_STAT_LOCKOUT = 0) ∧
    (let t := after (.dbgauth 1 [0#8]) (withDev lab fun d => { d with dbg := { d.dbg with fails := 7 } })
     t.rd DBG_STAT_LOCKOUT = 1 ∧ t.dev.dbg.fails = 0 ∧ t.dev.dbg.lockEnd = 61000000000) := by decide +kernel

theorem test_sessions :
    (let s := withDev (poke lab [(DBG_STAT_SESS, 1), (DBG_STAT_LEVEL, 3), (DBG_STAT_LOCKOUT, 1)]) fun d => { d with dbg := { d.dbg with lockEnd := 1000000000 } }
     (after .sessionClose s).rd DBG_STAT_LEVEL = 0 ∧ (after .sessionClose s).rd DBG_STAT_SESS = 0 ∧ after .sessionExpire s = s ∧
     (after .sessionExpire { s with now := 14400000000000 }).rd DBG_STAT_SESS = 0 ∧ (after .lockoutEnd s).rd DBG_STAT_LOCKOUT = 0) := by decide +kernel

theorem test_halts :
    (let s := poke lab [(DBG_STAT_LEVEL, 2)]
     (Tx.start lab).mayHalt 5 = false ∧ (Tx.start s).mayHalt 5 = true ∧ ((Tx.start s).target 5).halted = false ∧ s.on (targetDom 5) = true ∧ (Tx.start s).mayHalt 24 = false ∧
     after (.haltRequest 24 0) s = s ∧ ((after (.haltRequest 5 0) s).dev.harts.at 5).halted = true ∧
     ((after (.haltRequest 5 7000) s).dev.harts.at 5).haltAt = 1000001001 ∧ (after (.haltRequest 5 7000) s).rd (haltBit 5) = 1 ∧
     (after (.resumeRequest 5) (after (.haltRequest 5 7000) s)).rd (haltBit 5) = 0 ∧
     ((after (.resumeRequest 5) (after (.haltRequest 5 0) s)).dev.harts.at 5).halted = false) := by decide +kernel

theorem test_gate_change : lab.on domFAB = true ∧ lab.rd (clpGate 0) = 0 ∧
    (let s := withDev (poke lab [(DBG_STAT_SESS, 1), (DBG_STAT_LEVEL, 2)]) fun d => { d with harts := [(3, { halted := true })] }
     let t := after (.gateChange 0 true) s
     t.rd (clpGate 0) = 1 ∧ t.rd CLP_STAT_GXA = 1 ∧ t.rd DBG_STAT_LEVEL = 1 ∧ t.rd DBG_STAT_DROP = 1 ∧ (t.dev.harts.at 3).halted = false ∧
     (after (.gateChange 0 false) t).rd (clpGate 0) = 0) := by decide +kernel

/-! Mailboxes and interrupts. -/

/-- Channel 12 from the steward to hart 3, with these messages and this held tag; its counters agree. -/
def mbxLab (slots : List (Nat × Nat)) (held : Option Nat := none) : State :=
  poke (withDev lab fun d => { d with mbx := [(12, { slots := slots, held := held })] })
    [(MBX_CHTAB0_EN 12, 1), (MBX_CHTAB0_SMID 12, 0x710), (MBX_CHTAB0_RMID 12, 3), (MBX_CST_OCC 12, slots.length), (MBX_CNT_POSTS 12, slots.length)]

theorem test_post : (mbxLab []).reaches stw.toNat (MBX_STAG 12) = true ∧ (mbxLab []).rd (MBX_CHTAB0_EN 12) = 1 ∧ (mbxLab []).rd (MBX_CHTAB0_SMID 12) = stw.toNat ∧
    (let t := after (.mbxStag stw 12 0x55) (pokeW (mbxLab []) [(MBX_SPTR_LO 12, 0x9000)])
     (t.dev.mbx.at 12).slots = [(0x9000, 0x55)] ∧ t.pair (MBX_RPTR_LO 12) = 0x9000 ∧ t.word (MBX_RTAG 12) = 0x55 ∧ t.rd (MBX_CNT_POSTS 12) = 1) ∧
    (let t := after (.mbxStag stw 12 0x55) (mbxLab [(1, 1), (2, 2), (3, 3), (4, 4)])
     (mbxLab [(1, 1), (2, 2), (3, 3), (4, 4)]).reaches stw.toNat (MBX_STAG 12) = true ∧ (t.dev.mbx.at 12).held = some 0x55 ∧ t.rd (MBX_CST_HELD 12) = 1 ∧ t.rd (MBX_CST_OCC 12) = 4) ∧
    (let t := after (.mbxStag 3 12 0x55) (mbxLab [])
     (mbxLab []).reaches 3 (MBX_STAG 12) = true ∧ t.rd MBX_STAT_IDERR = 1 ∧ t.rd MBX_ELOG_MID = 3 ∧ t.rd MBX_ELOG_CH = 12 ∧ t.rd MBX_ELOG_OFS = 2) := by decide +kernel

theorem test_pop : (mbxLab []).reaches 3 (MBX_RPOP 12) = true ∧ (mbxLab []).rd (MBX_CHTAB0_RMID 12) = 3 ∧ after (.mbxRpop 3 12 2) (mbxLab []) = mbxLab [] ∧
    (after (.mbxRpop 3 12 1) (mbxLab [])).rd MBX_STAT_CMDREF = 1 ∧
    (after (.mbxRpop 3 12 1) (mbxLab [(7, 8), (9, 9)])).dev.mbx.at 12 = { slots := [(9, 9)] } ∧
    (let t := after (.mbxRpop 3 12 1) (mbxLab [(1, 1), (2, 2), (3, 3), (4, 4)] (some 0x66))
     (t.dev.mbx.at 12).slots = [(2, 2), (3, 3), (4, 4), (0, 0x66)] ∧ t.rd (MBX_CST_HELD 12) = 0 ∧ t.rd (MBX_CNT_POSTS 12) = 5 ∧ t.rd (MBX_CNT_POPS 12) = 1) ∧
    (after (.mbxRpop stw 12 1) (mbxLab [(7, 8)])).rd MBX_ELOG_OFS = 7 := by decide +kernel

/-- The books of every channel agree in this state. -/
theorem test_books : (let s := mbxLab [(7, 8), (9, 9)]
    ∀ k < 256, (s.rd (MBX_CNT_POSTS k) + 2 ^ 16 - s.rd (MBX_CNT_POPS k)) % 2 ^ 16 = s.rd (MBX_CST_OCC k) ∧
      s.rd (MBX_CST_OCC k) = (s.dev.mbx.at k).slots.length ∧ s.rd (MBX_CST_OCC k) ≤ 4) := by decide +kernel

/-- Source 38 rises to identity 9 of hart 4. -/
def irqLab : State := withDev (poke lab [(IRQ_CTL_PCIEN, 3)]) fun d =>
  { d with irq := { m := { ie := true, cfg := [(38, 4)], en := [(38, true)], target := [(38, 4 * 2 ^ 18 + 9)] } }, pcie := [(0, 4), (1, 4)] }

theorem test_level : irqLab.on domFAB = true ∧ sourceOk 38 = true ∧ (irqLab.dev.irq.mode 38) = (false, 4) ∧ irqLab.dev.irq.level.at 38 = false ∧
    (after (.interruptLevel 38 true) irqLab).dev.irq.files.at (fileKey false 4) = [9] := by decide +kernel

theorem test_files :
    (after (.seteipnum 3 true 4 9) irqLab).dev.irq.files.at 36 = [9] ∧ after (.seteipnum 3 true 4 256) irqLab = irqLab ∧
    (after (.genmsi stw false 0x100009) irqLab).dev.irq.files.at 4 = [9] ∧ (after (.genmsi stw false (24 * 2 ^ 18)) irqLab).rd IRQ_STAT_MSIREF = 1 ∧
    (after (.sourcecfgWrite stw false 38 0x400) irqLab).dev.irq.m.cfg.at 38 = 0x400 ∧ (after (.sourcecfgWrite stw false 38 5) irqLab).dev.irq.m.cfg.at 38 = 0 ∧
    (after (.msiCapture 1 7 3 0xFEE0002000 9) irqLab).dev.irq.files.at 34 = [9] ∧ (after (.msiCapture 1 7 3 0xFEE0002000 256) irqLab).rd IRQ_MSIREFCNT_COUNT = 1 ∧
    irqLab.on domNET = true ∧ irqLab.dev.pcie.at 1 ≠ 0 ∧ bit (irqLab.rd IRQ_CTL_PCIEN) 1 = true := by decide +kernel

theorem test_claim :
    (let s := withDev lab fun d => { d with irq := { files := [(36, [200, 40, 7])] } }
     (after (.claim 4 true 0 [40, 200]) s).dev.irq.files.at 36 = [200, 7] ∧ (after (.claim 4 true 7 [40, 200, 7]) s).dev.irq.files.at 36 = [200, 40, 7] ∧
     ((after (.interruptTaken 4 true false false true 0 [40]) s).dev.harts.at 4).trap = some (2 ^ 63 + 9, 0) ∧
     ((after (.interruptTaken 4 true false true true 0 [40]) s).dev.harts.at 4).trap = none ∧ (Tx.start s).hartOn 4 = true) := by decide +kernel

theorem test_timers :
    (let s := pokeW lab [(MTIMECMP_LO 1 2, 1000000000), (MTIMECMP_HI 1 2, 0)]
     ((after (.machineTimer 10) s).dev.harts.at 10).mtip = true ∧ ((after (.machineTimer 10) { s with now := 999999999 }).dev.harts.at 10).mtip = false ∧
     ((after (.supervisorTimer 10 1000000001) s).dev.harts.at 10).stip = false ∧ (Tx.start s).hartOn 10 = true) := by decide +kernel

/-! Ports and harts. -/

/-- An entry of CAN identifier 0x123 with two bytes, to be launched at `l`. -/
def canEntry (l : Nat) : List Byte := leBytes 4 0x123 ++ leBytes 4 2 ++ leBytes 8 l ++ leBytes 16 0 ++ [0xAA#8, 0xBB#8] ++ List.replicate 94 0#8
/-- A port with this entry fetched, at ring index 0 of 1. -/
def canRing (x : CanTx) (fs : List (FRef × Nat) := []) : State :=
  poke (withDev lab fun d => { d with can := [(2, x)] }) ([(CAN_CTL_EN 2, 1), (CAN_PTR_DBTAIL 2, 1)] ++ fs)

theorem test_can_ring : lab.reaches 3 (CAN_DB 2) = true ∧ (after (.canDoorbell 3 2 16) lab).rd (CAN_STAT_CMDREF 2) = 1 ∧
    (after (.canDoorbell 3 2 15) lab).rd (CAN_PTR_DBTAIL 2) = 15 ∧ (after (.canDoorbell 3 2 0) (poke lab [(CAN_PTR_DBTAIL 2, 1)])).rd (CAN_STAT_CMDREF 2) = 1 ∧
    (let s := canRing { entry := some (canEntry 999999999, true) }
     (sent s (after (.canLaunch 2) s)).map (fun o => (o.kind, o.data)) = [("FRAME", [2, 0x123, 0xAA, 0xBB])] ∧ (s.dev.can.at 2).sof = 0 ∧
       s.rd (CAN_STAT_ERRSTATE 2) ≠ 2 ∧ ((after (.canLaunch 2) s).dev.can.at 2).sof = 1000000001) := by decide +kernel

theorem test_can_sent :
    (let s := canRing { entry := some (canEntry 0, false), sof := 999990001 }
     let u := (Tx.start s).canStatus 2 0 1 (some 999995000)
     (0 + 1) % 2 ^ u.canLog 2 = u.rd (CAN_PTR_DBTAIL 2) ∧
     (after (.canFrameSent 2 3 999995000) s).rd (CAN_PTR_HEAD 2) = 1 ∧ (after (.canFrameSent 2 3 999995000) s).rd (CAN_CNT_SENT 2) = 1 ∧
     ((after (.canFrameSent 2 3 999995000) s).dev.can.at 2).entry = none ∧ s.rd (CAN_PTR_HEAD 2) = 0) := by decide +kernel

theorem test_can_halts :
    (let s := canRing { sof := 0 }
     (after (.busOff 2) s).rd (CAN_STAT_HALT 2) = 1 ∧ (after (.busOff 2) s).rd (CAN_STAT_ERRSTATE 2) = 2 ∧ s.rd (CAN_CTL_EN 2) = 1) ∧
    lab.reaches 3 (CAN_CMD 2) = true ∧ (after (.canResume 3 2) lab).rd (CAN_STAT_CMDREF 2) = 1 ∧
    (let s := canRing { halted := true } [(CAN_PTR_HEAD 2, 1), (CAN_STAT_ERRSTATE 2, 2), (CAN_ERR_TEC 2, 256)]
     s.reaches 3 (CAN_CMD 2) = true ∧ ((after (.canResume 3 2) s).dev.can.at 2).halted = false ∧ (after (.canResume 3 2) s).rd (CAN_ERR_TEC 2) = 0 ∧
       s.rd (CAN_PTR_HEAD 2) = s.rd (CAN_PTR_DBTAIL 2) ∧ ((after (.canAbort 3 2) s).dev.can.at 2).halted = false) ∧
    (let s := canRing { entry := some (canEntry 0, false), sof := 5 }
     ((after (.canAbort 3 2) s).dev.can.at 2).aborting = true ∧ (s.rd (CAN_PTR_HEAD 2) + 1) % 2 ^ (Tx.start s).canLog 2 = s.rd (CAN_PTR_DBTAIL 2)) := by decide +kernel

theorem test_ethernet :
    (let s := poke lab [(ETH_PSTAT_CFG 3, 1)]
     s.on domNET = true ∧ s.rd (ETH_PSTAT_CFG 3) = 1 ∧ s.rd (ETH_PSTAT_LINK 3) = 0 ∧ (after (.ethLinkChange 3 true) s).rd (ETH_PSTAT_LINK 3) = 1 ∧
     (after (.ethLinkChange 3 true) s).rd (ETH_PSTAT_LINKCHG 3) = 1 ∧ (after (.ethFrameDrop 3 true) s).rd (ETH_PCNT_FCSCNT 3) = 1 ∧
     (after (.ethFrameDrop 3 false) s).rd (ETH_PCNT_RXDROP 3) = 1) := by decide +kernel

theorem test_pcie :
    (let s := withDev lab fun d => { d with perst := [(1, true)] }
     (after (.pcieLinkChange 1 2 false) s).dev.pcie.at 1 = 2) ∧
    (after (.perstRelease 1 900000000) lab).dev.perst.at 1 = true ∧ (after (.perstRelease 1 900000001) lab).dev.perst.at 1 = false ∧
    lab.dev.perst.at 1 = false ∧ lab.dev.refclk.at 1 = 0 := by decide +kernel

/-- A requester of context 0 reads and writes scratch through the hub's translation unit. -/
def pcieLab : State := withDev labM fun d => { d with pcie := [(0, 4)] }

theorem test_pcie_request : pcieLab.on domNET = true ∧ pcieLab.on domFAB = true ∧ pcieLab.dev.pcie.at 0 ≠ 0 ∧
    (Tx.start pcieLab).vWrite 4 0 0xD07 0x1000 [1#8, 2#8] matches (_, .ok ()) ∧
    (Tx.start pcieLab).vRead 4 0 0xD07 0x1000 2 matches (_, .ok [0#8, 0#8]) ∧
    (sent pcieLab (after (.pcieInboundRequest 0 7 0 0x1000 2 none) pcieLab)).map (·.data) = [[0, 0, 0]] ∧
    goes (.pcieInboundRequest 0 7 0 0x1000 2 (some [1#8, 2#8])) pcieLab = true := by decide +kernel

/-- Scratch that hart 3 uses, with the word 5 at its base. -/
def hartLab (x : HartSt := {}) : State := store (withDev (poke lab [(HD_SC_STAT_SCRACT, 8)]) fun d => { d with harts := [(3, x)] }) scrBase [5#8]

theorem test_hart_reads : (Tx.start hartLab).hartOn 3 = true ∧ regionOf scrBase = .main ∧ (Tx.start hartLab).physRead 3 scrBase 4 matches .ok [5#8, 0#8, 0#8, 0#8] ∧
    (sent hartLab (after (.hartMemoryAccess 3 (.load 4) 77 (BitVec.ofNat 48 scrBase)) hartLab)).map (·.data) = [[3, 5, 0, 0, 0]] ∧
    (sent hartLab (after (.hartMemoryAccess 3 (.lr false) 77 (BitVec.ofNat 48 scrBase)) hartLab)).map (·.data) = [[3, 5]] ∧
    ((after (.hartMemoryAccess 3 (.lr false) 77 (BitVec.ofNat 48 scrBase)) hartLab).dev.harts.at 3).resv = some (scrBase / 64) := by decide +kernel

theorem test_hart_writes : scrBase % 8 = 0 ∧ (Tx.start hartLab).physWrite 3 scrBase [9#8] matches (_, .ok ()) ∧
    (after (.hartMemoryAccess 3 (.store [9#8]) 77 (BitVec.ofNat 48 scrBase)) hartLab).byte scrBase = 9#8 ∧ (Tx.start hartLab).physLE 3 scrBase 4 = some 5 ∧
    (after (.hartMemoryAccess 3 (.amo 1 false 3) 77 (BitVec.ofNat 48 scrBase)) hartLab).byte scrBase = 8#8 ∧
    (let s := hartLab { resv := some (scrBase / 64) }
     (after (.hartMemoryAccess 3 (.sc false 6) 77 (BitVec.ofNat 48 scrBase)) s).byte scrBase = 6#8 ∧
     (sent s (after (.hartMemoryAccess 3 (.sc false 6) 77 (BitVec.ofNat 48 scrBase)) s)).map (·.data) = [[3, 0]]) ∧
    (sent hartLab (after (.hartMemoryAccess 3 (.sc false 6) 77 (BitVec.ofNat 48 scrBase)) hartLab)).map (·.data) = [[3, 1]] ∧
    after (.hartMemoryAccess 3 .cboClean 77 (BitVec.ofNat 48 scrBase)) hartLab = hartLab := by decide +kernel

theorem test_hart_traps :
    ((after (.hartMemoryAccess 3 (.amo 1 true 3) 77 0x1004) lab).dev.harts.at 3).trap = some (6, 77) ∧
    ((after (.hartMemoryAccess 3 (.lr true) 77 0x1004) lab).dev.harts.at 3).trap = some (4, 77) ∧ regionOf 0xFFFFFFFFFFFF = .none ∧
    ((after (.hartMemoryAccess 3 (.load 4) 77 0xFFFFFFFFFFFF) lab).dev.harts.at 3).trap = some (5, 77) ∧
    ((after (.hartMemoryAccess 3 (.fetch 4) 77 0xFFFFFFFFFFFF) lab).dev.harts.at 3).trap = some (1, 77) ∧
    (let s := hartLab { halted := true }
     after (.hartMemoryAccess 3 (.store [9#8]) 77 (BitVec.ofNat 48 scrBase)) s = s) := by decide +kernel

end Sys2Proof.Tests
end

section
/-! SUPPORT.  The step scheduler under a command's work: its contexts, the register that shows one, and the state in which a stop leaves it
(R182, R196, R200). -/

namespace Sys2Proof.Machine

/-! ### Contexts -/

@[simp] theorem Tx.ctxOf_setWord (t : Tx) (a w d c : Nat) : (t.setWord a w).ctxOf d c = t.ctxOf d c := rfl
@[simp] theorem Tx.ctxOf_wr (t : Tx) (f : FRef) (v d c : Nat) : (t.wr f v).ctxOf d c = t.ctxOf d c := rfl
@[simp] theorem Tx.ctxOf_showCtx (t : Tx) (d c d' c' : Nat) : (t.showCtx d c).ctxOf d' c' = t.ctxOf d' c' := rfl
@[simp] theorem Tx.ctxOf_notice (t : Tx) (k : Nat) (data : List Nat) (d c : Nat) : (t.notice k data).ctxOf d c = t.ctxOf d c := rfl

theorem State.commit_ctx (s : State) (t : Tx) (d c : Nat) : (s.commit t).ctx d c = t.ctxOf d c := rfl

theorem State.start_ctx (s : State) (d c : Nat) : (Tx.start s).ctxOf d c = s.ctx d c := rfl

theorem Tx.schOf_onSch (t : Tx) (d d' : Nat) (f : Sch → Sch) :
    (t.onSch d f).schOf d' = if d' = d then f (t.schOf d) else t.schOf d' := Tab.at_upd

/-- A context changed by `f`, and no other. -/
theorem Tx.ctxOf_onCtx (t : Tx) (d c d' c' : Nat) (f : Sctx → Sctx) :
    (t.onCtx d c f).ctxOf d' c' = if d' = d ∧ c' = c then f (t.ctxOf d c) else t.ctxOf d' c' := by
  unfold Tx.ctxOf Tx.onCtx
  rw [Tx.schOf_onSch]
  by_cases hd : d' = d
  · by_cases hc : c' = c
    · simp [hd, hc]
    · simp [hd, hc, Tab.at_upd]
  · simp [hd]

@[simp] theorem Tx.ctxOf_onCtx_self (t : Tx) (d c : Nat) (f : Sctx → Sctx) : (t.onCtx d c f).ctxOf d c = f (t.ctxOf d c) := by
  rw [Tx.ctxOf_onCtx, if_pos ⟨rfl, rfl⟩]

@[simp] theorem Tx.ctxOf_irq (t : Tx) (i d c : Nat) (h : 128 ≤ i) : (t.irq i).ctxOf d c = t.ctxOf d c := by
  unfold Tx.irq
  rw [if_neg (by omega)]
  split <;> rfl

/-- A context that stops stands in the state it was given. -/
theorem Tx.raiseStop_st (t : Tx) (d c code step : Nat) (st : CtxState) : ((t.raiseStop d c st code step).ctxOf d c).st = st := by
  unfold Tx.raiseStop Tx.ringIrq
  rw [Tx.ctxOf_showCtx]
  split <;> simp [show 128 ≤ 128 + 16 * d + c by omega]

theorem Tx.stopAtFetch_st (t : Tx) (d c code : Nat) (st : CtxState) : ((t.stopAtFetch d c code st).ctxOf d c).st = st :=
  Tx.raiseStop_st ..

/-! ### The context's register -/

/-- CD_SCH_CTX shows the context's state (R200). -/
theorem Tx.showCtx_state (t : Tx) (d c : Nat) : (t.showCtx d c).rd (CD_SCH_CTX_STATE d c) = (t.ctxOf d c).st.code := by
  have hcode : (t.ctxOf d c).st.code < 8 := by cases (t.ctxOf d c).st <;> decide
  unfold Tx.showCtx
  rw [Tx.rd_wr_other _ _ _ _ (by simp only [CD_SCH_CTX_STATE, CD_SCH_RRAUD_RESIDENT, CD_SCH_CTX, CD_SCH_RRAUD]; omega),
    Tx.rd_wr_other _ _ _ _ (by simp only [CD_SCH_CTX_STATE, CD_SCH_STAT_BUSYCTX, CD_SCH_CTX, CD_SCH_STAT]; omega),
    Tx.rd_wr_apart _ _ _ _ (by simp [CD_SCH_CTX_NEXT]) (by simp [CD_SCH_CTX_NEXT, CD_SCH_CTX_STATE]),
    Tx.rd_wr_apart _ _ _ _ (by simp [CD_SCH_CTX_RRSLOT]) (by simp [CD_SCH_CTX_RRSLOT, CD_SCH_CTX_STATE]),
    Tx.rd_wr_self _ _ _ (by simp [CD_SCH_CTX_STATE])]
  exact Nat.mod_eq_of_lt hcode

/-- Showing a context writes no other register than CD_SCH_CTX, CD_SCH_STAT and CD_SCH_RRAUD. -/
theorem Tx.showCtx_word_other (t : Tx) (d c a : Nat) (h1 : a ≠ CD_SCH_CTX d c) (h2 : a ≠ CD_SCH_STAT d) (h3 : a ≠ CD_SCH_RRAUD d) :
    (t.showCtx d c).word a = t.word a := by
  unfold Tx.showCtx
  rw [Tx.word_wr_other _ _ _ _ h3, Tx.word_wr_other _ _ _ _ h2, Tx.word_wr_other _ _ _ _ h1, Tx.word_wr_other _ _ _ _ h1,
    Tx.word_wr_other _ _ _ _ h1]

theorem Tx.rd_setWord_other (t : Tx) (a w : Nat) (f : FRef) (h : f.addr ≠ a) : (t.setWord a w).rd f = t.rd f := by
  unfold Tx.rd
  rw [Tx.word_setWord, if_neg h]

end Sys2Proof.Machine
end

section
/-! SUPPORT.  A die's own read, and what it is charged (R222, R253), leave the die's step scheduler alone. -/

namespace Sys2Proof.Machine

/-- The registers of die `d`'s step scheduler: its block of 4 KiB (R625). -/
def SchReg (d a : Nat) : Prop := cdBase d + 0x10000 ≤ a ∧ a < cdBase d + 0x11000

/-- From `t` to `u` the schedulers' state and the registers of die `d`'s scheduler stand. -/
structure Tx.KeepsSch (d : Nat) (t u : Tx) : Prop where
  sch : u.d.sch = t.d.sch
  word : ∀ a, SchReg d a → u.word a = t.word a

namespace Tx.KeepsSch

theorem refl (d : Nat) (t : Tx) : KeepsSch d t t := ⟨rfl, fun _ _ => rfl⟩

theorem trans {d : Nat} {t u v : Tx} (h : KeepsSch d t u) (k : KeepsSch d u v) : KeepsSch d t v :=
  ⟨k.sch.trans h.sch, fun a ha => (k.word a ha).trans (h.word a ha)⟩

theorem ctxOf {d : Nat} {t u : Tx} (h : KeepsSch d t u) (d' k : Nat) : u.ctxOf d' k = t.ctxOf d' k := by
  unfold Tx.ctxOf Tx.schOf
  rw [h.sch]

theorem setWord {d a : Nat} {t : Tx} (w : Nat) (ha : ¬ SchReg d a) : KeepsSch d t (t.setWord a w) :=
  ⟨rfl, fun b hb => by rw [Tx.word_setWord, if_neg fun e : b = a => ha (e ▸ hb)]⟩

theorem wr {d : Nat} {t : Tx} {f : FRef} (v : Nat) (hf : ¬ SchReg d f.addr) : KeepsSch d t (t.wr f v) := setWord _ hf

theorem setPair {d a : Nat} {t : Tx} (v : Nat) (h0 : ¬ SchReg d a) (h4 : ¬ SchReg d (a + 4)) : KeepsSch d t (t.setPair a v) :=
  (setWord _ h0).trans (setWord _ h4)

theorem incPair {d a : Nat} {t : Tx} (k : Nat) (h0 : ¬ SchReg d a) (h4 : ¬ SchReg d (a + 4)) : KeepsSch d t (t.incPair a k) :=
  setPair _ h0 h4

/-- The same of the work that a pair holds. -/
theorem fst {β : Type} {d : Nat} {t u : Tx} {p : Tx × β} {b : β} (h : KeepsSch d t p.1) (e : p = (u, b)) : KeepsSch d t u := by
  subst e; exact h

/-- Work done in a row leaves the scheduler alone when each piece does. -/
theorem foldl {α β : Type} {d : Nat} {f : Tx × β → α → Tx × β} (hf : ∀ p x, KeepsSch d p.1 (f p x).1) (xs : List α) (p : Tx × β) :
    KeepsSch d p.1 (xs.foldl f p).1 :=
  List.foldlRecOn xs f (motive := fun q => KeepsSch d p.1 q.1) (refl d p.1) fun q h x _ => h.trans (hf q x)

theorem each {α : Type} {d : Nat} {f : Tx → α → Tx} (hf : ∀ t x, KeepsSch d t (f t x)) (xs : List α) (t : Tx) : KeepsSch d t (t.each xs f) :=
  List.foldlRecOn xs f (motive := KeepsSch d t) (refl d t) fun u h x _ => h.trans (hf u x)

end Tx.KeepsSch

theorem not_schReg_actPair (d cls k : Nat) : ¬ SchReg d (actPair d cls k) ∧ ¬ SchReg d (actPair d cls k + 4) := by
  simp only [SchReg, actPair, CD_ACT_BRD_LO]
  omega

/-- The hub's registers are no scheduler's. -/
theorem not_schReg_of_hub (d : Nat) {a : Nat} (h : a < cdBase 0) : ¬ SchReg d a := by
  simp only [SchReg, cdBase] at *
  omega

/-- The registers of die `d`'s translation unit are not its scheduler's. -/
theorem not_schReg_xlt (d o : Nat) (h : o < 0x1000) : ¬ SchReg d (xltBase d + o) := by
  unfold SchReg xltBase
  split <;> simp only [cdBase, hdBase] <;> omega

theorem Tx.keepsSch_chargeBytes (t : Tx) (d cls pa n : Nat) : Tx.KeepsSch d t (t.chargeBytes d cls pa n) := by
  have act (u : Tx) (k : Nat) : Tx.KeepsSch d u (u.incPair (actPair d cls k) n) :=
    KeepsSch.incPair n (not_schReg_actPair d cls k).1 (not_schReg_actPair d cls k).2
  have hub (u : Tx) {a : Nat} (h : a + 4 < cdBase 0) : Tx.KeepsSch d u (u.incPair a 1) :=
    KeepsSch.incPair 1 (not_schReg_of_hub d (by omega)) (not_schReg_of_hub d h)
  have pick : Tx.KeepsSch d t (t.pick 2).2 := ⟨rfl, fun _ _ => rfl⟩
  unfold Tx.chargeBytes
  split
  · dsimp only
    split
    · exact (pick.trans (act _ 4)).trans (hub _ (by unfold HD_SC_HIT_LO hdBase cdBase; omega))
    · exact (pick.trans (act _ 5)).trans (hub _ (by unfold HD_SC_MISS_LO hdBase cdBase; omega))
  · split
    · exact act t 3
    · split
      · exact act t 4
      · exact act t 6

/-! ### Translation -/

theorem Tx.keepsSch_onXlt (t : Tx) (d u : Nat) (f : Xlt → Xlt) : Tx.KeepsSch d t (t.onXlt u f) := ⟨rfl, fun _ _ => rfl⟩

theorem Tx.keepsSch_devctx (t : Tx) (d u ctx : Nat) : Tx.KeepsSch d t (t.devctx u ctx).1 := by
  fun_cases Tx.devctx t u ctx with
  -- a valid entry of the table is read and cached
  | case4 => exact t.keepsSch_onXlt d u _
  | _ => exact .refl d t

theorem Tx.keepsSch_cacheLeaf (t : Tx) (d u : Nat) (f : Leaf) : Tx.KeepsSch d t (t.cacheLeaf u f) := by
  unfold Tx.cacheLeaf
  split
  · exact t.keepsSch_onXlt d u _
  · exact ⟨rfl, fun _ _ => rfl⟩

theorem Tx.keepsSch_leafFor (t : Tx) (d u : Nat) (x : Dcx) (ctx va : Nat) : Tx.KeepsSch d t (t.leafFor u x ctx va).1 := by
  fun_cases Tx.leafFor t u x ctx va with
  -- a walk ends at an accessed leaf, which is cached
  | case4 => exact t.keepsSch_cacheLeaf d u _
  | _ => exact .refl d t

theorem Tx.keepsSch_xlate (t : Tx) (d u ctx mid va : Nat) (write : Bool) : Tx.KeepsSch d t (t.xlate u ctx mid va write).1 := by
  have hctx := t.keepsSch_devctx d u ctx
  fun_cases Tx.xlate t u ctx mid va write with
  | case1 | case2 | case3 => exact hctx.fst ‹_›
  | _ => exact (hctx.fst ‹_›).trans ((Tx.keepsSch_leafFor _ d u _ ctx va).fst ‹_›)

/-- Die `d`'s translation unit records a fault in its own registers. -/
theorem Tx.keepsSch_xltFault (t : Tx) (d ctx va cause : Nat) (write : Bool) : Tx.KeepsSch d t (t.xltFault d ctx va cause write) := by
  have own (o : Nat) (h : o < 0x1000 := by decide) : ¬ SchReg d (xltBase d + o) := not_schReg_xlt d o h
  have hctx := KeepsSch.wr (t := t) (f := XLT_FLT_DEVCTX (xltBase d)) ctx (own 0x28)
  have hcause := hctx.trans (KeepsSch.wr (f := XLT_FLT_CAUSE (xltBase d)) cause (own 0x28))
  have hacc := hcause.trans (KeepsSch.wr (f := XLT_FLT_ACC (xltBase d)) (if write then 2 else 1) (own 0x28))
  have hva := hacc.trans (KeepsSch.setPair (a := XLT_FVA_LO (xltBase d)) (va % 2 ^ 48) (own 0x2C) (own 0x30))
  exact (hva.trans (KeepsSch.wr (f := XLT_STAT_FAULT (xltBase d)) 1 (own 4))).trans (KeepsSch.wr (f := XLT_FCNT_FCNT (xltBase d)) _ (own 0x38))

/-! ### Reads -/

theorem Tx.keepsSch_vReadRun (t : Tx) (d ctx mid va n : Nat) : Tx.KeepsSch d t (t.vReadRun d ctx mid va n).1 := by
  have hx := t.keepsSch_xlate d d ctx mid va false
  fun_cases Tx.vReadRun t d ctx mid va n with
  | case1 | case3 => exact (hx.fst ‹_›).trans (Tx.keepsSch_xltFault ..)
  | case2 =>
    refine (hx.fst ‹_›).trans ?_
    split
    · exact ⟨rfl, fun _ _ => rfl⟩
    · exact .refl ..
  | _ => exact hx.fst ‹_›

theorem Tx.keepsSch_dieRun {α : Type} (t : Tx) (d cls ctx va n : Nat) (write : Bool) (f : Tx → Tx × VAns α)
    (hf : ∀ t, Tx.KeepsSch d t (f t).1) : Tx.KeepsSch d t (t.dieRun d cls ctx va n write f).1 := by
  have hwalk := KeepsSch.each (fun (t : Tx) (x : Nat × Nat) => t.keepsSch_chargeBytes d cls x.1 x.2) (t.walkReads d ctx va) t
  have hrun := hwalk.trans (hf _)
  have hx (u : Tx) := u.keepsSch_xlate d d ctx (dieMid d) va write
  fun_cases Tx.dieRun t d cls ctx va n write f with
  | case1 => exact ((hrun.fst ‹_›).trans ((hx _).fst ‹_›)).trans (Tx.keepsSch_chargeBytes ..)
  | case2 => exact (hrun.fst ‹_›).trans ((hx _).fst ‹_›)
  | case3 => exact hrun

/-- A read by die `d` leaves its step scheduler alone. -/
theorem Tx.keepsSch_dieRead (t : Tx) (d cls ctx va n : Nat) : Tx.KeepsSch d t (t.dieRead d cls ctx va n).1 := by
  unfold Tx.dieRead
  refine KeepsSch.foldl (fun p x => ?_) (lineRuns va n) (t, VAns.ok [])
  obtain ⟨t1, acc⟩ := p
  have hrun := t1.keepsSch_dieRun d cls ctx x.1 x.2 false _ fun t => t.keepsSch_vReadRun d ctx (dieMid d) x.1 x.2
  cases acc with
  | ok bs =>
    dsimp only
    split
    next t2 cs h => rw [h] at hrun; exact hrun
    next t2 _ _ h => rw [h] at hrun; exact hrun
  | _ => exact .refl d t1

end Sys2Proof.Machine
end

section
/-! SUPPORT.  RING_FETCH (R165, R166, R168): a fetch leaves its context at rest or begins a list. -/

namespace Sys2Proof.Machine

/-! ### Registers a command has written -/

/-- The command has written the register at `a`. -/
def Tx.Wrote (t : Tx) (a : Nat) : Prop := logGet t.r a ≠ none

theorem Tx.wrote_setWord_self (t : Tx) (a w : Nat) : (t.setWord a w).Wrote a := by
  unfold Tx.Wrote
  rw [Tx.setWord_r, logGet, if_pos rfl]
  exact Option.some_ne_none _

theorem Tx.Wrote.setWord {t : Tx} {a : Nat} (h : t.Wrote a) (b w : Nat) : (t.setWord b w).Wrote a := by
  unfold Tx.Wrote
  rw [Tx.setWord_r, logGet]
  split
  · exact Option.some_ne_none _
  · exact h

theorem Tx.wrote_wr_self (t : Tx) (f : FRef) (v : Nat) : (t.wr f v).Wrote f.addr := t.wrote_setWord_self _ _

theorem Tx.Wrote.wr {t : Tx} {a : Nat} (h : t.Wrote a) (f : FRef) (v : Nat) : (t.wr f v).Wrote a := h.setWord _ _

theorem Tx.wrote_showCtx (t : Tx) (d c : Nat) : (t.showCtx d c).Wrote (CD_SCH_CTX d c) :=
  ((((t.wrote_wr_self (CD_SCH_CTX_STATE d c) _).wr _ _).wr _ _).wr _ _).wr _ _

theorem Tx.Wrote.showCtx {t : Tx} {a : Nat} (h : t.Wrote a) (d c : Nat) : (t.showCtx d c).Wrote a :=
  ((((h.wr _ _).wr _ _).wr _ _).wr _ _).wr _ _

/-- A field of a register that a command has written is as the command left it. -/
theorem State.commit_rd_wrote (s : State) {t : Tx} {f : FRef} (h : t.Wrote f.addr) : (s.commit t).rd f = t.rd f := by
  obtain ⟨w, hw⟩ := Option.ne_none_iff_exists'.mp h
  unfold State.rd Tx.rd Tx.word
  rw [State.commit_reg, hw]
  rfl

/-! ### A fetched list begins -/

/-- The state in which a fetched list begins (R168). -/
def beginState (e : List Byte) : CtxState := if bit (entF e 0x2F 1) 1 then .gated else .running

theorem Tx.beginFetched_ent (t : Tx) (d c : Nat) (e : List Byte) (listid : Nat) (r : Option (List Byte)) (round : Bool) :
    ((t.beginFetched d c e listid r round).ctxOf d c).ent = e := by
  unfold Tx.beginFetched
  cases r <;> simp [apply_ite (Tx.ctxOf · d c)]

/-- A fetched list is GATED where GATE is set and RUNNING otherwise (R168). -/
theorem Tx.beginFetched_st (t : Tx) (d c : Nat) (e : List Byte) (listid : Nat) (r : Option (List Byte)) (round : Bool) :
    ((t.beginFetched d c e listid r round).ctxOf d c).st = beginState e := by
  unfold Tx.beginFetched beginState
  cases r <;> simp [apply_ite (Tx.ctxOf · d c)]

/-- CD_SCH_CTX shows the state in which a fetched list begins. -/
theorem Tx.beginFetched_state (s : State) (t : Tx) (d c : Nat) (e : List Byte) (listid : Nat) (r : Option (List Byte)) (round : Bool) :
    (s.commit (t.beginFetched d c e listid r round)).rd (CD_SCH_CTX_STATE d c) = (beginState e).code := by
  rw [State.commit_rd_wrote s (Tx.wrote_showCtx _ d c), ← t.beginFetched_st d c e listid r round]
  exact Tx.showCtx_state _ d c

/-! ### How a fetch ends -/

/-- Context `c` neither waits at its gate nor runs. -/
def Tx.Rests (t : Tx) (d c : Nat) : Prop := (t.ctxOf d c).st ≠ .running ∧ (t.ctxOf d c).st ≠ .gated

theorem Tx.Rests.of_st {t : Tx} {d c : Nat} {st : CtxState} (h : (t.ctxOf d c).st = st) (hst : st ≠ .running ∧ st ≠ .gated) : t.Rests d c := by
  subst h; exact hst

theorem Tx.rests_stopAtFetch (t : Tx) (d c code : Nat) {st : CtxState} (hst : st ≠ .running ∧ st ≠ .gated) :
    (t.stopAtFetch d c code st).Rests d c :=
  .of_st (t.stopAtFetch_st d c code st) hst

/-- A list of the entry `e` has begun in context `c`. -/
def Tx.Begins (t : Tx) (d c : Nat) (e : List Byte) : Prop := ∃ (t' : Tx) (listid : Nat) (r : Option (List Byte)) (round : Bool),
  t = t'.beginFetched d c e listid r round

/-- An entry that was read stops the context or begins its list; it does neither where a target holds an access. -/
theorem Tx.acceptEntry_cases (t : Tx) (d c : Nat) (e : List Byte) (slot : Nat) (u : Tx) :
    t.acceptEntry d c e slot = some u → u.Rests d c ∨ u.Begins d c e := by
  fun_cases Tx.acceptEntry t d c e slot with
  -- the certificate, the record or the image is held
  | case3 | case6 | case8 => exact nofun
  -- the record or the image fails the resume (0x47)
  | case7 | case9 => rintro ⟨⟩; exact .inl (.of_st (Tx.raiseStop_st ..) (by decide))
  -- resumed or fresh, the list begins
  | case11 | case13 => rintro ⟨⟩; exact .inr ⟨_, _, _, _, rfl⟩
  -- a check of the entry or its certificate fails
  | _ => rintro ⟨⟩; exact .inl (Tx.rests_stopAtFetch _ _ _ _ (by decide))

/-- The read of the ring entry at HEAD, and its answer (R166). -/
def Tx.entryRead (t : Tx) (d c : Nat) : Tx × VAns (List Byte) :=
  t.vRead d (t.rd (CD_SCH_RCFG_RDEVCTX d c)) (dieMid d)
    (sext48 (t.pair (CD_SCH_RBASE_LO d c) / 64 * 64) + t.rd (CD_SCH_RPTR_HEAD d c) * 64) 64

/-- The entry `e` at HEAD has been fetched: its read is charged to its class, HEAD moves on and CFLT clears (R166, R200). -/
def Tx.fetched (t : Tx) (d c : Nat) (e : List Byte) : Tx :=
  let u := (t.dieRead d (entF e 0x2E 1 % 64) (t.rd (CD_SCH_RCFG_RDEVCTX d c))
    (sext48 (t.pair (CD_SCH_RBASE_LO d c) / 64 * 64) + t.rd (CD_SCH_RPTR_HEAD d c) * 64) 64).1
  (u.wr (CD_SCH_RPTR_HEAD d c) ((t.rd (CD_SCH_RPTR_HEAD d c) + 1) % 2 ^ t.ringLog d c)).setWord (CD_SCH_CFLT d c) 0

/-- What a fetch does, by the answer to its read. -/
def Tx.fetchEnd (t : Tx) (d c : Nat) : Tx × VAns (List Byte) → Tx
  | (_, .held) => t
  | (u, .fault _ _) => if t.rt d c then u.stopAtFetch d c 0x45 .error else u.stopAtFetch d c 0x44 .stopped
  | (u, .poison _) => u.stopAtFetch d c 0x4A .stopped
  | (_, .ok e) => ((t.fetched d c e).acceptEntry d c e (t.rd (CD_SCH_RPTR_HEAD d c))).getD t

/-- RING_FETCH by the answer to its read.  The read is generalised before the definition is taken apart: Lean's kernel would evaluate it on
48-bit addresses, in unary. -/
theorem Tx.ringFetch_eq (t : Tx) (d c : Nat) : t.ringFetch d c = t.fetchEnd d c (t.entryRead d c) := by
  rcases h : t.entryRead d c with ⟨u, answer⟩
  unfold Tx.entryRead at h
  unfold Tx.fetchEnd Tx.fetched
  generalize hfetch : Tx.ringFetch = fetch
  delta Tx.ringFetch at hfetch
  subst hfetch
  generalize Tx.acceptEntry = accept
  generalize Tx.vRead = read at h ⊢
  cases answer with
  | ok e => simp only [h]; split <;> simp only [*, Option.getD]
  | _ => simp only [h]

/-- A fetch leaves an idle context at rest or begins a list in it. -/
theorem Tx.ringFetch_cases {t : Tx} {d c : Nat} (hidle : (t.ctxOf d c).st = .idle) :
    (t.ringFetch d c).Rests d c ∨ ∃ e, (t.ringFetch d c).Begins d c e := by
  have hrest : t.Rests d c := .of_st hidle (by decide)
  rw [Tx.ringFetch_eq]
  obtain ⟨u, answer⟩ := t.entryRead d c
  cases answer with
  | held => exact .inl hrest
  | fault cause va =>
    rw [Tx.fetchEnd]
    split
    · exact .inl (Tx.rests_stopAtFetch _ _ _ _ (by decide))
    · exact .inl (Tx.rests_stopAtFetch _ _ _ _ (by decide))
  | poison va => exact .inl (Tx.rests_stopAtFetch _ _ _ _ (by decide))
  | ok e =>
    rw [Tx.fetchEnd]
    cases h : (t.fetched d c e).acceptEntry d c e (t.rd (CD_SCH_RPTR_HEAD d c)) with
    | none => exact .inl hrest
    | some v => exact (Tx.acceptEntry_cases _ _ _ _ _ _ h).imp_right fun h => ⟨e, h⟩

/-- A context at rest stays so at the end of a builder's round. -/
theorem Tx.Rests.afterStop {t : Tx} {d c : Nat} (h : t.Rests d c) : (t.afterStop d c).Rests d c := by
  unfold Tx.afterStop
  dsimp only
  split
  · exact .of_st (st := .idle) (by rw [Tx.ctxOf_showCtx, Tx.ctxOf_onCtx_self]) (by decide)
  · exact h

/-- A list that has begun has not stopped. -/
theorem Tx.Begins.afterStop {t : Tx} {d c : Nat} {e : List Byte} (h : t.Begins d c e) : t.afterStop d c = t := by
  obtain ⟨t', listid, r, round, rfl⟩ := h
  unfold Tx.afterStop
  dsimp only
  rw [Tx.beginFetched_st, beginState]
  split <;> simp

end Sys2Proof.Machine
end

section
/-! SUPPORT.  The fetch of a sound entry that neither resumes nor is real-time (R165, R166), and RING_FETCH as a command. -/

namespace Sys2Proof.Machine

/-- Whether a partition is free depends on the other contexts alone. -/
theorem Tx.partBusy_congr {t u : Tx} {d c : Nat} (h : ∀ k, k ≠ c → u.ctxOf d k = t.ctxOf d k) (base size : Nat) :
    u.partBusy d c base size = t.partBusy d c base size := by
  unfold Tx.partBusy
  refine congrArg (List.any (List.range 8)) (funext fun k => ?_)
  by_cases hk : k = c
  · simp [hk]
  · rw [h k hk]

/-- A sound entry of a free partition, not to be resumed, begins its list on a ring that is not real-time. -/
theorem Tx.acceptEntry_fresh {t : Tx} {d c : Nat} {e : List Byte} (slot : Nat) (hrt : t.rt d c = false) (hbad : entryBad e false = false)
    (hbusy : t.partBusy d c (entF e 0x30 4) (entF e 0x34 4) = false) (hresume : bit (entF e 0x2F 1) 0 = false) :
    ∃ x round, t.acceptEntry d c e slot = some ((t.onCtx d c fun _ => x).beginFetched d c e 0 none round) := by
  have hbusy' (x : Sctx) : (t.onCtx d c fun _ => x).partBusy d c (entF e 0x30 4) (entF e 0x34 4) = false :=
    (Tx.partBusy_congr (fun k hk => by rw [Tx.ctxOf_onCtx, if_neg fun h => hk h.2]) _ _).trans hbusy
  unfold Tx.acceptEntry
  simp only [hrt, hbad, hbusy', hresume, Bool.false_eq_true, if_false, false_and]
  exact ⟨_, _, rfl⟩

/-- A fresh list stands at its first step, with none committed. -/
theorem Tx.beginFetched_none (t : Tx) (d c : Nat) (e : List Byte) (listid : Nat) (round : Bool) :
    (t.beginFetched d c e listid none round).ctxOf d c = { st := beginState e, ent := e, listid := listid, round := round } := by
  unfold Tx.beginFetched beginState
  simp

@[simp] theorem Tx.rd_onCtx (t : Tx) (d c : Nat) (f : Sctx → Sctx) (g : FRef) : (t.onCtx d c f).rd g = t.rd g := rfl

theorem Tx.Wrote.onCtx {t : Tx} {a : Nat} (h : t.Wrote a) (d c : Nat) (f : Sctx → Sctx) : (t.onCtx d c f).Wrote a := h

/-- The start of a fresh list writes only the registers that show its context: what the command has written elsewhere stands. -/
theorem Tx.beginFetched_none_rd (s : State) {t : Tx} {d c : Nat} (e : List Byte) (listid : Nat) (round : Bool) {f : FRef} (h : t.Wrote f.addr)
    (h1 : f.addr ≠ CD_SCH_CTX d c) (h2 : f.addr ≠ CD_SCH_STAT d) (h3 : f.addr ≠ CD_SCH_RRAUD d) :
    (s.commit (t.beginFetched d c e listid none round)).rd f = t.rd f := by
  unfold Tx.beginFetched
  dsimp only
  rw [if_neg Bool.false_ne_true, State.commit_rd_wrote s ((h.onCtx d c _).showCtx d c), Tx.rd, Tx.showCtx_word_other _ _ _ _ h1 h2 h3]
  rfl

theorem Tx.ringLog_le (t : Tx) (d c : Nat) : t.ringLog d c ≤ 12 := by
  unfold Tx.ringLog
  dsimp only
  split <;> omega

/-- The fetch of an entry leaves the ring's class of service alone. -/
theorem Tx.fetched_rt (t : Tx) (d : Nat) (c : Ctx) (e : List Byte) : (t.fetched d c e).rt d c = t.rt d c := by
  have hreg : SchReg d (CD_SCH_RCFG d c) := by unfold SchReg CD_SCH_RCFG; omega
  have hread (cls ctx va n : Nat) : (t.dieRead d cls ctx va n).1.rd (CD_SCH_RCFG_RT d c) = t.rd (CD_SCH_RCFG_RT d c) :=
    congrArg (bits · 7 7) ((t.keepsSch_dieRead ..).word _ hreg)
  unfold Tx.rt Tx.is Tx.fetched
  rw [Tx.rd_setWord_other _ _ _ _ (by unfold CD_SCH_RCFG_RT CD_SCH_RCFG CD_SCH_CFLT; dsimp only; omega),
    Tx.rd_wr_other _ _ _ _ (by unfold CD_SCH_RCFG_RT CD_SCH_RPTR_HEAD CD_SCH_RCFG CD_SCH_RPTR; dsimp only; omega), hread]

/-- The fetch of an entry leaves every context as it was. -/
theorem Tx.fetched_ctxOf (t : Tx) (d c : Nat) (e : List Byte) (k : Nat) : (t.fetched d c e).ctxOf d k = t.ctxOf d k := by
  unfold Tx.fetched
  rw [Tx.ctxOf_setWord, Tx.ctxOf_wr, (t.keepsSch_dieRead ..).ctxOf]

/-- HEAD has moved on, within the ring (R166). -/
theorem Tx.fetched_head (t : Tx) (d c : Nat) (e : List Byte) :
    (t.fetched d c e).rd (CD_SCH_RPTR_HEAD d c) = (t.rd (CD_SCH_RPTR_HEAD d c) + 1) % 2 ^ t.ringLog d c := by
  have hsize : 2 ^ t.ringLog d c ≤ 2 ^ 12 := Nat.pow_le_pow_right (by decide) (t.ringLog_le d c)
  have hlt := (Nat.mod_lt (t.rd (CD_SCH_RPTR_HEAD d c) + 1) (Nat.two_pow_pos (t.ringLog d c))).trans_le hsize
  unfold Tx.fetched
  rw [Tx.rd_setWord_other _ _ _ _ (by unfold CD_SCH_RPTR_HEAD CD_SCH_RPTR CD_SCH_CFLT; dsimp only; omega),
    Tx.rd_wr_self _ _ _ (by decide : 11 < 32)]
  exact Nat.mod_eq_of_lt hlt

theorem Tx.fetched_wrote (t : Tx) (d c : Nat) (e : List Byte) : (t.fetched d c e).Wrote (CD_SCH_RPTR d c) := by
  unfold Tx.fetched
  exact (Tx.wrote_wr_self _ (CD_SCH_RPTR_HEAD d c) _).setWord _ _

/-! ### RING_FETCH as a command -/

theorem exec_ringFetch (d : Die) (c : Ctx) (s : State) : exec (.ringFetch d c) s =
    s.does fun t => t.when (t.mayFetch d c) fun t => (t.ringFetch d c).afterStop d c := rfl

/-- A sound entry that neither resumes nor is real-time begins its list (R165, R166, R168). -/
theorem Tx.ringFetch_fresh {t u : Tx} {d : Nat} {c : Ctx} {e : List Byte} (hrt : t.rt d c = false) (hread : t.entryRead d c = (u, .ok e))
    (hbad : entryBad e false = false) (hbusy : t.partBusy d c (entF e 0x30 4) (entF e 0x34 4) = false)
    (hresume : bit (entF e 0x2F 1) 0 = false) :
    ∃ x round, t.ringFetch d c = ((t.fetched d c e).onCtx d c fun _ => x).beginFetched d c e 0 none round := by
  have hbusy' := (Tx.partBusy_congr (fun k _ => t.fetched_ctxOf d c e k) _ _).trans hbusy
  obtain ⟨x, round, h⟩ := Tx.acceptEntry_fresh (t.rd (CD_SCH_RPTR_HEAD d c)) ((t.fetched_rt d c e).trans hrt) hbad hbusy' hresume
  exact ⟨x, round, by rw [Tx.ringFetch_eq, hread, Tx.fetchEnd, h, Option.getD_some]⟩

/-- The list of a sound entry stands at its first step, and HEAD has moved on. -/
theorem completes_ringFetch {s : State} {u : Tx} {d : Die} {c : Ctx} {e : List Byte} (hmay : (Tx.start s).mayFetch d c = true)
    (hrt : (Tx.start s).rt d c = false) (hread : (Tx.start s).entryRead d c = (u, .ok e)) (hbad : entryBad e false = false)
    (hbusy : (Tx.start s).partBusy d c (entF e 0x30 4) (entF e 0x34 4) = false) (hresume : bit (entF e 0x2F 1) 0 = false) :
    Completes (.ringFetch d c) s fun t =>
      (∃ listid round, t.ctx d c = { st := beginState e, ent := e, listid := listid, round := round }) ∧
      t.rd (CD_SCH_CTX_STATE d c) = (beginState e).code ∧
      t.rd (CD_SCH_RPTR_HEAD d c) = (s.rd (CD_SCH_RPTR_HEAD d c) + 1) % s.ringSize d c := by
  obtain ⟨x, round, h⟩ := Tx.ringFetch_fresh hrt hread hbad hbusy hresume
  have hstop := Tx.Begins.afterStop ⟨_, _, _, _, h⟩
  refine .of_does (exec_ringFetch d c s) ?_
  rw [hmay, Tx.when_true, hstop, h]
  refine ⟨⟨0, round, (State.commit_ctx ..).trans (Tx.beginFetched_none ..)⟩, Tx.beginFetched_state .., ?_⟩
  rw [Tx.beginFetched_none_rd s e 0 round (((Tx.start s).fetched_wrote d c e).onCtx d c _), Tx.rd_onCtx, Tx.fetched_head]
  · rfl
  all_goals unfold CD_SCH_RPTR_HEAD CD_SCH_RPTR
  · unfold CD_SCH_CTX; dsimp only; omega
  · unfold CD_SCH_STAT; dsimp only; omega
  · unfold CD_SCH_RRAUD; dsimp only; omega

/-- No fetch starts a list with GATE set, and a context it leaves waiting reports GATED (R168). -/
theorem ringFetch_keeps_gate {s t : State} {d : Die} {c : Ctx} (hidle : (s.ctx d c).st = .idle) (h : exec (.ringFetch d c) s = .next t)
    (hgate : bit (entF (t.ctx d c).ent 0x2F 1) 1 = true) :
    (t.ctx d c).st ≠ .running ∧ ((t.ctx d c).st = .gated → t.rd (CD_SCH_CTX_STATE d c) = 1) := by
  rw [exec_ringFetch, State.does_eq] at h
  injection h with h
  subst h
  simp only [State.commit_ctx] at *
  cases hmay : (Tx.start s).mayFetch d c with
  | false => simp [Tx.when_false, State.start_ctx, hidle]
  | true =>
    rw [hmay, Tx.when_true] at hgate
    rw [Tx.when_true]
    rcases Tx.ringFetch_cases (t := Tx.start s) hidle with hrest | ⟨e, hbegin⟩
    · exact ⟨hrest.afterStop.1, fun h => absurd h hrest.afterStop.2⟩
    · rw [hbegin.afterStop] at hgate ⊢
      obtain ⟨v, listid, r, round, hv⟩ := hbegin
      rw [hv, Tx.beginFetched_ent] at hgate
      rw [hv, Tx.beginFetched_st, Tx.beginFetched_state, beginState, if_pos hgate]
      exact ⟨by decide, fun _ => rfl⟩

end Sys2Proof.Machine
end

section
/-! SUPPORT.  A grant writes no byte of memory and leaves every context in its state (R179); GATE_MET as a command (R168). -/

namespace Sys2Proof.Machine

/-- From `t` to `u` no byte of memory is written and every context keeps its state. -/
structure Tx.KeepsRun (t u : Tx) : Prop where
  mem : u.m = t.m
  st : ∀ d c, (u.ctxOf d c).st = (t.ctxOf d c).st

namespace Tx.KeepsRun

theorem refl (t : Tx) : KeepsRun t t := ⟨rfl, fun _ _ => rfl⟩

theorem trans {t u v : Tx} (h : KeepsRun t u) (k : KeepsRun u v) : KeepsRun t v :=
  ⟨k.mem.trans h.mem, fun d c => (k.st d c).trans (h.st d c)⟩

theorem wr (t : Tx) (f : FRef) (v : Nat) : KeepsRun t (t.wr f v) := ⟨rfl, fun _ _ => rfl⟩

theorem set1 (t : Tx) (f : FRef) : KeepsRun t (t.set1 f) := wr t f 1

/-- A change of a scheduler beside its contexts. -/
theorem onSch {t : Tx} {d : Nat} {f : Sch → Sch} (hf : ∀ x, (f x).ctx = x.ctx) : KeepsRun t (t.onSch d f) := by
  refine ⟨rfl, fun d' c => ?_⟩
  unfold Tx.ctxOf
  rw [Tx.schOf_onSch]
  split
  next h => rw [hf, h]
  next => rfl

/-- A change of a context beside its state. -/
theorem onCtx {t : Tx} {d c : Nat} {f : Sctx → Sctx} (hf : ∀ x, (f x).st = x.st) : KeepsRun t (t.onCtx d c f) := by
  refine ⟨rfl, fun d' c' => ?_⟩
  rw [Tx.ctxOf_onCtx]
  split
  next h => rw [hf, h.1, h.2]
  next => rfl

theorem each {α : Type} {f : Tx → α → Tx} (hf : ∀ t x, KeepsRun t (f t x)) (xs : List α) (t : Tx) : KeepsRun t (t.each xs f) :=
  List.foldlRecOn xs f (motive := KeepsRun t) (refl t) fun u h x _ => h.trans (hf u x)

/-- The same of the work that a pair holds. -/
theorem fst {β : Type} {t u : Tx} {p : Tx × β} {b : β} (h : KeepsRun t p.1) (e : p = (u, b)) : KeepsRun t u := by
  subst e; exact h

end Tx.KeepsRun

theorem Tx.keepsRun_showEngines (t : Tx) (d : Nat) : Tx.KeepsRun t (t.showEngines d) := by
  unfold Tx.showEngines
  extract_lets braid strand
  have hbraid : Tx.KeepsRun t braid := by
    unfold braid
    split
    · exact .refl t
    · split <;> exact ((Tx.KeepsRun.wr ..).trans (.wr ..)).trans (.wr ..)
  have hstrand : Tx.KeepsRun braid strand := by
    unfold strand
    split
    · exact .refl braid
    · exact (Tx.KeepsRun.wr ..).trans (.wr ..)
  exact (hbraid.trans hstrand).trans (.wr ..)

/-- Raising classes moves virtual times (R218). -/
theorem Tx.keepsRun_raiseClasses (t : Tx) (d : Nat) (e : Unit5) : Tx.KeepsRun t (t.raiseClasses d e) := by
  unfold Tx.raiseClasses
  refine .onSch fun x => List.foldlRecOn _ _ (motive := fun y : Sch => y.ctx = x.ctx) rfl fun y h cls _ => ?_
  dsimp only
  split
  · split <;> exact h
  · exact h

theorem Tx.keepsRun_pick {t u : Tx} {n k : Nat} (h : t.pick n = (k, u)) : Tx.KeepsRun t u := by
  obtain rfl : (t.pick n).2 = u := by rw [h]
  exact ⟨rfl, fun _ _ => rfl⟩

/-- The choice of a context moves the loser of a tie (R179). -/
theorem Tx.keepsRun_chooseCtx (t : Tx) (d : Nat) (e : Unit5) : Tx.KeepsRun t (t.chooseCtx d e).1 := by
  fun_cases Tx.chooseCtx t d e with
  | case2 => exact .onSch fun _ => rfl
  | case3 => exact (Tx.keepsRun_pick ‹t.pick _ = _›).trans (.onSch fun _ => by rfl)
  | _ => exact .refl t

theorem Tx.keepsRun_beginList (t : Tx) (d c : Nat) : Tx.KeepsRun t (t.beginList d c) := by
  have h : Tx.KeepsRun t (t.onCtx d c fun s => { s with begun := true }) := .onCtx fun _ => rfl
  fun_cases Tx.beginList t d c with
  | case1 => exact .refl t
  | case2 => exact h.trans ⟨rfl, fun _ _ => rfl⟩
  | case3 => exact h

theorem Tx.keepsRun_onStep (t : Tx) (d c j : Nat) (g : StepSt → StepSt) : Tx.KeepsRun t (t.onStep d c j g) := by
  unfold Tx.onStep
  exact .onCtx fun _ => rfl

/-- What a grant does to its context and its engine: the list has begun, the step is granted, and the engine's own state takes `f`. -/
theorem Tx.keepsRun_granted (t : Tx) (d c j : Nat) {g : StepSt → StepSt} {f : Sch → Sch} (hf : ∀ x, (f x).ctx = x.ctx) :
    Tx.KeepsRun t ((((t.beginList d c).onStep d c j g).onSch d f).showEngines d) :=
  (((t.keepsRun_beginList d c).trans (Tx.keepsRun_onStep _ d c j g)).trans (.onSch hf)).trans (Tx.keepsRun_showEngines _ d)

theorem Tx.keepsRun_grant (t : Tx) (d : Nat) (e : Unit5) : Tx.KeepsRun t (t.grant d e) := by
  have hraise := t.keepsRun_raiseClasses d e
  have hchoose := hraise.trans (Tx.keepsRun_chooseCtx _ d e)
  fun_cases Tx.grant t d e with
  | case1 => exact hraise
  | case2 t1 hup t2 hc => exact hchoose.fst hc
  | case3 t1 hup t2 c hc => exact hchoose.fst hc
  | case4 t1 hup t2 c hc =>
    refine .trans ?_ (.set1 _ _)
    refine .trans (hchoose.fst hc) (Tx.keepsRun_granted _ d _ _ fun x => ?_)
    cases e <;> dsimp only <;> split <;> rfl
  | case5 t1 hup t2 c hc =>
    refine .trans (hchoose.fst hc) (Tx.keepsRun_granted _ d _ _ fun x => ?_)
    cases e <;> dsimp only <;> split <;> rfl

theorem Tx.keepsRun_grantAll (t : Tx) (d : Nat) : Tx.KeepsRun t (t.grantAll d) := .each (fun t e => t.keepsRun_grant d e) engines4 t

/-! ### GATE_MET as a command -/

theorem exec_gateMet (d : Die) (c : Ctx) (s : State) : exec (.gateMet d c) s =
    s.does fun t => t.when (t.gateMet d c) fun t => ((t.onCtx d c fun s => { s with st := .running }).showCtx d c).grantAll d := rfl

/-- The gate of a waiting context is met when its counter has reached GATEVAL (R168). -/
theorem Tx.gateMet_iff {s : State} {d c : Nat} (h : (s.ctx d c).st = .gated) :
    (Tx.start s).gateMet d c = true ↔ (s.ctx d c).gateval ≤ s.word (CD_SCH_EVT d (s.ctx d c).gateevt) := by
  unfold Tx.gateMet
  dsimp only
  rw [State.start_ctx, h]
  exact decide_eq_true_iff

theorem exec_gateMet_below {s : State} {d : Die} {c : Ctx} (h : (s.ctx d c).st = .gated)
    (hlow : s.word (CD_SCH_EVT d (s.ctx d c).gateevt) < (s.ctx d c).gateval) : exec (.gateMet d c) s = .next s := by
  have hunmet : (Tx.start s).gateMet d c = false := Bool.eq_false_iff.mpr (mt (Tx.gateMet_iff h).mp (by omega))
  rw [exec_gateMet, State.does_eq, hunmet]
  rfl

theorem completes_gateMet {s : State} {d : Die} {c : Ctx} (h : (s.ctx d c).st = .gated)
    (hmet : (s.ctx d c).gateval ≤ s.word (CD_SCH_EVT d (s.ctx d c).gateevt)) :
    Completes (.gateMet d c) s fun t => (t.ctx d c).st = .running ∧ SameMem s t := by
  refine .of_does (exec_gateMet d c s) ?_
  rw [(Tx.gateMet_iff h).mpr hmet, Tx.when_true]
  have hgrant := Tx.keepsRun_grantAll (((Tx.start s).onCtx d c fun x => { x with st := .running }).showCtx d c) d
  refine ⟨?_, sameMem_of_nil hgrant.mem⟩
  rw [State.commit_ctx, hgrant.st, Tx.ctxOf_showCtx, Tx.ctxOf_onCtx_self]

end Sys2Proof.Machine
end

section
/-! PROOF.  Work lists are fetched, and a gate holds a list back (O8). -/

namespace Sys2Proof.Machine

theorem State.pair_start (s : State) (a : Nat) : (Tx.start s).pair a = s.pair a := rfl

/-- Settles O8: the fetch of a sound entry is followed through its charged read; every fetch leaves its context at rest or begins a list, which
GATE makes wait; a gate is met exactly from GATEVAL on, and the grants that follow leave the context running. -/
theorem listsAreFetchedAndGated : Obligations.ListsAreFetchedAndGated := by
  unfold Obligations.ListsAreFetchedAndGated
  refine ⟨?_, fun s t d c => ringFetch_keeps_gate, fun s d c => exec_gateMet_below, fun s d c => completes_gateMet⟩
  intro s d c u e t0 head hmay hrt hread hbad hbusy hresume
  have hentry : (Tx.start s).entryRead d c = (u, .ok e) := by
    unfold Tx.entryRead
    rw [State.rd_start, State.rd_start, State.pair_start]
    exact hread
  obtain ⟨t, hexec, ⟨listid, round, hctx⟩, hstate, hhead⟩ := completes_ringFetch hmay hrt hentry hbad hbusy hresume
  refine ⟨t, hexec, ?_⟩
  beta_reduce
  rw [hctx, hstate]
  refine ⟨rfl, rfl, rfl, rfl, ?_, rfl, rfl, hhead⟩
  unfold beginState
  split <;> rfl

end Sys2Proof.Machine
end

section
/-! SUPPORT.  What raising an interrupt line of the hub can change (R453, R456). -/

namespace Sys2Proof.Machine

theorem Tx.fileSet_onIrq (t : Tx) (s : Bool) (h id : Nat) : ∃ q, t.fileSet s h id = t.onIrq fun _ => q := by
  unfold Tx.fileSet
  split <;> exact ⟨_, rfl⟩

theorem Tx.msi_onIrq (t : Tx) (s : Bool) (target : Nat) : ∃ q, (t.msi s target).1 = t.onIrq fun _ => q := by
  unfold Tx.msi
  split
  · exact ⟨_, rfl⟩
  · exact t.fileSet_onIrq ..

theorem Tx.forward1_onIrq (t : Tx) (i : Nat) : ∃ q, (t.forward1 i).1 = t.onIrq fun _ => q := by
  unfold Tx.forward1
  dsimp only
  split
  · obtain ⟨q, h⟩ := Tx.msi_onIrq (t.onApl (t.d.irq.mode i).1 fun a => { a with ip := a.ip.put i false }) (t.d.irq.mode i).1
      ((t.d.irq.dom (t.d.irq.mode i).1).target.at i)
    exact ⟨q, h⟩
  · exact ⟨_, rfl⟩

theorem Tx.level1_onIrq (t : Tx) (i : Nat) (b : Bool) : ∃ q, (t.level1 i b).1 = t.onIrq fun _ => q := by
  unfold Tx.level1
  dsimp only
  split
  · obtain ⟨q, h⟩ := Tx.forward1_onIrq ((t.onIrq fun q => { q with level := q.level.put i b }).onApl (t.d.irq.mode i).1
      fun a => { a with ip := a.ip.put i true }) i
    exact ⟨q, h⟩
  · split
    · exact ⟨_, rfl⟩
    · exact ⟨_, rfl⟩

/-- A line of the hub that rises changes the interrupt state alone, or sets MSIREF besides. -/
theorem Tx.irq_hub (t : Tx) {i : Nat} (h : i < 128) :
    ∃ q, t.irq i = (t.onIrq fun _ => q) ∨ t.irq i = (t.onIrq fun _ => q).set1 IRQ_STAT_MSIREF := by
  unfold Tx.irq Tx.setLevel Tx.msiref
  rw [if_pos h]
  split
  · obtain ⟨q, hq⟩ := t.level1_onIrq i true
    split
    · rw [hq]
      obtain ⟨q', hq'⟩ := Tx.level1_onIrq ((t.onIrq fun _ => q).set1 IRQ_STAT_MSIREF) 53 true
      exact ⟨q', .inr hq'⟩
    · exact ⟨q, .inl hq⟩
  · exact ⟨t.d.irq, .inl rfl⟩

section
variable (t : Tx) {i : Nat} (h : i < 128)
include h

theorem Tx.irq_s : (t.irq i).s = t.s := by
  obtain ⟨q, e | e⟩ := t.irq_hub h <;> rw [e] <;> rfl

theorem Tx.irq_m : (t.irq i).m = t.m := by
  obtain ⟨q, e | e⟩ := t.irq_hub h <;> rw [e] <;> rfl

theorem Tx.irq_aln : (t.irq i).d.aln = t.d.aln := by
  obtain ⟨q, e | e⟩ := t.irq_hub h <;> rw [e] <;> rfl

theorem Tx.word_irq {a : Nat} (ha : a ≠ IRQ_STAT) : (t.irq i).word a = t.word a := by
  obtain ⟨q, e | e⟩ := t.irq_hub h <;> rw [e]
  · rfl
  · exact Tx.word_wr_other _ _ _ _ ha

theorem Tx.rd_irq {f : FRef} (hf : f.addr ≠ IRQ_STAT) : (t.irq i).rd f = t.rd f := congrArg (bits · f.hi f.lo) (t.word_irq h hf)

theorem Tx.irq_r {e : Nat × Word} (he : e ∈ (t.irq i).r) : e.1 = IRQ_STAT ∨ e ∈ t.r := by
  obtain ⟨q, hq | hq⟩ := t.irq_hub h <;> rw [hq] at he
  · exact .inr he
  · exact (List.mem_cons.mp he).imp_left fun hd => congrArg Prod.fst hd

end

end Sys2Proof.Machine
end

section
/-! SUPPORT.  What a translated access can change (R251 to R257, R438, R474): the state found, the registers of other blocks, and all of the
device but its translation, caches, reservations, mirror queue and what leaves the module stand. -/

namespace Sys2Proof.Machine

/-- The registers that an access through translation unit `x` may write: the unit's block and the audit of the mirror queue. -/
def AccessReg (x a : Nat) : Prop := (xltBase x ≤ a ∧ a < xltBase x + 0x1000) ∨ a = HWS_MAUD

/-- The device without what memory accesses change. -/
def Dev.besideAccess (d : Dev) : Dev := { d with xlt := [], free := 0, out := [], poison := [], harts := [], cache := [], hws := {} }

/-- From `t` to `u` nothing has changed but what accesses through translation unit `x` change. -/
structure Tx.Accessed (x : Nat) (t u : Tx) : Prop where
  s : u.s = t.s
  dev : u.d.besideAccess = t.d.besideAccess
  word : ∀ a, ¬ AccessReg x a → u.word a = t.word a

namespace Tx.Accessed

theorem refl (x : Nat) (t : Tx) : Accessed x t t := ⟨rfl, rfl, fun _ _ => rfl⟩

theorem trans {x : Nat} {t u v : Tx} (h : Accessed x t u) (k : Accessed x u v) : Accessed x t v :=
  ⟨k.s.trans h.s, k.dev.trans h.dev, fun a ha => (k.word a ha).trans (h.word a ha)⟩

/-- Work that logs no register word, and changes the device as an access does. -/
theorem of_r {x : Nat} {t u : Tx} (hs : u.s = t.s) (hd : u.d.besideAccess = t.d.besideAccess) (hr : u.r = t.r) : Accessed x t u :=
  ⟨hs, hd, fun a _ => by unfold Tx.word; rw [hr, hs]⟩

theorem setWord {x a : Nat} {t : Tx} (w : Nat) (ha : AccessReg x a) : Accessed x t (t.setWord a w) :=
  ⟨rfl, rfl, fun b hb => by rw [Tx.word_setWord, if_neg fun e : b = a => hb (e ▸ ha)]⟩

theorem wr {x : Nat} {t : Tx} {f : FRef} (v : Nat) (hf : AccessReg x f.addr) : Accessed x t (t.wr f v) := setWord _ hf

/-- The same of the work that a pair holds. -/
theorem fst {β : Type} {x : Nat} {t u : Tx} {p : Tx × β} {b : β} (h : Accessed x t p.1) (e : p = (u, b)) : Accessed x t u := by
  subst e; exact h

theorem foldl {α β : Type} {x : Nat} {f : Tx × β → α → Tx × β} (hf : ∀ p y, Accessed x p.1 (f p y).1) (ys : List α) (p : Tx × β) :
    Accessed x p.1 (ys.foldl f p).1 :=
  List.foldlRecOn ys f (motive := fun q => Accessed x p.1 q.1) (refl x p.1) fun q h y _ => h.trans (hf q y)

end Tx.Accessed

/-! ### Translation -/

theorem Tx.accessed_onXlt (t : Tx) (x u : Nat) (f : Xlt → Xlt) : Tx.Accessed x t (t.onXlt u f) := .of_r rfl rfl rfl

theorem Tx.accessed_devctx (t : Tx) (x u ctx : Nat) : Tx.Accessed x t (t.devctx u ctx).1 := by
  fun_cases Tx.devctx t u ctx with
  -- a valid entry of the table is read and cached
  | case4 => exact t.accessed_onXlt x u _
  | _ => exact .refl x t

theorem Tx.accessed_cacheLeaf (t : Tx) (x u : Nat) (f : Leaf) : Tx.Accessed x t (t.cacheLeaf u f) := by
  unfold Tx.cacheLeaf
  split
  · exact t.accessed_onXlt x u _
  · exact .of_r rfl rfl rfl

theorem Tx.accessed_leafFor (t : Tx) (x u : Nat) (c : Dcx) (ctx va : Nat) : Tx.Accessed x t (t.leafFor u c ctx va).1 := by
  fun_cases Tx.leafFor t u c ctx va with
  -- a walk ends at an accessed leaf, which is cached
  | case4 => exact t.accessed_cacheLeaf x u _
  | _ => exact .refl x t

theorem Tx.accessed_xlate (t : Tx) (x u ctx mid va : Nat) (write : Bool) : Tx.Accessed x t (t.xlate u ctx mid va write).1 := by
  have hctx := t.accessed_devctx x u ctx
  fun_cases Tx.xlate t u ctx mid va write with
  | case1 | case2 | case3 => exact hctx.fst ‹_›
  | _ => exact (hctx.fst ‹_›).trans ((Tx.accessed_leafFor _ x u _ ctx va).fst ‹_›)

/-- A translation unit records a fault in its own registers. -/
theorem Tx.accessed_xltFault (t : Tx) (x ctx va cause : Nat) (write : Bool) : Tx.Accessed x t (t.xltFault x ctx va cause write) := by
  have own (o : Nat) (h : o < 0x1000 := by decide) : AccessReg x (xltBase x + o) := .inl ⟨Nat.le_add_right .., Nat.add_lt_add_left h _⟩
  have hctx := Accessed.wr (t := t) (f := XLT_FLT_DEVCTX (xltBase x)) ctx (own 0x28)
  have hcause := hctx.trans (Accessed.wr (f := XLT_FLT_CAUSE (xltBase x)) cause (own 0x28))
  have hacc := hcause.trans (Accessed.wr (f := XLT_FLT_ACC (xltBase x)) (if write then 2 else 1) (own 0x28))
  have hlo := hacc.trans (Accessed.setWord (a := XLT_FVA_LO (xltBase x)) (va % 2 ^ 48) (own 0x2C))
  have hhi := hlo.trans (Accessed.setWord (a := XLT_FVA_LO (xltBase x) + 4) (va % 2 ^ 48 / 2 ^ 32) (own 0x30))
  exact (hhi.trans (Accessed.wr (f := XLT_STAT_FAULT (xltBase x)) 1 (own 4))).trans (Accessed.wr (f := XLT_FCNT_FCNT (xltBase x)) _ (own 0x38))

/-! ### Reads -/

theorem Tx.accessed_vReadRun (t : Tx) (x ctx mid va n : Nat) : Tx.Accessed x t (t.vReadRun x ctx mid va n).1 := by
  have hx := t.accessed_xlate x x ctx mid va false
  fun_cases Tx.vReadRun t x ctx mid va n with
  | case1 | case3 => exact (hx.fst ‹_›).trans (Tx.accessed_xltFault ..)
  | case2 =>
    refine (hx.fst ‹_›).trans ?_
    split
    · exact .of_r rfl rfl rfl
    · exact .refl ..
  | _ => exact hx.fst ‹_›

theorem Tx.accessed_vRead (t : Tx) (x ctx mid va n : Nat) : Tx.Accessed x t (t.vRead x ctx mid va n).1 := by
  unfold Tx.vRead
  refine Accessed.foldl (fun p y => ?_) (lineRuns va n) (t, VAns.ok [])
  obtain ⟨t1, acc⟩ := p
  have hrun := t1.accessed_vReadRun x ctx mid y.1 y.2
  cases acc with
  | ok bs =>
    dsimp only
    split <;> next h => rw [h] at hrun; exact hrun
  | _ => exact .refl x t1

/-! ### Writes -/

theorem Tx.accessed_wrBytes (t : Tx) (x k : Nat) (bs : List Byte) : Tx.Accessed x t (t.wrBytes k bs) :=
  .of_r (t.wrBytes_s k bs) (congrArg _ (t.wrBytes_d k bs)) (t.wrBytes_r k bs)

theorem Tx.accessed_clearPoison (t : Tx) (x k : Nat) : Tx.Accessed x t (t.clearPoison k) := .of_r rfl rfl rfl

theorem Tx.accessed_storeRun (t : Tx) (x k : Nat) (bs : List Byte) : Tx.Accessed x t (t.storeRun k bs) := by
  refine (t.accessed_wrBytes x k bs).trans ?_
  unfold Tx.storeRun
  generalize t.wrBytes k bs = u
  extract_lets _ _ v
  have hresv : Tx.Accessed x u v := by
    unfold v
    split
    · exact .of_r rfl rfl rfl
    · exact .refl x u
  split
  · exact hresv.trans (v.accessed_clearPoison x k)
  · exact hresv

theorem Tx.accessed_cacheOut (t : Tx) (x k : Nat) : Tx.Accessed x t (t.cacheOut k) := by
  unfold Tx.cacheOut
  split
  next c _ =>
    dsimp only
    have hout (u : Tx) : Tx.Accessed x u { u with d := { u.d with cache := u.d.cache.filter fun y => y.line != c.line } } := .of_r rfl rfl rfl
    split
    · exact ((t.accessed_wrBytes x _ _).trans (Tx.accessed_clearPoison _ x k)).trans (hout _)
    · exact hout t
  next => exact .refl x t

theorem Tx.accessed_mirrorPut (t : Tx) (x pa : Nat) (bs : List Byte) : Tx.Accessed x t (t.mirrorPut pa bs) := by
  have hshow (u : Tx) : Tx.Accessed x u u.mirrorShow := .wr _ (.inr rfl)
  have hqueue (h : Hws) : Tx.Accessed x t { t with d := { t.d with hws := h } } := .of_r rfl rfl rfl
  exact (hqueue _).trans (hshow _)

theorem Tx.accessed_physWrite (t : Tx) (x mid pa : Nat) (bs : List Byte) : Tx.Accessed x t (t.physWrite mid pa bs).1 := by
  unfold Tx.physWrite
  refine Accessed.foldl (fun p y => ?_) (lineRuns pa bs.length) (t, Ans.ok ())
  obtain ⟨t1, acc⟩ := p
  cases acc with
  | ok _ =>
    dsimp only
    split
    · exact .of_r rfl rfl rfl
    · split
      · split
        · split
          · exact .refl x t1
          · exact (t1.accessed_storeRun x _ _).trans (Tx.accessed_mirrorPut ..)
        · split
          · exact t1.accessed_storeRun x _ _
          · exact (t1.accessed_cacheOut x _).trans (Tx.accessed_storeRun ..)
      · exact .refl x t1
      · exact .refl x t1
  | _ => exact .refl x t1

theorem Tx.accessed_vWriteRun (t : Tx) (x ctx mid va : Nat) (bs : List Byte) : Tx.Accessed x t (t.vWriteRun x ctx mid va bs).1 := by
  have hx := t.accessed_xlate x x ctx mid va true
  have hw (u : Tx) (pa : Nat) := u.accessed_physWrite x mid pa bs
  fun_cases Tx.vWriteRun t x ctx mid va bs with
  | case1 => exact (hx.fst ‹_›).trans (Tx.accessed_xltFault ..)
  | case3 => exact ((hx.fst ‹_›).trans ((hw _ _).fst ‹_›)).trans (Tx.accessed_xltFault ..)
  | _ => exact (hx.fst ‹_›).trans ((hw _ _).fst ‹_›)

theorem Tx.accessed_vWrite (t : Tx) (x ctx mid va : Nat) (bs : List Byte) : Tx.Accessed x t (t.vWrite x ctx mid va bs).1 := by
  unfold Tx.vWrite
  refine Accessed.foldl (fun p y => ?_) (lineRuns va bs.length) (t, VAns.ok ())
  obtain ⟨t1, acc⟩ := p
  cases acc with
  | ok _ => exact t1.accessed_vWriteRun ..
  | _ => exact .refl x t1

end Sys2Proof.Machine
end

section
/-! SUPPORT.  A read does not depend on the registers above the memory's own blocks: Shelf, scratch, address map, encryption and
controllers (R236, R246, R266, R269, R625). -/

namespace Sys2Proof.Machine

theorem dramLocate_mc_lt {locsz pa : Nat} {l : DLoc} (h : dramLocate locsz pa = some l) : l.mc < 8 := by
  unfold dramLocate at h
  dsimp only at h
  split at h
  · exact absurd h nofun
  · split at h <;> cases h
    next hlocal => exact Nat.div_lt_of_lt_mul (by omega)
    next => exact Nat.mod_lt _ (by decide)

theorem dramLocate_q_lt {locsz pa : Nat} {l : DLoc} (h : dramLocate locsz pa = some l) : l.q < 64 := by
  have hmc := dramLocate_mc_lt h
  unfold dramLocate at h
  dsimp only at h
  split at h
  · exact absurd h nofun
  · split at h <;> cases h <;> unfold DLoc.q <;> dsimp only at hmc ⊢ <;> omega

theorem Tx.server_le (t : Tx) {l : DLoc} (hl : l.mc < 8) : (t.server l).1 ≤ 8 := by
  unfold Tx.server
  split
  · exact le_rfl
  · exact hl.le

section
variable (t : Tx) {a : Nat} (w : Nat) (ha : hdBase + 0x110000 ≤ a)
include ha

theorem Tx.rd_setWord_above {f : FRef} (hf : f.addr < hdBase + 0x110000) : (t.setWord a w).rd f = t.rd f :=
  t.rd_setWord_other a w f (by omega)

theorem Tx.is_setWord_above {f : FRef} (hf : f.addr < hdBase + 0x110000) : (t.setWord a w).is f = t.is f := by
  unfold Tx.is
  rw [t.rd_setWord_above w ha hf]

theorem Tx.server_setWord {l : DLoc} (hl : l.q < 64) : (t.setWord a w).server l = t.server l := by
  have hmap : (t.setWord a w).word (HD_DMAP_RMAP (l.q / 8)) = t.word (HD_DMAP_RMAP (l.q / 8)) := by
    rw [Tx.word_setWord, if_neg (by unfold HD_DMAP_RMAP; omega)]
  have hrd (f : FRef) (hf : f.addr < hdBase + 0x110000) := t.rd_setWord_above w ha hf
  unfold Tx.server Tx.spareFor Tx.migrating Tx.rmap
  rw [hmap, hrd HD_DMAP_MSTAT_STATE (by decide), hrd HD_DMAP_MSTAT_SRC (by decide), hrd HD_DMAP_MPTR_PTR (by decide),
    hrd HD_DMAP_MSTAT_SPARE (by decide)]

theorem Tx.dramLoc_setWord (mid pa : Nat) : (t.setWord a w).dramLoc mid pa = t.dramLoc mid pa := by
  have his (f : FRef) (hf : f.addr < hdBase + 0x110000) := t.is_setWord_above w ha hf
  have hmc (m : Nat) (hm : m ≤ 8) : HD_MC_STAT m < hdBase + 0x110000 := by unfold HD_MC_STAT; omega
  unfold Tx.dramLoc
  rw [t.rd_setWord_above w ha (f := HD_DMAP_CFG_LOCSZ) (by decide)]
  cases h : dramLocate (t.rd HD_DMAP_CFG_LOCSZ) pa with
  | none => rfl
  | some l =>
    have hm := dramLocate_mc_lt h
    have hserver := hmc _ (t.server_le hm)
    dsimp only
    rw [t.server_setWord w ha (dramLocate_q_lt h), his HD_MEE_CTL_LOCK (by decide), his (HD_MC_STAT_RETAIN l.mc) (hmc _ hm.le),
      his (HD_MC_STAT_RETAIN _) hserver, his (HD_MC_STAT_READY _) hserver, Tx.setWord_powered]

theorem Tx.shelfLoc_setWord (tile group goff : Nat) : (t.setWord a w).shelfLoc tile group goff = t.shelfLoc tile group goff := by
  unfold Tx.shelfLoc
  rw [Tx.setWord_powered, t.rd_setWord_above w ha (f := HD_SHF_STAT_READY) (by decide)]

theorem Tx.scratchLoc_setWord (pa : Nat) : (t.setWord a w).scratchLoc pa = t.scratchLoc pa := by
  unfold Tx.scratchLoc
  rw [t.rd_setWord_above w ha (f := HD_SC_STAT_SCRACT) (by decide), t.is_setWord_above w ha (f := HD_SC_STAT_CONV) (by decide),
    t.rd_setWord_above w ha (f := HD_SC_CTL_SCRWAYS) (by decide)]

theorem Tx.locate_setWord (mid pa : Nat) (write : Bool) : (t.setWord a w).locate mid pa write = t.locate mid pa write := by
  unfold Tx.locate
  simp only [t.dramLoc_setWord w ha, t.shelfLoc_setWord w ha, t.scratchLoc_setWord w ha,
    t.rd_setWord_above w ha (f := HD_SHF_GCFG_INTL) (by decide)]

theorem Tx.physRead_setWord (mid pa n : Nat) : (t.setWord a w).physRead mid pa n = t.physRead mid pa n := by
  unfold Tx.physRead
  simp only [t.locate_setWord w ha]
  rfl

end

end Sys2Proof.Machine
end

section
/-! SUPPORT.  The alignment engine's ring under a command's work (R353, R357): what its jobs and their accesses leave alone. -/

namespace Sys2Proof.Machine

/-- The registers that lay out the job ring and index it: ALN_CFG to ALN_PTR. -/
abbrev RingReg (a : Nat) : Prop := ALN_CFG ≤ a ∧ a ≤ ALN_PTR

/-- From `t` to `u` the state found, the job ring's registers and its halt stand. -/
structure Tx.KeepsRing (t u : Tx) : Prop where
  s : u.s = t.s
  halted : u.d.aln.halted = t.d.aln.halted
  word : ∀ a, RingReg a → u.word a = t.word a

theorem not_accessReg_of_ringReg {a : Nat} (h : RingReg a) : ¬ AccessReg 4 a := by
  unfold RingReg ALN_CFG ALN_PTR at h
  unfold AccessReg xltBase HWS_MAUD
  rw [if_neg (by decide)]
  omega

namespace Tx.KeepsRing

theorem refl (t : Tx) : KeepsRing t t := ⟨rfl, rfl, fun _ _ => rfl⟩

theorem trans {t u v : Tx} (h : KeepsRing t u) (k : KeepsRing u v) : KeepsRing t v :=
  ⟨k.s.trans h.s, k.halted.trans h.halted, fun a ha => (k.word a ha).trans (h.word a ha)⟩

/-- The same of the work that a pair holds. -/
theorem fst {β : Type} {t u : Tx} {p : Tx × β} {b : β} (h : KeepsRing t p.1) (e : p = (u, b)) : KeepsRing t u := by
  subst e; exact h

theorem of_accessed {t u : Tx} (h : Accessed 4 t u) : KeepsRing t u :=
  ⟨h.s, congrArg (fun d => d.aln.halted) h.dev, fun a ha => h.word a (not_accessReg_of_ringReg ha)⟩

theorem setWord (t : Tx) {a : Nat} (w : Nat) (ha : ¬ RingReg a) : KeepsRing t (t.setWord a w) :=
  ⟨rfl, rfl, fun b hb => by rw [Tx.word_setWord, if_neg fun e : b = a => ha (e ▸ hb)]⟩

theorem onAln (t : Tx) {f : Aln → Aln} (hf : (f t.d.aln).halted = t.d.aln.halted) : KeepsRing t (t.onAln f) := ⟨rfl, hf, fun _ _ => rfl⟩

theorem irq (t : Tx) {i : Nat} (h : i < 128) : KeepsRing t (t.irq i) :=
  ⟨t.irq_s h, congrArg Aln.halted (t.irq_aln h), fun a ha => t.word_irq h fun e => by
    subst e
    exact absurd ha (by decide)⟩

theorem notice (t : Tx) (kind : Nat) (data : List Nat) : KeepsRing t (t.notice kind data) := ⟨rfl, rfl, fun _ _ => rfl⟩

theorem cleatFrames (t : Tx) (kind : String) (payload : List Byte) : KeepsRing t (t.cleatFrames kind payload) := ⟨rfl, rfl, fun _ _ => rfl⟩

theorem vRead (t : Tx) (ctx mid va n : Nat) : KeepsRing t (t.vRead 4 ctx mid va n).1 := .of_accessed (t.accessed_vRead ..)

theorem vWrite (t : Tx) (ctx mid va : Nat) (bs : List Byte) : KeepsRing t (t.vWrite 4 ctx mid va bs).1 := .of_accessed (t.accessed_vWrite ..)

section
variable {t u : Tx} (h : KeepsRing t u)
include h

theorem rd {f : FRef} (hf : RingReg f.addr) : u.rd f = t.rd f := congrArg (bits · f.hi f.lo) (h.word _ hf)

theorem head : u.rd ALN_PTR_HEAD = t.rd ALN_PTR_HEAD := h.rd (by decide)

theorem alnCtx : u.alnCtx = t.alnCtx := h.rd (by decide)

theorem alnLog : u.alnLog = t.alnLog := by
  unfold Tx.alnLog
  rw [h.rd (f := ALN_CFG_LOG2SZ) (by decide)]

theorem cbase : u.pair ALN_CBASE_LO = t.pair ALN_CBASE_LO := by
  unfold Tx.pair
  rw [h.word _ (by decide), h.word _ (by decide)]

end

end Tx.KeepsRing

/-! ### The jobs -/

theorem Tx.keepsRing_readRecords (t : Tx) (r first n : Nat) : Tx.KeepsRing t (t.readRecords r first n).1 := by
  fun_induction Tx.readRecords t r first n with
  | case1 => exact .refl _
  | case2 _ _ _ _ _ hread _ _ hrest ih => exact ((KeepsRing.vRead ..).fst hread).trans (ih.fst hrest)
  | case3 _ _ _ _ _ hread _ ih => exact ((KeepsRing.vRead ..).fst hread).trans ih
  | case4 _ _ _ _ _ _ hread => exact (KeepsRing.vRead ..).fst hread

theorem Tx.keepsRing_gridBuffers (t : Tx) (list tc n : Nat) : Tx.KeepsRing t (t.gridBuffers list tc n).1 := by
  have read {t u : Tx} {va n : Nat} {x : VAns (List Byte)} (h : t.vRead 4 t.alnCtx alnMid va n = (u, x)) : Tx.KeepsRing t u :=
    (KeepsRing.vRead ..).fst h
  fun_induction Tx.gridBuffers t list tc n with
  | case1 => exact .refl _
  | case2 _ _ _ _ _ hent => exact read hent
  | case3 _ _ _ _ _ hent _ _ _ hhead => exact (read hent).trans (read hhead)
  | case4 _ _ _ _ _ hent _ _ _ hhead _ _ _ hbuf _ _ hrest ih =>
    exact (((read hent).trans (read hhead)).trans (read hbuf)).trans (ih.fst hrest)
  | case5 _ _ _ _ _ hent _ _ _ hhead _ _ _ hbuf _ ih => exact (((read hent).trans (read hhead)).trans (read hbuf)).trans ih
  | case6 _ _ _ _ _ hent _ _ _ hhead _ _ _ _ hbuf => exact ((read hent).trans (read hhead)).trans (read hbuf)
  | case7 _ _ _ _ _ hent _ _ _ _ hhead => exact (read hent).trans (read hhead)
  | case8 _ _ _ _ _ _ hent => exact read hent

theorem Tx.keepsRing_jobWrite (t : Tx) (va : Nat) (bs : List Byte) (e : JobEnd) : Tx.KeepsRing t (t.jobWrite va bs e).1 := by
  fun_cases Tx.jobWrite t va bs e <;> exact (KeepsRing.vWrite ..).fst ‹_›

theorem Tx.keepsRing_jobPoints (t : Tx) (j : Job) : Tx.KeepsRing t (t.jobPoints j).1 := by
  have hrecs := t.keepsRing_readRecords (fld j 2 2) (fld j 4 4) (fld j 0x18 4)
  fun_cases Tx.jobPoints t j with
  | case1 | case2 => exact hrecs.fst ‹_›
  | case3 => exact (hrecs.fst ‹_›).trans (Tx.keepsRing_jobWrite ..)

theorem Tx.keepsRing_jobCamxf (t : Tx) (j : Job) : Tx.KeepsRing t (t.jobCamxf j).1 := by
  have hrecs := t.keepsRing_readRecords (fld j 2 2) (fld j 4 4) (fld j 0x18 4)
  fun_cases Tx.jobCamxf t j with
  | case1 | case2 => exact hrecs.fst ‹_›
  | case3 => exact (hrecs.fst ‹_›).trans (Tx.keepsRing_jobWrite ..)

theorem Tx.keepsRing_jobGrid (t : Tx) (j : Job) : Tx.KeepsRing t (t.jobGrid j).1 := by
  have hbufs := t.keepsRing_gridBuffers (fld j 0x20 8) (fld j 8 8) (fld j 0x18 4)
  fun_cases Tx.jobGrid t j with
  | case1 => exact hbufs.fst ‹_›
  | case2 u _ hbuf =>
    have hseq := (hbufs.fst hbuf).trans (.setWord u (a := ALN_GSEQ) (u.rd ALN_GSEQ_SEQ + 1) (by decide))
    exact ((hseq.trans (.onAln _ rfl)).trans (.cleatFrames ..)).trans (Tx.keepsRing_jobWrite ..)

theorem Tx.keepsRing_jobCalset (t : Tx) (j : Job) : Tx.KeepsRing t (t.jobCalset j).1 := by
  have hread := KeepsRing.vRead t t.alnCtx alnMid (fld j 0x20 8) 32
  fun_cases Tx.jobCalset t j with
  | case1 | case3 => exact hread.fst ‹_›
  | case2 u _ _ _ _ c _ got hit v =>
    have hset : Tx.KeepsRing u v := .onAln u rfl
    refine ((hread.fst ‹_›).trans hset).trans ?_
    cases hit with
    | false => exact .refl v
    | true => exact ((KeepsRing.setWord v _ (by decide)).trans (.irq _ (by decide))).trans (.notice ..)

end Sys2Proof.Machine
end

section
/-! SUPPORT.  The end of a job whose completion record is written (R357), and the four jobs as commands. -/

namespace Sys2Proof.Machine

theorem Tx.rb_congr {t u : Tx} (hs : u.s = t.s) (hm : u.m = t.m) (a : Nat) : u.rb a = t.rb a := by
  unfold Tx.rb
  rw [hs, hm]

theorem Tx.alnLog_le (t : Tx) : t.alnLog ≤ 12 := by
  unfold Tx.alnLog
  dsimp only
  split <;> omega

/-- The completion record of a job that ends by `e` (R357). -/
def JobEnd.record (e : JobEnd) : List Byte :=
  leBytes 1 e.status ++ leBytes 1 0 ++ leBytes 2 (min e.nstale 65535) ++ leBytes 4 e.nout ++ leBytes 8 e.told

/-- The record of the job at HEAD is written: the work, and how the write ended. -/
def Tx.recordJob (t : Tx) (e : JobEnd) : Tx × VAns Unit :=
  t.vWrite 4 t.alnCtx alnMid (sext48 (t.pair ALN_CBASE_LO / 64 * 64 + t.rd ALN_PTR_HEAD * 16)) e.record

/-- HEAD moves on from `head`; the job's interrupt is raised where it asks for one. -/
def Tx.jobPassed (t : Tx) (irq : Bool) (head : Nat) : Tx := (t.wr ALN_PTR_HEAD ((head + 1) % 2 ^ t.alnLog)).when irq (·.irq 36)

/-- The ring halts. -/
def Tx.jobHalted (t : Tx) : Tx := ((t.onAln fun a => { a with halted := true }).set1 ALN_STAT_HALT).irq 36

/-- A job whose record is written passes when it ended well, and halts the ring when it failed.  The definition is taken apart as a value, and
its match rewritten before it reduces: Lean's kernel would evaluate the record's numbers in unary. -/
theorem Tx.jobDone_of_recorded {t w : Tx} {irq : Bool} {e : JobEnd} (h : t.recordJob e = (w, .ok ())) :
    t.jobDone irq e = some (if e.status = 0 then w.jobPassed irq (t.rd ALN_PTR_HEAD) else w.jobHalted) := by
  generalize hdone : Tx.jobDone = done
  delta Tx.jobDone at hdone
  subst hdone
  beta_reduce
  extract_lets head record
  have hwrite : t.vWrite 4 t.alnCtx alnMid (sext48 (t.pair ALN_CBASE_LO / 64 * 64 + head * 16)) record = (w, .ok ()) := h
  rw [hwrite]
  clear_value record
  by_cases hstatus : e.status = 0
  · simp [hstatus, VAns.isHeld, VAns.isOk, Tx.jobPassed, head]
  · simp [hstatus, VAns.isHeld, VAns.isOk, Tx.jobHalted]

theorem Tx.jobPassed_s (t : Tx) (irq : Bool) (head : Nat) : (t.jobPassed irq head).s = t.s := by
  cases irq
  · rfl
  · exact Tx.irq_s _ (i := 36) (by decide)

theorem Tx.jobPassed_m (t : Tx) (irq : Bool) (head : Nat) : (t.jobPassed irq head).m = t.m := by
  cases irq
  · rfl
  · exact Tx.irq_m _ (i := 36) (by decide)

theorem Tx.jobPassed_aln (t : Tx) (irq : Bool) (head : Nat) : (t.jobPassed irq head).d.aln = t.d.aln := by
  cases irq
  · rfl
  · exact Tx.irq_aln _ (i := 36) (by decide)

theorem Tx.jobPassed_head (t : Tx) (irq : Bool) (head : Nat) : (t.jobPassed irq head).rd ALN_PTR_HEAD = (head + 1) % 2 ^ t.alnLog := by
  have hsize : 2 ^ t.alnLog ≤ 2 ^ 12 := Nat.pow_le_pow_right (by decide) t.alnLog_le
  have hmoved : (t.wr ALN_PTR_HEAD ((head + 1) % 2 ^ t.alnLog)).rd ALN_PTR_HEAD = (head + 1) % 2 ^ t.alnLog := by
    rw [Tx.rd_wr_self _ _ _ (by decide)]
    exact Nat.mod_eq_of_lt ((Nat.mod_lt _ (Nat.two_pow_pos _)).trans_le hsize)
  cases irq
  · exact hmoved
  · exact (Tx.rd_irq _ (i := 36) (by decide) (by decide)).trans hmoved

theorem Tx.jobHalted_s (t : Tx) : t.jobHalted.s = t.s := Tx.irq_s _ (i := 36) (by decide)

theorem Tx.jobHalted_m (t : Tx) : t.jobHalted.m = t.m := Tx.irq_m _ (i := 36) (by decide)

theorem Tx.jobHalted_halted (t : Tx) : t.jobHalted.d.aln.halted = true := congrArg Aln.halted (Tx.irq_aln _ (i := 36) (by decide))

theorem Tx.jobHalted_halt (t : Tx) : t.jobHalted.rd ALN_STAT_HALT = 1 :=
  (Tx.rd_irq _ (i := 36) (by decide) (by decide)).trans (Tx.rd_wr_self _ _ _ (by decide))

theorem Tx.jobHalted_head (t : Tx) : t.jobHalted.rd ALN_PTR_HEAD = t.rd ALN_PTR_HEAD :=
  (Tx.rd_irq _ (i := 36) (by decide) (by decide)).trans (Tx.rd_wr_other _ _ _ _ (by decide))

/-! ### A job runs -/

/-- The read of the descriptor at HEAD, and its answer (R353). -/
def Tx.jobRead (t : Tx) : Tx × VAns (List Byte) :=
  t.vRead 4 t.alnCtx alnMid (sext48 (t.pair ALN_RBASE_LO / 64 * 64 + t.rd ALN_PTR_HEAD * 64)) 64

/-- A sound job at HEAD runs by its operation and ends by its record, unless an access of it is held.  The read and the record's write are
generalised, so that nothing evaluates them. -/
theorem Tx.job_of_read {t u v : Tx} {op : Nat} {f : Tx → Job → Tx × JobEnd} {j : Job} {e : JobEnd} (hhead : t.jobAtHead = true)
    (hread : t.jobRead = (u, .ok j)) (hok : jobOk j = true) (hop : fld j 0 1 = op) (hrun : f u j = (v, e)) (hheld : e.held = false) :
    t.job op f = (v.jobDone (bit (fld j 1 1) 0) e).getD t := by
  unfold Tx.jobRead at hread
  unfold Tx.job
  generalize Tx.jobDone = done
  generalize Tx.vRead = read at hread ⊢
  simp [hhead, hread, hok, hop, hrun, hheld]

/-- The job commands, each with the operation it runs and its meaning. -/
def alnJobs : List (Instr × Nat × (Tx → Job → Tx × JobEnd)) :=
  [(.points, 1, Tx.jobPoints), (.camxf, 2, Tx.jobCamxf), (.grid, 3, Tx.jobGrid), (.calset, 4, Tx.jobCalset)]

theorem mem_alnJobs {i : Instr} {op : Nat} {f : Tx → Job → Tx × JobEnd} (h : (i, op, f) ∈ alnJobs) :
    (i = .points ∧ op = 1 ∧ f = Tx.jobPoints) ∨ (i = .camxf ∧ op = 2 ∧ f = Tx.jobCamxf) ∨ (i = .grid ∧ op = 3 ∧ f = Tx.jobGrid) ∨
      (i = .calset ∧ op = 4 ∧ f = Tx.jobCalset) := by
  simpa only [alnJobs, List.mem_cons, List.not_mem_nil, or_false, Prod.mk.injEq] using h

theorem exec_job {i : Instr} {op : Nat} {f : Tx → Job → Tx × JobEnd} (h : (i, op, f) ∈ alnJobs) (s : State) :
    exec i s = s.does fun t => t.job op f := by
  obtain ⟨rfl, rfl, rfl⟩ | ⟨rfl, rfl, rfl⟩ | ⟨rfl, rfl, rfl⟩ | ⟨rfl, rfl, rfl⟩ := mem_alnJobs h <;> rfl

theorem keepsRing_job {i : Instr} {op : Nat} {f : Tx → Job → Tx × JobEnd} (h : (i, op, f) ∈ alnJobs) (t : Tx) (j : Job) :
    Tx.KeepsRing t (f t j).1 := by
  obtain ⟨-, -, rfl⟩ | ⟨-, -, rfl⟩ | ⟨-, -, rfl⟩ | ⟨-, -, rfl⟩ := mem_alnJobs h
  · exact t.keepsRing_jobPoints j
  · exact t.keepsRing_jobCamxf j
  · exact t.keepsRing_jobGrid j
  · exact t.keepsRing_jobCalset j

theorem Tx.not_halted_of_jobAtHead {t : Tx} (h : t.jobAtHead = true) : t.d.aln.halted = false := by
  simp only [Tx.jobAtHead, Bool.and_eq_true, Bool.not_eq_true'] at h
  exact h.1.2

/-- A sound job at HEAD completes by its record: HEAD moves on, or the ring halts at it (R357). -/
theorem completes_job {s : State} {i : Instr} {op : Nat} {f : Tx → Job → Tx × JobEnd} {u v w : Tx} {j : Job} {e : JobEnd}
    (hi : (i, op, f) ∈ alnJobs) (hhead : (Tx.start s).jobAtHead = true) (hread : (Tx.start s).jobRead = (u, .ok j)) (hok : jobOk j = true)
    (hop : fld j 0 1 = op) (hrun : f u j = (v, e)) (hheld : e.held = false)
    (hrec : v.vWrite 4 (s.rd ALN_CFG_DEVCTX) alnMid (sext48 (s.pair ALN_CBASE_LO / 64 * 64 + s.rd ALN_PTR_HEAD * 16)) e.record = (w, .ok ())) :
    Completes i s fun t => (∀ a, t.byte a = w.rb a) ∧
      if e.status = 0 then t.rd ALN_PTR_HEAD = (s.rd ALN_PTR_HEAD + 1) % 2 ^ (Tx.start s).alnLog ∧ t.dev.aln.halted = false
      else t.dev.aln.halted = true ∧ t.rd ALN_STAT_HALT = 1 ∧ t.rd ALN_PTR_HEAD = s.rd ALN_PTR_HEAD := by
  have hv : Tx.KeepsRing (Tx.start s) v := ((Tx.KeepsRing.vRead ..).fst hread).trans ((keepsRing_job hi u j).fst hrun)
  have hw : Tx.KeepsRing (Tx.start s) w := hv.trans ((Tx.KeepsRing.vWrite ..).fst hrec)
  have hrecorded : v.recordJob e = (w, .ok ()) := by
    unfold Tx.recordJob
    rw [hv.alnCtx, hv.cbase, hv.head]
    exact hrec
  refine .of_does (exec_job hi s) ?_
  rw [Tx.job_of_read hhead hread hok hop hrun hheld, Tx.jobDone_of_recorded hrecorded, Option.getD_some, hv.head]
  have commit (x : Tx) (hs : x.s = w.s) := State.commit_rd s x (hs.trans hw.s)
  by_cases hstatus : e.status = 0
  · rw [if_pos hstatus, if_pos hstatus, commit _ (w.jobPassed_s ..), State.commit_dev, w.jobPassed_aln, w.jobPassed_head, hw.alnLog, hw.halted]
    exact ⟨fun a => (State.commit_rb s _ ((w.jobPassed_s ..).trans hw.s) a).trans (Tx.rb_congr (w.jobPassed_s ..) (w.jobPassed_m ..) a), rfl,
      Tx.not_halted_of_jobAtHead hhead⟩
  · rw [if_neg hstatus, if_neg hstatus, commit _ w.jobHalted_s, commit _ w.jobHalted_s, State.commit_dev, w.jobHalted_head, hw.head]
    exact ⟨fun a => (State.commit_rb s _ (w.jobHalted_s.trans hw.s) a).trans (Tx.rb_congr w.jobHalted_s w.jobHalted_m a),
      w.jobHalted_halted, w.jobHalted_halt, rfl⟩

end Sys2Proof.Machine
end

section
/-! SUPPORT.  The cells a ray marks (R363). -/

namespace Sys2Proof.Machine

/-- The steps of a ray of `n` steps that lie strictly between its ends, the first 255 of them (R363). -/
def raySteps (n : Int) : List Int := ((List.range (min n.toNat 256)).drop 1).map (↑)

theorem mem_raySteps (n m : Int) : m ∈ raySteps n ↔ 1 ≤ m ∧ m ≤ min n 256 - 1 := by
  unfold raySteps
  rw [List.range_eq_range', List.drop_range', List.mem_map]
  constructor
  · rintro ⟨k, hk, rfl⟩
    rw [List.mem_range'_1] at hk
    omega
  · intro hm
    refine ⟨m.toNat, ?_, Int.toNat_of_nonneg (by omega)⟩
    rw [List.mem_range'_1]
    omega

/-- Step `m` of a ray of `n` steps from `a`, `d` cells along this axis: its cell, rounded to the nearest (R363). -/
def rayStep (a d n m : Int) : Int := a + (2 * d * m + n) / (2 * n)

theorem rayCells_eq (i0 j0 i1 j1 : Int) : rayCells i0 j0 i1 j1 =
    (raySteps (max |i1 - i0| |j1 - j0|)).filterMap fun m =>
      let i := rayStep i0 (i1 - i0) (max |i1 - i0| |j1 - j0|) m
      let j := rayStep j0 (j1 - j0) (max |i1 - i0| |j1 - j0|) m
      if inGrid i j then some (cellNo i j) else none := by
  unfold rayCells raySteps rayStep
  simp only [Int.natCast_natAbs, List.bind_eq_flatMap, List.pure_def, List.map_eq_flatMap]

/-- A cell is marked by the ray when it is the cell of the grid that a step of its interior rounds to. -/
theorem mem_rayCells (i0 j0 i1 j1 : Int) (x : Nat) :
    let di := i1 - i0
    let dj := j1 - j0
    let n : Int := max |di| |dj|
    x ∈ rayCells i0 j0 i1 j1 ↔ ∃ m i j : Int, 1 ≤ m ∧ m ≤ min n 256 - 1 ∧ i = i0 + Int.fdiv (2 * di * m + n) (2 * n) ∧
      j = j0 + Int.fdiv (2 * dj * m + n) (2 * n) ∧ 0 ≤ i ∧ i < 512 ∧ 0 ≤ j ∧ j < 512 ∧ x = (i * 512 + j).toNat := by
  intro di dj n
  have hn : 0 ≤ n := (abs_nonneg di).trans (le_max_left ..)
  have hstep (a d m : Int) : a + Int.fdiv (2 * d * m + n) (2 * n) = rayStep a d n m := by
    rw [rayStep, Int.fdiv_eq_ediv_of_nonneg _ (by omega)]
  simp only [rayCells_eq, List.mem_filterMap, mem_raySteps, hstep, Option.ite_none_right_eq_some, Option.some.injEq, inGrid, Bool.and_eq_true,
    decide_eq_true_eq, cellNo]
  constructor
  · rintro ⟨m, ⟨hlo, hhi⟩, ⟨⟨⟨hi0, hi1⟩, hj0⟩, hj1⟩, rfl⟩
    exact ⟨m, _, _, hlo, hhi, rfl, rfl, hi0, hi1, hj0, hj1, rfl⟩
  · rintro ⟨m, i, j, hlo, hhi, rfl, rfl, hi0, hi1, hj0, hj1, rfl⟩
    exact ⟨m, ⟨hlo, hhi⟩, ⟨⟨⟨hi0, hi1⟩, hj0⟩, hj1⟩, rfl⟩

end Sys2Proof.Machine
end

section
/-! SUPPORT.  ALN_DB and ALN_CMD: doorbell, RESUME and ABORT of the job ring (R353, R357, R632). -/

namespace Sys2Proof.Machine

theorem exec_alnDoorbell (mid : Mid) (v : Word) (s : State) : exec (.alnDoorbell mid v) s =
    s.does fun t => t.swWrite mid.toNat ALN_DB (·.alnDoorbell v.toNat) := rfl

theorem exec_alnResume (mid : Mid) (s : State) : exec (.alnResume mid) s = s.does fun t => t.swWrite mid.toNat ALN_CMD (·.writeAlnCmd 1) := rfl

theorem exec_alnAbort (mid : Mid) (s : State) : exec (.alnAbort mid) s = s.does fun t => t.swWrite mid.toNat ALN_CMD (·.writeAlnCmd 2) := rfl

/-- A command whose only register write is a field leaves every other register alone. -/
theorem sameRegs_wr {s : State} {t : Tx} {f : FRef} {v : Nat} (h : t.r = []) : SameRegs s (s.commit (t.wr f v)) [f.addr] :=
  sameRegs_of fun e he => by
    rw [show (t.wr f v).r = (f.addr, BitVec.ofNat 32 (putBits (t.word f.addr) f.hi f.lo v)) :: t.r from rfl, h] at he
    exact List.mem_singleton.mpr (congrArg Prod.fst (List.mem_singleton.mp he))

/-- CMDREF of the alignment engine sets, and nothing else changes. -/
theorem alnRefused (s : State) :
    let t := s.commit ((Tx.start s).set1 ALN_STAT_CMDREF)
    t.rd ALN_STAT_CMDREF = 1 ∧ SameRegs s t [ALN_STAT] ∧ SameMem s t ∧ t.dev = s.dev := by
  refine ⟨?_, sameRegs_wr rfl, sameMem_of_nil rfl, rfl⟩
  rw [State.commit_rd s _ rfl]
  exact Tx.rd_wr_self _ _ _ (by decide)

/-- The jobs pending when the accepted tail is `x` (R353). -/
def Tx.jobsTo (t : Tx) (x : Nat) : Nat := (x + 2 ^ t.alnLog - t.rd ALN_PTR_HEAD) % 2 ^ t.alnLog

/-- The doorbell may move the accepted tail to `tail`: it lies in the ring, and no accepted job is taken back (R353, R632). -/
def Tx.TakesTail (t : Tx) (tail : Nat) : Prop := tail < 2 ^ t.alnLog ∧ t.jobsTo (t.rd ALN_PTR_DBTAIL) ≤ t.jobsTo tail

theorem Tx.alnDoorbell_of_takes {t : Tx} {v : Nat} (h : t.TakesTail (bits v 11 0)) : t.alnDoorbell v = t.wr ALN_PTR_DBTAIL (bits v 11 0) := by
  unfold Tx.TakesTail Tx.jobsTo at h
  exact if_neg (by omega)

theorem Tx.alnDoorbell_of_not_takes {t : Tx} {v : Nat} (h : ¬ t.TakesTail (bits v 11 0)) : t.alnDoorbell v = t.set1 ALN_STAT_CMDREF := by
  unfold Tx.TakesTail Tx.jobsTo at h
  exact if_pos (by omega)

theorem completes_alnDoorbell {s : State} {mid : Mid} (v : Word) (hreach : s.reaches mid.toNat ALN_DB = true) :
    let n := 2 ^ (Tx.start s).alnLog
    let tail := bits v.toNat 11 0
    let pend (x : Nat) := (x + n - s.rd ALN_PTR_HEAD) % n
    Completes (.alnDoorbell mid v) s fun t => SameMem s t ∧ t.dev = s.dev ∧
      if tail < n ∧ pend (s.rd ALN_PTR_DBTAIL) ≤ pend tail then
        t.rd ALN_PTR_DBTAIL = tail ∧ t.rd ALN_PTR_HEAD = s.rd ALN_PTR_HEAD ∧ SameRegs s t [ALN_PTR]
      else t.rd ALN_STAT_CMDREF = 1 ∧ SameRegs s t [ALN_STAT] := by
  intro n tail pend
  refine .of_write (exec_alnDoorbell mid v s) hreach ?_
  by_cases h : tail < n ∧ pend (s.rd ALN_PTR_DBTAIL) ≤ pend tail
  · have htakes : (Tx.start s).TakesTail (bits v.toNat 11 0) := h
    rw [if_pos h, Tx.alnDoorbell_of_takes htakes]
    refine ⟨sameMem_of_nil (Tx.wr_m ..), (State.commit_dev ..).trans (Tx.wr_d ..), ?_, ?_, sameRegs_wr (Tx.start_r s)⟩
    · rw [State.commit_rd s _ rfl, Tx.rd_wr_self _ _ _ (by decide)]
      exact Nat.mod_eq_of_lt (bits_lt ..)
    · rw [State.commit_rd s _ rfl, Tx.rd_wr_apart _ _ _ _ (by decide) (by decide)]
      rfl
  · have hrefuses : ¬ (Tx.start s).TakesTail (bits v.toNat 11 0) := h
    rw [if_neg h, Tx.alnDoorbell_of_not_takes hrefuses]
    obtain ⟨hset, hregs, hmem, hdev⟩ := alnRefused s
    exact ⟨hmem, hdev, hset, hregs⟩

theorem completes_alnResume {s : State} {mid : Mid} (hreach : s.reaches mid.toNat ALN_CMD = true) :
    Completes (.alnResume mid) s fun t => SameMem s t ∧
      if s.dev.aln.halted then t.dev.aln = { s.dev.aln with halted := false } ∧ SameRegs s t []
      else t.rd ALN_STAT_CMDREF = 1 ∧ SameRegs s t [ALN_STAT] := by
  refine .of_write (exec_alnResume mid s) hreach ?_
  have hwrite : (Tx.start s).writeAlnCmd 1 = if s.dev.aln.halted then (Tx.start s).onAln fun a => { a with halted := false }
    else (Tx.start s).set1 ALN_STAT_CMDREF := rfl
  rw [hwrite]
  by_cases h : s.dev.aln.halted = true
  · rw [if_pos h, if_pos h]
    exact ⟨sameMem_of_nil rfl, rfl, sameRegs_of nofun⟩
  · rw [if_neg h, if_neg h]
    obtain ⟨hset, hregs, hmem, -⟩ := alnRefused s
    exact ⟨hmem, hset, hregs⟩

theorem completes_alnAbort {s : State} {mid : Mid} (hreach : s.reaches mid.toNat ALN_CMD = true) :
    Completes (.alnAbort mid) s fun t => t.dev.aln = { s.dev.aln with halted := false } ∧ t.rd ALN_PTR_HEAD = s.rd ALN_PTR_DBTAIL ∧
      t.rd ALN_PTR_DBTAIL = s.rd ALN_PTR_DBTAIL ∧ SameRegs s t [ALN_PTR] ∧ SameMem s t := by
  refine .of_write (exec_alnAbort mid s) hreach ?_
  have hwrite : (Tx.start s).writeAlnCmd 2 = ((Tx.start s).onAln fun a => { a with halted := false }).wr ALN_PTR_HEAD (s.rd ALN_PTR_DBTAIL) := rfl
  rw [hwrite]
  refine ⟨rfl, ?_, ?_, sameRegs_wr rfl, sameMem_of_nil rfl⟩
  · rw [State.commit_rd s _ rfl, Tx.rd_wr_self _ _ _ (by decide)]
    exact Nat.mod_eq_of_lt (bits_lt ..)
  · rw [State.commit_rd s _ rfl, Tx.rd_wr_apart _ _ _ _ (by decide) (by decide)]
    rfl

end Sys2Proof.Machine
end

section
/-! SUPPORT.  ALN_CTL: setting EN reads the calibration table (R359). -/

namespace Sys2Proof.Machine

/-- The calibration table as its 2,048 bytes give it (R359). -/
def calTable (bs : List Byte) : List Cal := (List.range 64).map fun e => calEntry ((bs.drop (32 * e)).take 32)

/-- A limit of the table is out of its range (R359). -/
def CalBad (tab : List Cal) : Prop := ∃ c ∈ tab, 5000000 < c.lrot ∨ 100000 < c.ltrn

/-- The read of the table failed. -/
def Tx.calFailed (t : Tx) : Tx := ((t.onAln fun a => { a with failed := true }).set1 ALN_STAT_CFGERR).irq 36

/-- A write of ALN_CTL sets EN and changes the engine's state; a failed read also sets CFGERR and raises the engine's line. -/
theorem Tx.writeAlnCtl_cases (t : Tx) (v : Nat) : ∃ f : Aln → Aln, t.writeAlnCtl v = (t.wr ALN_CTL_EN (bits v 0 0)).onAln f ∨
    t.writeAlnCtl v = (t.wr ALN_CTL_EN (bits v 0 0)).calFailed := by
  fun_cases Tx.writeAlnCtl t v with
  | case1 | case3 => exact ⟨id, .inr rfl⟩
  | case2 => exact ⟨_, .inl rfl⟩
  | case4 => cases bit v 0 with
    | false => exact ⟨fun a => { a with failed := false }, .inl rfl⟩
    | true => exact ⟨id, .inl rfl⟩

/-- Clearing EN ends the wait after a failed read (R359). -/
theorem Tx.writeAlnCtl_off {t : Tx} {v : Nat} (h : bit v 0 = false) :
    t.writeAlnCtl v = (t.wr ALN_CTL_EN (bits v 0 0)).onAln fun a => { a with failed := false } := by
  fun_cases Tx.writeAlnCtl t v with
  | case4 => rw [h]; rfl
  | _ => simp [h] at *

/-- The read of the table does not depend on EN. -/
theorem Tx.calRead_wr (t : Tx) (v : Nat) :
    (t.wr ALN_CTL_EN v).physRead alnMid ((t.wr ALN_CTL_EN v).pair ALN_CALBASE_LO / 2048 * 2048) 2048 =
      t.physRead alnMid (t.pair ALN_CALBASE_LO / 2048 * 2048) 2048 := by
  have hpair : (t.wr ALN_CTL_EN v).pair ALN_CALBASE_LO = t.pair ALN_CALBASE_LO := by
    unfold Tx.pair
    rw [Tx.word_wr_other _ _ _ _ (by decide), Tx.word_wr_other _ _ _ _ (by decide)]
  rw [hpair]
  exact t.physRead_setWord _ (by decide) _ _ _

/-- Setting EN takes the table that the engine reads, or fails on its limits (R359). -/
theorem Tx.writeAlnCtl_reads {t : Tx} {v : Nat} {bs : List Byte} (hset : bit v 0 = true) (hoff : t.is ALN_CTL_EN = false) (hcal : t.d.aln.cal = [])
    (hread : t.physRead alnMid (t.pair ALN_CALBASE_LO / 2048 * 2048) 2048 = .ok bs) :
    (CalBad (calTable bs) ∧ t.writeAlnCtl v = (t.wr ALN_CTL_EN (bits v 0 0)).calFailed) ∨
    (¬ CalBad (calTable bs) ∧ t.writeAlnCtl v =
      (t.wr ALN_CTL_EN (bits v 0 0)).onAln fun a => { a with cal := calTable bs, calseq := 0, failed := false }) := by
  rw [← t.calRead_wr (bits v 0 0)] at hread
  fun_cases Tx.writeAlnCtl t v with
  | case1 _ _ _ _ _ hok tab hbad =>
    rw [hread] at hok
    cases hok
    exact .inl ⟨by simpa [CalBad, tab, calTable] using hbad, rfl⟩
  | case2 _ _ _ _ hok tab hgood =>
    rw [hread] at hok
    cases hok
    exact .inr ⟨by simpa [CalBad, tab, calTable] using hgood, rfl⟩
  | case3 _ _ _ _ hfail => exact absurd hread (hfail bs)
  | case4 was u h => exact absurd (by simp [was, u, hset, hoff, hcal]) h

/-! ### ALN_ENABLE as a command -/

theorem exec_alnEnable (mid : Mid) (v : Word) (s : State) : exec (.alnEnable mid v) s =
    s.does fun t => t.swWrite mid.toNat ALN_CTL (·.writeAlnCtl v.toNat) := rfl

theorem Tx.calFailed_aln (t : Tx) : t.calFailed.d.aln = { t.d.aln with failed := true } := Tx.irq_aln _ (i := 36) (by decide)

theorem Tx.calFailed_cfgerr (t : Tx) : t.calFailed.rd ALN_STAT_CFGERR = 1 :=
  (Tx.rd_irq _ (i := 36) (by decide) (by decide)).trans (Tx.rd_wr_self _ _ _ (by decide))

theorem Tx.writeAlnCtl_s (t : Tx) (v : Nat) : (t.writeAlnCtl v).s = t.s := by
  obtain ⟨f, h | h⟩ := t.writeAlnCtl_cases v <;> rw [h]
  · rfl
  · exact Tx.irq_s _ (i := 36) (by decide)

theorem Tx.writeAlnCtl_m (t : Tx) (v : Nat) : (t.writeAlnCtl v).m = t.m := by
  obtain ⟨f, h | h⟩ := t.writeAlnCtl_cases v <;> rw [h]
  · rfl
  · exact Tx.irq_m _ (i := 36) (by decide)

theorem Tx.writeAlnCtl_en (t : Tx) (v : Nat) : (t.writeAlnCtl v).rd ALN_CTL_EN = bits v 0 0 := by
  have hen : (t.wr ALN_CTL_EN (bits v 0 0)).rd ALN_CTL_EN = bits v 0 0 :=
    (Tx.rd_wr_self _ _ _ (by decide)).trans (Nat.mod_eq_of_lt (bits_lt ..))
  obtain ⟨f, h | h⟩ := t.writeAlnCtl_cases v <;> rw [h]
  · exact hen
  · exact ((Tx.rd_irq _ (i := 36) (by decide) (by decide)).trans (Tx.rd_wr_other _ _ _ _ (by decide))).trans hen

theorem sameRegs_writeAlnCtl (s : State) (v : Nat) : SameRegs s (s.commit ((Tx.start s).writeAlnCtl v)) [ALN_CTL, ALN_STAT, IRQ_STAT] := by
  obtain ⟨f, h | h⟩ := (Tx.start s).writeAlnCtl_cases v <;> rw [h] <;> refine sameRegs_of fun e he => ?_
  · obtain rfl := List.mem_singleton.mp he
    exact .head _
  · obtain he | he := Tx.irq_r _ (i := 36) (by decide) he
    · exact he ▸ .tail _ (.tail _ (.head _))
    · obtain rfl | he := List.mem_cons.mp he
      · exact .tail _ (.head _)
      · obtain rfl := List.mem_singleton.mp he
        exact .head _

theorem completes_alnEnable {s : State} {mid : Mid} (v : Word) (hreach : s.reaches mid.toNat ALN_CTL = true) :
    Completes (.alnEnable mid v) s fun t => t.rd ALN_CTL_EN = bits v.toNat 0 0 ∧ SameMem s t ∧ SameRegs s t [ALN_CTL, ALN_STAT, IRQ_STAT] ∧
      (bit v.toNat 0 = false → t.dev.aln.cal = s.dev.aln.cal ∧ t.dev.aln.failed = false) ∧
      (bit v.toNat 0 = true → s.rd ALN_CTL_EN = 0 → s.dev.aln.cal = [] → ∀ bs,
        (Tx.start s).physRead alnMid (s.pair ALN_CALBASE_LO / 2048 * 2048) 2048 = .ok bs →
        (CalBad (calTable bs) ∧ t.rd ALN_STAT_CFGERR = 1 ∧ t.dev.aln.cal = [] ∧ t.dev.aln.failed = true) ∨
        (¬ CalBad (calTable bs) ∧ t.dev.aln.cal = calTable bs ∧ t.dev.aln.failed = false)) := by
  refine .of_write (exec_alnEnable mid v s) hreach ?_
  have hrd (f : FRef) := State.commit_rd s _ ((Tx.start s).writeAlnCtl_s v.toNat) f
  refine ⟨(hrd _).trans (Tx.writeAlnCtl_en ..), sameMem_of_nil (Tx.writeAlnCtl_m ..), sameRegs_writeAlnCtl s _, fun hclear => ?_, ?_⟩
  · rw [State.commit_dev, Tx.writeAlnCtl_off hclear]
    exact ⟨rfl, rfl⟩
  · intro hset hoff hcal bs hread
    have hen : (Tx.start s).is ALN_CTL_EN = false := by
      unfold Tx.is
      rw [State.rd_start, hoff]
      rfl
    rw [State.commit_dev, hrd]
    obtain ⟨hbad, h⟩ | ⟨hgood, h⟩ := Tx.writeAlnCtl_reads (t := Tx.start s) hset hen hcal hread <;> rw [h]
    · rw [Tx.calFailed_aln]
      exact .inl ⟨hbad, Tx.calFailed_cfgerr _, hcal, rfl⟩
    · exact .inr ⟨hgood, rfl, rfl⟩

end Sys2Proof.Machine
end

section
/-! PROOF.  The alignment job ring, its jobs and the rays of a grid (O39). -/

namespace Sys2Proof.Machine

/-- Settles O39: each command of the ring does its write; a job keeps the ring's registers and its halt through every access it makes, so its
record goes to HEAD's slot and HEAD moves on or the ring halts; a ray marks the cells of its interior steps. -/
theorem alignmentJobs : Obligations.AlignmentJobs := by
  unfold Obligations.AlignmentJobs
  refine ⟨?_, fun s mid v => completes_alnDoorbell v, fun s mid hreach => ⟨completes_alnResume hreach, completes_alnAbort hreach⟩, ?_, mem_rayCells⟩
  · intro s mid v hreach tableOf
    obtain ⟨t, hexec, hen, hmem, hregs, hclear, hset⟩ := completes_alnEnable v hreach
    refine ⟨t, hexec, hen, hmem, hregs, hclear, fun h hoff hcal bs hread => ?_⟩
    obtain ⟨hbad, hfailed⟩ | ⟨hgood, hloaded⟩ := hset h hoff hcal bs hread
    · exact (if_pos hbad).mpr hfailed
    · exact (if_neg hgood).mpr hloaded
  · intro s i op f u v w j e hi head hhead hread hok hop hrun hheld hrec
    exact completes_job hi hhead hread hok hop hrun hheld hrec

end Sys2Proof.Machine
end

section
/-! SUPPORT.  The choice of the best candidate (R385): one entry's part in it, what the choice over a table in index order means, and where the
reduction starts. -/

namespace Sys2Proof.Machine

/-- A listed entry of a table in key order is what its key reads as. -/
theorem Tab.at_of_mem {β : Type} [Inhabited β] {k : Nat} {v : β} {t : Tab β} (ht : (t.map (·.1)).Pairwise (· < ·)) (h : (k, v) ∈ t) :
    t.at k = v := by
  induction t with
  | nil => cases h
  | cons e es ih =>
    obtain ⟨j, w⟩ := e
    obtain ⟨hj, hes⟩ := List.pairwise_cons.mp ht
    obtain heq | h := List.mem_cons.mp h
    · cases heq
      exact if_pos rfl
    · exact (if_neg (hj k (List.mem_map_of_mem h)).ne).trans (ih hes h)

/-- The better of the candidate held so far and one entry of the table. -/
def better : Option (Nat × CandRes) → Nat × Option CandRes → Option (Nat × CandRes)
  | acc, (_, none) => acc
  | none, (k, some r) => if r.ok then some (k, r) else none
  | some (j, b), (k, some r) => if r.ok ∧ r.cost < b.cost then some (k, r) else some (j, b)

theorem Cycle.best_eq (c : Cycle) : c.best = c.results.foldl better none := by
  unfold Cycle.best
  congr 1
  funext acc ⟨k, r⟩
  cases r <;> cases acc <;> rfl

/-- `(k, r)` is no dearer than a feasible completed candidate of the table, and of no higher index than one of equal cost. -/
def Leads (t : Tab (Option CandRes)) (k : Nat) (r : CandRes) : Prop :=
  ∀ j q, (j, some q) ∈ t → q.ok = true → r.cost < q.cost ∨ (r.cost = q.cost ∧ k ≤ j)

/-- What a choice over the table means: a feasible completed candidate that leads, or none where no candidate is feasible and completed. -/
def Chosen (t : Tab (Option CandRes)) : Option (Nat × CandRes) → Prop
  | none => ∀ j q, (j, some q) ∈ t → q.ok = false
  | some (k, r) => (k, some r) ∈ t ∧ r.ok = true ∧ Leads t k r

/-- A candidate leads a longer table where it leads the old one and the new entry, if feasible and completed. -/
theorem Leads.append {t : Tab (Option CandRes)} {e : Nat × Option CandRes} {k : Nat} {r : CandRes} (h : Leads t k r)
    (he : ∀ q, e.2 = some q → q.ok = true → r.cost < q.cost ∨ (r.cost = q.cost ∧ k ≤ e.1)) : Leads (t ++ [e]) k r := by
  intro j q hq hok
  obtain hq | hq := List.mem_append.mp hq
  · exact h j q hq hok
  · obtain rfl := List.mem_singleton.mp hq
    exact he q rfl hok

/-- An entry that is not a feasible completed candidate changes no choice. -/
theorem Chosen.append_unfit {t : Tab (Option CandRes)} {acc : Option (Nat × CandRes)} {e : Nat × Option CandRes} (h : Chosen t acc)
    (he : ∀ q, e.2 = some q → q.ok = false) : Chosen (t ++ [e]) acc := by
  cases acc with
  | none =>
    intro j q hq
    obtain hq | hq := List.mem_append.mp hq
    · exact h j q hq
    · obtain rfl := List.mem_singleton.mp hq
      exact he q rfl
  | some b =>
    obtain ⟨hmem, hok, hlead⟩ := h
    exact ⟨List.mem_append_left _ hmem, hok, hlead.append fun q hq hfit => by simp [he q hq] at hfit⟩

/-- An entry of higher index than the whole table moves the choice as `better` says. -/
theorem Chosen.append {t : Tab (Option CandRes)} {acc : Option (Nat × CandRes)} {e : Nat × Option CandRes} (h : Chosen t acc)
    (habove : ∀ x ∈ t, x.1 < e.1) : Chosen (t ++ [e]) (better acc e) := by
  obtain ⟨k, _ | r⟩ := e
  · exact h.append_unfit fun q hq => by cases hq
  by_cases hok : r.ok = true
  case neg =>
    have hkeep : better acc (k, some r) = acc := by cases acc <;> simp [better, hok]
    rw [hkeep]
    exact h.append_unfit fun q hq => by cases hq; simpa using hok
  have hmem : (k, some r) ∈ t ++ [(k, some r)] := List.mem_append_right _ (List.mem_singleton_self _)
  have hself : ∀ q, some r = some q → q.ok = true → r.cost < q.cost ∨ (r.cost = q.cost ∧ k ≤ k) := by
    rintro q ⟨⟩ -
    exact .inr ⟨rfl, le_rfl⟩
  cases acc with
  | none =>
    have hnew : Leads t k r := fun j q hq hfit => by simp [h j q hq] at hfit
    rw [better, if_pos hok]
    exact ⟨hmem, hok, hnew.append hself⟩
  | some b =>
    obtain ⟨j, b⟩ := b
    obtain ⟨hbmem, hbok, hlead⟩ := h
    by_cases hless : r.cost < b.cost
    · have hnew : Leads t k r := fun i q hq hfit => by
        have := hlead i q hq hfit
        omega
      rw [better, if_pos ⟨hok, hless⟩]
      exact ⟨hmem, hok, hnew.append hself⟩
    · rw [better, if_neg fun hb => hless hb.2]
      refine ⟨List.mem_append_left _ hbmem, hbok, hlead.append ?_⟩
      rintro q ⟨⟩ -
      have hjk : j < k := habove _ hbmem
      omega

/-- The reduction over a table in index order gives the choice over it. -/
theorem chosen_foldl {t : Tab (Option CandRes)} (ht : (t.map (·.1)).Pairwise (· < ·)) : Chosen t (t.foldl better none) := by
  induction t using List.reverseRecOn with
  | nil => exact fun j q hq => by cases hq
  | append_singleton t e ih =>
    rw [List.map_append, List.pairwise_append] at ht
    obtain ⟨ht, -, habove⟩ := ht
    rw [List.foldl_append]
    exact (ih ht).append fun x hx => habove _ (List.mem_map_of_mem hx) _ (List.mem_singleton_self _)

theorem Cycle.chosen_best {c : Cycle} (hkeys : (c.results.map (·.1)).Pairwise (· < ·)) : Chosen c.results c.best :=
  c.best_eq ▸ chosen_foldl hkeys

/-- A candidate that has a result is clean, where a dirty candidate has none. -/
theorem Cycle.clean_of_result {c : Cycle} {k : Nat} {r : CandRes} (hkeys : (c.results.map (·.1)).Pairwise (· < ·))
    (hdirty : ∀ k ∈ c.dirty, c.results.at k = none) (h : (k, some r) ∈ c.results) : k ∉ c.dirty := by
  intro hk
  have hnone := hdirty k hk
  rw [Tab.at_of_mem hkeys h] at hnone
  cases hnone

/-- With no dirty candidate and every wave done, the reduction starts and takes 2,048 cycles (R385, R389). -/
theorem Cycle.proceed_reduce {c : Cycle} (at_ : Nat) (hclean : c.dirty = []) (hdone : c.ncand ≤ 64 * c.next) :
    c.proceed at_ = { c with act := .reduce, due := at_ + 5 * 2048 } := by
  unfold Cycle.proceed
  rw [hclean]
  exact if_neg (Nat.not_lt.mpr hdone)

end Sys2Proof.Machine
end

section
/-! PROOF.  The best candidate of a cycle (O43). -/

namespace Sys2Proof.Machine

/-- Settles O43: along a table in index order the candidate held is always the choice over the entries seen, since a later entry takes its place
only at a lower cost; a candidate with a result is clean. -/
theorem bestCandidateWins : Obligations.BestCandidateWins := by
  unfold Obligations.BestCandidateWins
  intro c hkeys hdirty
  have hbest := Cycle.chosen_best hkeys
  refine ⟨?_, ?_, fun at_ => Cycle.proceed_reduce at_⟩
  · intro k r hsome
    rw [hsome] at hbest
    obtain ⟨hmem, hok, hlead⟩ := hbest
    exact ⟨⟨hmem, Cycle.clean_of_result hkeys hdirty hmem, hok⟩, fun j q ⟨hq, _, hfit⟩ => hlead j q hq hfit⟩
  · rintro hnone j q ⟨hq, -, hfit⟩
    rw [hnone] at hbest
    simp [hbest j q hq] at hfit

end Sys2Proof.Machine
end
